-- ==== Sys2Proof/Word.lean ====
section
/-! DEFINITION. The word types of the block and the sparse table every indexed store of it is kept in. -/

namespace Sys2Proof

/-- One byte (00_scope R3). -/
abbrev Byte := BitVec 8

/-- A 64-bit word: a register (18 R467), a descriptor word (03 R78), a mailbox word (13 R370). -/
abbrev Word := BitVec 64

/-- A sparse table: key and entry, keys strictly rising. An absent key stands for the entry the
reader of the table names as its default (a FREE slot, a register at its reset value). -/
abbrev Tab (α : Type) := List (Nat × α)

/-- The entry at a key. -/
def Tab.get {α : Type} : Tab α → Nat → Option α
  | [], _ => none
  | (k, v) :: t, i => if i = k then some v else Tab.get t i

/-- The entry at a key, or the default. -/
def Tab.getD {α : Type} (t : Tab α) (i : Nat) (d : α) : α := (Tab.get t i).getD d

/-- Set the entry at a key, keeping the keys strictly rising. -/
def Tab.put {α : Type} : Tab α → Nat → α → Tab α
  | [], i, a => [(i, a)]
  | (k, v) :: t, i, a =>
    if i < k then (i, a) :: (k, v) :: t
    else if i = k then (k, a) :: t
    else (k, v) :: Tab.put t i a

/-- Remove the entry at a key. -/
def Tab.del {α : Type} (t : Tab α) (i : Nat) : Tab α := t.filter (fun p => p.1 ≠ i)

/-- Change the entry at a key, taking the default where there is none. -/
def Tab.upd {α : Type} (t : Tab α) (i : Nat) (d : α) (f : α → α) : Tab α :=
  Tab.put t i (f (Tab.getD t i d))

/-- Change the entry at a key where there is one. -/
def Tab.adj {α : Type} (t : Tab α) (i : Nat) (f : α → α) : Tab α :=
  t.map (fun p => if p.1 = i then (p.1, f p.2) else p)

/-- Change every entry. -/
def Tab.mapV {α : Type} (t : Tab α) (f : Nat → α → α) : Tab α := t.map (fun p => (p.1, f p.1 p.2))

/-- The keys whose entries satisfy a test, rising. -/
def Tab.keysWhere {α : Type} (t : Tab α) (f : Nat → α → Bool) : List Nat :=
  (t.filter (fun p => f p.1 p.2)).map (·.1)

/-- How many entries satisfy a test. -/
def Tab.countWhere {α : Type} (t : Tab α) (f : Nat → α → Bool) : Nat :=
  (t.filter (fun p => f p.1 p.2)).length

/-- The least number from `k` on that is not among keys in rising order. -/
def gapFrom : Nat → List Nat → Nat
  | k, [] => k
  | k, x :: t => if x < k then gapFrom k t else if x = k then gapFrom (k + 1) t else k

/-- The least free key at or above `lo` and below `n`. -/
def Tab.freeKey {α : Type} (t : Tab α) (lo n : Nat) : Option Nat :=
  let g := gapFrom lo (t.map (·.1))
  if g < n then some g else none

/-- Keys strictly rising: the canonical form of a table. -/
def Tab.wf {α : Type} : Tab α → Bool
  | [] => true
  | [_] => true
  | (a, _) :: (b, y) :: t => decide (a < b) && Tab.wf ((b, y) :: t)

end Sys2Proof
end

