-- ==== Sys2Proof/Syntax.lean ====
section
/-! DEFINITION. The commands of the block: one constructor per row of spec/opcode_table.json, with the
operands that arrive with it. What the surroundings supply (bytes a read returns, a packet's content,
the result of a self-test) is an operand; everything else the command finds in the state. -/

namespace Sys2Proof

/-- A mailbox of BAR 0 (13 R368): the manager's, or slice `s`'s. -/
inductive Mbox where
  | manager
  | slice (s : Nat)
  deriving DecidableEq, Repr

/-- A write into a slice's doorbell page (03 R67): the link it arrived on, the page's slice, whether it
is one aligned 8-byte write, and its value. -/
structure DbWrite where
  link : Nat
  slice : Nat
  aligned8 : Bool
  value : Word
  deriving DecidableEq, Repr

/-- A write into SSU_PUSH (03 R71): eight words where it is one aligned 64-byte write. -/
structure PushWrite where
  link : Nat
  slice : Nat
  aligned64 : Bool
  words : List Word
  deriving DecidableEq, Repr

/-- A write to a BAR 0 register (10 R299): link, size in bytes (4 or 8), whether a 4-byte write is to
the upper half, whether it is aligned, and the bytes written in the low bits. -/
structure RegWrite where
  link : Nat
  size : Nat
  hi : Bool
  aligned : Bool
  value : Word
  deriving DecidableEq, Repr

/-- What a ring read returned (03 R72, R74): 8 words, or 16 where both slots were read. -/
inductive RingRead where
  | words (ws : List Word)
  | error
  | timeout
  | poison
  deriving DecidableEq, Repr

/-- What a walker's 8-byte read of a chart entry returned (04 R110). -/
inductive WalkRead where
  | entry (e : Word)
  | failed
  deriving DecidableEq, Repr

/-- How Tsucen's own read of memory outside the die ended: bytes, poison, or a failure. -/
inductive MemRead where
  | data (bs : List Byte)
  | poison
  | failed
  deriving DecidableEq, Repr

/-- The fields of the ERT header (05 R152). -/
structure ErtHdr where
  ver : BitVec 4
  op : BitVec 4
  tc : BitVec 8
  path : BitVec 6
  flags : BitVec 8
  poison : Bool
  psn : BitVec 32
  msgId : BitVec 24
  dstQpn : BitVec 17
  offsetLen : BitVec 48
  window : BitVec 32
  imm : BitVec 32
  stamp : BitVec 32
  deriving DecidableEq, Repr

/-- An ERT packet as a port hands it on (05 R150, R151): logical port, source address, UDP destination
port, whether the UDP checksum is good, whether it is marked CE, header and payload. -/
structure ErtPkt where
  lport : Nat
  src : BitVec 128
  dport : BitVec 16
  csumOk : Bool
  ce : Bool
  hdr : ErtHdr
  payload : List Byte
  deriving DecidableEq, Repr

/-- The request and response kinds of the RoCEv2 RC subset (05 R182). -/
inductive RoceKind where
  | send (last imm : Bool)
  | write (first last imm : Bool)
  | readReq
  | readResp (last : Bool)
  | fetchAdd
  | cmpSwap
  | atomicAck
  | ack
  | nakSequence
  | nakAccess (syndrome : BitVec 8)
  | nakInvalid (syndrome : BitVec 8)
  | rnrNak (timer : BitVec 5)
  | other
  deriving DecidableEq, Repr

/-- A RoCEv2 packet (05 R182): BTH fields and the extended headers its kind carries. -/
structure RocePkt where
  lport : Nat
  src : BitVec 128
  dscp : BitVec 6
  icrcOk : Bool
  ce : Bool
  kind : RoceKind
  psn : BitVec 24
  dstQp : BitVec 24
  va : BitVec 64
  rkey : BitVec 32
  dmaLen : BitVec 32
  imm : BitVec 32
  swapAdd : BitVec 64
  compare : BitVec 64
  payload : List Byte
  deriving DecidableEq, Repr

/-- Why a received frame is discarded before classification (11 R321-R323, 06 R203). -/
inductive FrameFault where
  | fcsOrSize
  | vlan
  | macOrIp
  | pausedFrame
  | bufferFull (tc : Nat)
  deriving DecidableEq, Repr

/-- Transport of an MCTP message (16 R435). -/
inductive Mctp where
  | vdm
  | i3c
  deriving DecidableEq, Repr

/-- A fault event as a source reports it (14 R389, R390): source, class (1 CE, 2 UC, 3 FT), DETAIL and
UNIT, the context and slice affected where there is one, whether the condition is still present
afterwards, the reporting unit's cycle stamp, and whether two warm re-inits already began within the
last 60 s. -/
structure FaultEv where
  source : Nat
  cls : Nat
  detail : Nat
  unit : Nat
  ctx : Option Nat
  slice : Option Nat
  causeActive : Bool
  unitStamp : BitVec 32
  twoRecent : Bool
  deriving DecidableEq, Repr

/-- What ends or interrupts a host link (10 R315). -/
inductive LinkResetKind where
  | perst
  | hotReset
  | linkDisable
  | flr
  deriving DecidableEq, Repr

/-- What a configuration write sets (10 R295, R300, R314; 18 R467). -/
inductive CfgAccess where
  | read (offset : Nat)
  | fnMask (masked : Bool)
  | cplTimeout (disabled : Bool) (range : Nat)
  | atomicEnable (on : Bool)
  | bar2Size (log2GiB : Nat)
  | maxPayload (bytes : Nat)
  | maxRead (bytes : Nat)
  | hdmBase (base : Nat)
  | other (offset : Nat)
  deriving DecidableEq, Repr

/-- A BAR 2 request (10 R300-R302): link, requester ID and BAR offset. -/
structure Bar2Req where
  link : Nat
  rid : BitVec 16
  tag : Nat
  offset : Nat
  deriving DecidableEq, Repr

/-- The atomics a host may send to BAR 2 (10 R295). -/
inductive HostAtomic where
  | fetchAdd (bytes : Nat)
  | swap (bytes : Nat)
  | cas (bytes : Nat)
  deriving DecidableEq, Repr

/-- A CXL.cache answer of the host (10 R313). -/
inductive CxlRsp where
  | shared (data : List Byte)
  | owned (data : List Byte)
  | globallyObservable
  | failed
  deriving DecidableEq, Repr

/-- A host-to-device snoop (10 R313). -/
inductive SnoopKind where
  | data
  | invalidate
  | current
  deriving DecidableEq, Repr

/-- A native DATA block as the sub-port's receiver sees it (11 R325, R328): whether a codeword or the
CRC failed, its SEQ, its ACK_SEQ where valid, and the frames that end in it. -/
structure NativeBlk where
  lport : Nat
  bad : Bool
  seq : BitVec 8
  ack : Option (BitVec 8)
  frames : List (List Byte)
  deriving DecidableEq, Repr

/-- The commands of the block. Each constructor is a row of spec/opcode_table.json; its docstring names
the row and the rule the row cites. -/
inductive Instr where
  /-- SSU_SQ_DB (R70). -/
  | ssuSqDb (w : DbWrite)
  /-- SSU_CQ_DB (R68). -/
  | ssuCqDb (w : DbWrite)
  /-- SSU_CQ_NOTICE_ACK (R69). -/
  | ssuCqNoticeAck (w : DbWrite)
  /-- SSU_PUSH (R71). -/
  | ssuPush (w : PushWrite)
  /-- DESCRIPTOR_FETCH (R72): the ring read of an SQ's slot FI returns. -/
  | descriptorFetch (sq : Nat) (r : RingRead)
  /-- ROW_REREAD (R72): re-read `k` (1-8) of the mismatching slot returns. -/
  | rowReread (sq : Nat) (k : Nat) (r : RingRead)
  /-- NOP (R79): the descriptor at index `idx` of the SQ starts. -/
  | nop (sq idx : Nat)
  /-- COPY (R93). -/
  | copy (sq idx : Nat)
  /-- FILL (R79). -/
  | fill (sq idx : Nat)
  /-- CONVERT (R229). -/
  | convert (sq idx : Nat)
  /-- WRITE_REMOTE (R155). -/
  | writeRemote (sq idx : Nat)
  /-- READ_REMOTE (R155). -/
  | readRemote (sq idx : Nat)
  /-- SEND (R163). -/
  | send (sq idx : Nat)
  /-- ATOMIC_FADD (R174). -/
  | atomicFadd (sq idx : Nat)
  /-- ATOMIC_CAS (R174). -/
  | atomicCas (sq idx : Nat)
  /-- SKEIN (R211): with the block list and the block map as read, or none where a read failed. -/
  | skein (sq idx : Nat) (list map : Option (List Word))
  /-- COLLECTIVE (R261). -/
  | collective (sq idx : Nat)
  /-- MARKER_SIGNAL (R89). -/
  | markerSignal (sq idx : Nat)
  /-- MARKER_WAIT (R88). -/
  | markerWait (sq idx : Nat)
  /-- TRIGGER_ARM (R97). -/
  | triggerArm (sq idx : Nat)
  /-- INVALIDATE (R127). -/
  | invalidate (sq idx : Nat)
  /-- INVALIDATE_DRAINED (R128). -/
  | invalidateDrained (sq idx : Nat)
  /-- TRIGGER_FIRE (R98): the armed descriptor of the arm at `idx` runs. -/
  | triggerFire (sq idx : Nat)
  /-- OPERATION_COMPLETE (R96). -/
  | operationComplete (sq idx : Nat)
  /-- CQ_FULL_TIMEOUT (R66). -/
  | cqFullTimeout (cq : Nat)
  /-- CQ_DRAIN_DISCARD (R66). -/
  | cqDrainDiscard (cq : Nat)
  /-- CQ_WRITE_RETRY (R477). -/
  | cqWriteRetry (cq : Nat) (refused : Bool)
  /-- QUEUE_FREE (R76). -/
  | queueFree (sq : Nat)
  /-- WALK_DONE (R110): outstanding walk `w` returns. -/
  | walkDone (w : Nat) (r : WalkRead)
  /-- XLT_FRING_DB (R136). -/
  | xltFringDb (w : RegWrite)
  /-- XLT_FRING_CFG (R134). -/
  | xltFringCfg (w : RegWrite)
  /-- FAULT_RESOLVE_RETRY (R137): with the entry the repeated walk reads. -/
  | faultResolveRetry (w : RegWrite) (r : WalkRead)
  /-- FAULT_RESOLVE_FAIL (R137). -/
  | faultResolveFail (w : RegWrite)
  /-- FAULT_TIMEOUT (R138): the timer of a pending-fault entry expires. -/
  | faultTimeout (entry : Nat)
  /-- CONTEXT_FREE (R32). -/
  | contextFree (ctx : Nat)
  /-- CTX_DRAIN_TIMEOUT (R36). -/
  | ctxDrainTimeout (ctx : Nat)
  /-- MO_RETIRED (R43). -/
  | moRetired (index : Nat)
  /-- WINDOW_FREED (R47). -/
  | windowFreed (index : Nat)
  /-- FIRMWARE_ERROR_BINDING (R60): Rumel serves its oldest pending job. -/
  | firmwareErrorBinding
  /-- WRITE (R159). -/
  | write (p : ErtPkt)
  /-- RX_SEND (R163). -/
  | rxSend (p : ErtPkt)
  /-- READ_REQ (R165). -/
  | readReq (p : ErtPkt)
  /-- READ_RESP (R160). -/
  | readResp (p : ErtPkt)
  /-- ATOMIC (R174). -/
  | atomic (p : ErtPkt)
  /-- ATOMIC_RESP (R171). -/
  | atomicResp (p : ErtPkt)
  /-- ACK (R167). -/
  | ack (p : ErtPkt)
  /-- NAK (R170). -/
  | nak (p : ErtPkt)
  /-- GRANT (R192). -/
  | grant (p : ErtPkt)
  /-- RESUME (R180). -/
  | resume (p : ErtPkt)
  /-- SKEIN_DATA (R218). -/
  | skeinData (p : ErtPkt)
  /-- PURL_DATA (R275). -/
  | purlData (p : ErtPkt)
  /-- PURL_RESULT (R275). -/
  | purlResult (p : ErtPkt)
  /-- HELLO (R257). -/
  | hello (p : ErtPkt)
  /-- CREDIT (R277). -/
  | credit (p : ErtPkt)
  /-- PURL_RESTART (R283). -/
  | purlRestart (p : ErtPkt)
  /-- PURL_ABORT (R285). -/
  | purlAbort (p : ErtPkt)
  /-- ROCE_PACKET (R182). -/
  | rocePacket (p : RocePkt)
  /-- CNP (R205). -/
  | cnp (p : RocePkt)
  /-- CM_DATAGRAM (R383). -/
  | cmDatagram (lport : Nat) (src : BitVec 128) (data : List Byte)
  /-- RX_FRAME_DISCARD (R323). -/
  | rxFrameDiscard (lport : Nat) (why : FrameFault)
  /-- PFC_FRAME (R206). -/
  | pfcFrame (port : Nat) (prio : Nat) (pause : Bool)
  /-- DELIVER (R162). -/
  | deliver (qpn : Nat)
  /-- ACK_TIMER (R166). -/
  | ackTimer (qpn : Nat)
  /-- TINK (R168). -/
  | tink (qpn : Nat) (psn : BitVec 32)
  /-- NO_PROGRESS_TIMEOUT (R168). -/
  | noProgressTimeout (qpn : Nat)
  /-- RX_STALLED (R160). -/
  | rxStalled (tracker : Nat)
  /-- SICK_HOLD_EXPIRY (R169). -/
  | sickHoldExpiry (qpn path : Nat)
  /-- RETRY_DELAY_EXPIRY (R170). -/
  | retryDelayExpiry (qpn : Nat) (psn : BitVec 32)
  /-- PAGE_HOLD_TIMEOUT (R173). -/
  | pageHoldTimeout (qpn : Nat) (psn : BitVec 32)
  /-- GRANT_RESEND (R196). -/
  | grantResend (tracker : Nat)
  /-- GRANT_RECLAIM (R196). -/
  | grantReclaim (tracker : Nat)
  /-- GRANT_ENGINE (R193): with the bytes by which the pacing bucket, and each slice's guarantee
  bucket, refill at this event. -/
  | grantEngine (refill : Nat) (guarRefill : List (Nat × Nat))
  /-- DCQCN_ALPHA_TIMER (R205). -/
  | dcqcnAlphaTimer (qpn : Nat)
  /-- DCQCN_INCREASE_TIMER (R205): by the 300 µs timer, or by the byte counter. -/
  | dcqcnIncreaseTimer (qpn : Nat) (byTimer : Bool)
  /-- ROCE_ACK_TIMEOUT (R182). -/
  | roceAckTimeout (qpn : Nat)
  /-- QP_DRAIN_TIMEOUT (R144). -/
  | qpDrainTimeout (qpn : Nat)
  /-- QP_FREED (R144). -/
  | qpFreed (qpn : Nat)
  /-- LAYER_OPEN (R214). -/
  | layerOpen (sq idx : Nat)
  /-- HELLO_TIMER (R257). -/
  | helloTimer (group : Nat)
  /-- FORMATION_TIMEOUT (R258). -/
  | formationTimeout (group : Nat)
  /-- PROGRESS_TIMEOUT (R286). -/
  | progressTimeout (group seq : Nat)
  /-- SLOT_ASSIGN (R277). -/
  | slotAssign (group : Nat)
  /-- GROUP_FREE (R258). -/
  | groupFree (group : Nat)
  /-- RSP_DATA (R339): STATUS and data for Tsucen's request TXN on a module. -/
  | rspData (module txn status : Nat) (data : List Byte)
  /-- RSP_ACK (R339). -/
  | rspAck (module txn status : Nat)
  /-- DIRECT_LD (R122). -/
  | directLd (module txn : Nat) (atag : BitVec 24) (cva : BitVec 56) (len : Nat)
  /-- DIRECT_ST (R308). -/
  | directSt (module : Nat) (atag : BitVec 24) (cva : BitVec 56) (data : List Byte)
  /-- MARKER_SIG (R339). -/
  | markerSig (module txn : Nat) (atag : BitVec 24) (handle : BitVec 32) (offset : BitVec 24) (value : Word)
  /-- BAD_FLIT (R343). -/
  | badFlit (module : Nat)
  /-- FLIT_NAK (R343). -/
  | flitNak (module : Nat) (ackFseq : BitVec 8)
  /-- FLIT_ACK_TIMEOUT (R343). -/
  | flitAckTimeout (module : Nat)
  /-- MODULE_RETRAIN_TIMEOUT (R346). -/
  | moduleRetrainTimeout (module : Nat)
  /-- TF_ACK (R124). -/
  | tfAck (port : Nat) (updSeq : BitVec 8)
  /-- TF_VIOLATION (R125). -/
  | tfViolation (port : Nat) (atag : BitVec 24) (dpa : BitVec 44)
  /-- SIDEBAND_HELLO (R345). -/
  | sidebandHello (module : Nat) (kind version : BitVec 8)
  /-- TELEMETRY (R461): the 64-bit payload. -/
  | telemetry (port : Nat) (payload : Word)
  /-- OC_ALERT (R464). -/
  | ocAlert (port : Nat) (row : BitVec 8) (within1ms : Bool)
  /-- VIN_OVERCURRENT (R464). -/
  | vinOvercurrent (within1ms : Bool)
  /-- GOVERNOR_LOOP (R463): with Tsucen's own power samples of the last 10 ms in mW and VIN in mV. -/
  | governorLoop (ownMw : List Nat) (vinMv : Nat)
  /-- TELEMETRY_STALE (R461): after 3 ms, or after 30 ms. -/
  | telemetryStale (port : Nat) (after30ms : Bool)
  /-- GOV_FALLBACK_BUDGET (R400). -/
  | govFallbackBudget
  /-- SENSOR_THRESHOLD (R465): a sensor and its reading in 0.25 °C. -/
  | sensorThreshold (sensor reading : Nat)
  /-- NATIVE_DATA_BLOCK (R328). -/
  | nativeDataBlock (b : NativeBlk)
  /-- BLOCK_NAK (R328). -/
  | blockNak (lport : Nat) (argSeq : BitVec 8)
  /-- BLOCK_ACK_TIMEOUT (R328). -/
  | blockAckTimeout (lport : Nat)
  /-- WIDTH_REQ (R330). -/
  | widthReq (lport : Nat) (argSeq : BitVec 8) (laneMask : BitVec 8)
  /-- WIDTH_ACK (R330). -/
  | widthAck (lport : Nat) (argSeq : BitVec 8) (laneMask : BitVec 8)
  /-- TS_EQ (R329): the lane, the peer's tap requests and statuses, its RX_READY, and whether this
  side's receiver on the lane is now equalised. -/
  | tsEq (lport lane : Nat) (eqReq eqStatus : BitVec 8) (rxReady localReady : Bool)
  /-- TS_ALIGN (R329): the peer's LANE_MASK and WIDTH_OFFER. -/
  | tsAlign (lport : Nat) (laneMask : BitVec 8) (widthOffer : Nat)
  /-- LANE_FAIL (R330). -/
  | laneFail (lport lane : Nat)
  /-- TRAINING_RETRY (R329). -/
  | trainingRetry (lport : Nat)
  /-- LANE_RETRAIN (R332): the retrain of a lane ends, and whether it passed. -/
  | laneRetrain (lport lane : Nat) (passed : Bool)
  /-- IEEE_LINK_UP (R331): the width the partner accepted. -/
  | ieeeLinkUp (lport width : Nat)
  /-- SUBPORT_DOWN (R402). -/
  | subportDown (lport : Nat)
  /-- SUBPORT_UP (R402). -/
  | subportUp (lport : Nat)
  /-- BAR2_READ (R301). -/
  | bar2Read (r : Bar2Req) (len : Nat)
  /-- BAR2_WRITE (R302). -/
  | bar2Write (r : Bar2Req) (data : List Byte) (poisoned : Bool)
  /-- BAR2_ATOMIC (R302). -/
  | bar2Atomic (r : Bar2Req) (op : HostAtomic) (a b : BitVec 128)
  /-- CXL_MEM_READ (R311). -/
  | cxlMemRead (link tag : Nat) (hpa : Nat) (exclusive : Bool)
  /-- CXL_MEM_WRITE (R311). -/
  | cxlMemWrite (link tag : Nat) (hpa : Nat) (data : List Byte)
  /-- HOST_SNOOP (R313). -/
  | hostSnoop (link tag : Nat) (line : Nat) (kind : SnoopKind)
  /-- HOST_READ_COMPLETION (R304). -/
  | hostReadCompletion (link tag : Nat) (r : MemRead)
  /-- HOST_READ_TIMEOUT (R304). -/
  | hostReadTimeout (link tag : Nat)
  /-- LINK_RESET (R315). -/
  | linkReset (link : Nat) (kind : LinkResetKind)
  /-- LINK_LOSS_TIMEOUT (R315). -/
  | linkLossTimeout (link : Nat)
  /-- POWER_STATE_CHANGE (R316). -/
  | powerStateChange (link : Nat) (d3hot : Bool)
  /-- PERST_DEASSERT (R455). -/
  | perstDeassert
  /-- FAULT_EVENT (R396). -/
  | faultEvent (e : FaultEv)
  /-- ESCALATION_TIMER (R396). -/
  | escalationTimer (source : Nat) (twoRecent : Bool)
  /-- UNIT_RESET_DONE (R398). -/
  | unitResetDone (source unit : Nat)
  /-- SWATCH_DONE (R398). -/
  | swatchDone (source unit : Nat) (passed : Bool)
  /-- FC_STATUS (R392). -/
  | fcStatus (w : RegWrite)
  /-- REINIT_QUIESCE (R408). -/
  | reinitQuiesce
  /-- REINIT_RESET (R408): every sensor is 10 °C below the trip threshold, and REFCLK is present. -/
  | reinitReset (sensorsCool refclk : Bool)
  /-- REINIT_VERIFY (R433): the two copies of the image store as read. -/
  | reinitVerify (copy0 copy1 : List Byte)
  /-- REINIT_RESTART (R408): stash lines (offset / 256) whose check word or whose mirror's fails, and
  the units whose swatch fails. -/
  | reinitRestart (badLines badMirror : List Nat) (swatchFail : List (Nat × Nat))
  /-- REINIT_RESUME (R409). -/
  | reinitResume
  /-- REFCLK_ABSENT_TIMEOUT (R406). -/
  | refclkAbsentTimeout
  /-- SCRUB_LINE (R421): the half, and what the read of the next line found: 0 good, 1 corrected,
  2 uncorrectable. -/
  | scrubLine (half : Nat) (found : Nat)
  /-- WAY_DISABLE (R422). -/
  | wayDisable (half way : Nat)
  /-- SC_CLEAN (R424). -/
  | scClean (w : RegWrite)
  /-- SC_INVALIDATE (R424). -/
  | scInvalidate (w : RegWrite)
  /-- SC_CLEAN_INVALIDATE (R424). -/
  | scCleanInvalidate (w : RegWrite)
  /-- SC_MAINT_COMPLETE (R424). -/
  | scMaintComplete
  /-- SC_MAINT_ADDR (R469). -/
  | scMaintAddr (w : RegWrite)
  /-- NET_PORT_CFG (R319). -/
  | netPortCfg (n : Nat) (w : RegWrite)
  /-- NET_ERT_UDP_PORT (R151). -/
  | netErtUdpPort (w : RegWrite)
  /-- NET_TRK_RSV (R200). -/
  | netTrkRsv (w : RegWrite)
  /-- NET_PFC_CFG (R206). -/
  | netPfcCfg (w : RegWrite)
  /-- DL_ROUTE (R335). -/
  | dlRoute (w : RegWrite)
  /-- REGISTER_WRITE (R467): to BAR 0 offset `off`. -/
  | registerWrite (off : Nat) (w : RegWrite)
  /-- DEV_INFO (R381). -/
  | devInfo (mb : Mbox)
  /-- DEV_PORT_ADDR (R381). -/
  | devPortAddr (mb : Mbox)
  /-- SLICE_CREATE (R350). -/
  | sliceCreate (mb : Mbox)
  /-- SLICE_DESTROY (R359). -/
  | sliceDestroy (mb : Mbox)
  /-- SLICE_SET_QUOTA (R354). -/
  | sliceSetQuota (mb : Mbox)
  /-- SLICE_SET_RIGHTS (R379). -/
  | sliceSetRights (mb : Mbox)
  /-- SLICE_QUERY (R381). -/
  | sliceQuery (mb : Mbox)
  /-- SLICE_FREE (R357). -/
  | sliceFree (slice : Nat)
  /-- SLICE_DRAIN_TIMEOUT (R357). -/
  | sliceDrainTimeout (slice : Nat)
  /-- CTX_CREATE (R32). -/
  | ctxCreate (mb : Mbox)
  /-- CTX_SET_PANEL (R107). -/
  | ctxSetPanel (mb : Mbox)
  /-- CTX_QUERY (R381). -/
  | ctxQuery (mb : Mbox)
  /-- CTX_DESTROY (R36). -/
  | ctxDestroy (mb : Mbox)
  /-- CTX_INVALIDATE (R130). -/
  | ctxInvalidate (mb : Mbox)
  /-- CTX_LOSE (R381). -/
  | ctxLose (mb : Mbox)
  /-- QUEUE_CREATE (R61). -/
  | queueCreate (mb : Mbox)
  /-- QUEUE_DESTROY (R77). -/
  | queueDestroy (mb : Mbox)
  /-- QUEUE_HOLD (R76). -/
  | queueHold (mb : Mbox)
  /-- QUEUE_RESUME (R76). -/
  | queueResume (mb : Mbox)
  /-- QUEUE_QP_CREATE (R142). -/
  | queueQpCreate (mb : Mbox)
  /-- QUEUE_QP_INIT (R143). -/
  | queueQpInit (mb : Mbox)
  /-- QUEUE_QP_CONNECT (R146). -/
  | queueQpConnect (mb : Mbox)
  /-- QUEUE_QP_HOLD (R144). -/
  | queueQpHold (mb : Mbox)
  /-- QUEUE_QP_RESUME (R144). -/
  | queueQpResume (mb : Mbox)
  /-- QUEUE_QP_DESTROY (R144). -/
  | queueQpDestroy (mb : Mbox)
  /-- QUEUE_QP_RESET (R144). -/
  | queueQpReset (mb : Mbox)
  /-- QUEUE_QP_QUERY (R382). -/
  | queueQpQuery (mb : Mbox)
  /-- QUEUE_CM_SEND (R383). -/
  | queueCmSend (mb : Mbox)
  /-- QUEUE_CM_RECV (R383). -/
  | queueCmRecv (mb : Mbox)
  /-- MEM_REGISTER (R40). -/
  | memRegister (mb : Mbox)
  /-- MEM_FREE (R42). -/
  | memFree (mb : Mbox)
  /-- MEM_QUERY (R384). -/
  | memQuery (mb : Mbox)
  /-- WIN_REGISTER (R45). -/
  | winRegister (mb : Mbox)
  /-- WIN_REVOKE (R47). -/
  | winRevoke (mb : Mbox)
  /-- MARKER_RESET (R54). -/
  | markerReset (mb : Mbox)
  /-- MARKER_EXPORT (R56). -/
  | markerExport (mb : Mbox)
  /-- MARKER_IMPORT (R56). -/
  | markerImport (mb : Mbox)
  /-- MARKER_BIND (R59). -/
  | markerBind (mb : Mbox)
  /-- MARKER_UNBIND (R59). -/
  | markerUnbind (mb : Mbox)
  /-- GROUP_CREATE (R256): with the member list as read, or none where the read failed. -/
  | groupCreate (mb : Mbox) (members : Option (List Word))
  /-- GROUP_DESTROY (R258). -/
  | groupDestroy (mb : Mbox)
  /-- GROUP_QUERY (R384). -/
  | groupQuery (mb : Mbox)
  /-- SKEIN_QUERY (R386). -/
  | skeinQuery (mb : Mbox)
  /-- GOV_QUERY (R448). -/
  | govQuery (mb : Mbox)
  /-- GOV_SET_ENVELOPE (R462). -/
  | govSetEnvelope (mb : Mbox)
  /-- FAULT_QUERY (R386). -/
  | faultQuery (mb : Mbox)
  /-- FAULT_RESTORE (R398). -/
  | faultRestore (mb : Mbox)
  /-- FAULT_INJECT (R412): whether two warm re-inits already began within the last 60 s. -/
  | faultInject (mb : Mbox) (twoRecent : Bool)
  /-- SEC_BUNDLE_LOAD (R439): with the bundle's header and device entries as read, or none where the
  read failed. -/
  | secBundleLoad (mb : Mbox) (head : Option (List Byte))
  /-- BUNDLE_LOAD_DONE (R443): the load, with its ciphertext segments and tags as read (none where a
  read failed), and whether every write was acknowledged. -/
  | bundleLoadDone (load : Nat) (segs : Option (List (List Byte × BitVec 128))) (written : Bool)
  /-- SEC_MEASURE (R386). -/
  | secMeasure (mb : Mbox)
  /-- DBG_COUNTERS (R473). -/
  | dbgCounters (mb : Mbox)
  /-- DBG_TRACE (R411). -/
  | dbgTrace (mb : Mbox)
  /-- DBG_STATE (R386). -/
  | dbgState (mb : Mbox)
  /-- GET_VERSION (R435). -/
  | getVersion (t : Mctp)
  /-- GET_CAPABILITIES (R435). -/
  | getCapabilities (t : Mctp)
  /-- NEGOTIATE_ALGORITHMS (R435): whether the requester offers ECDSA P-384 with SHA-384. -/
  | negotiateAlgorithms (t : Mctp) (p384Sha384 : Bool)
  /-- GET_DIGESTS (R435). -/
  | getDigests (t : Mctp)
  /-- GET_CERTIFICATE (R435). -/
  | getCertificate (t : Mctp) (slot offset len : Nat)
  /-- CHALLENGE (R435). -/
  | challenge (t : Mctp) (slot : Nat) (nonce : BitVec 256)
  /-- GET_MEASUREMENTS (R436): block index (0xFF all), whether signed, and the nonce. -/
  | getMeasurements (t : Mctp) (index : Nat) (signed : Bool) (nonce : BitVec 256)
  /-- DBG_NONCE (R445). -/
  | dbgNonce (t : Mctp)
  /-- DBG_UNLOCK (R445): LEVEL, public key and signature, and whether the nonce's 60 s have passed. -/
  | dbgUnlock (t : Mctp) (level : BitVec 8) (pubkey : List Byte) (sig : List Byte) (expired : Bool)
  /-- FUSE_RECHECK (R427). -/
  | fuseRecheck (good : Bool)
  /-- FOUNDATION_RESTART (R434). -/
  | foundationRestart
  /-- COLD_RESET (R451). -/
  | coldReset
  /-- VIN_LOSS (R451). -/
  | vinLoss
  /-- RAILS_IN_TOLERANCE (R450): rail order group 1-5, and the level of FLEET. -/
  | railsInTolerance (group : Nat) (fleetBall : Bool)
  /-- REFCLK_MEASURED (R17). -/
  | refclkMeasured (spreadSpectrum : Bool)
  /-- FOUNDATION_READY (R429). -/
  | foundationReady (fusesOk romOk rngOk : Bool)
  /-- BAR4_IMAGE_WRITE (R458). -/
  | bar4ImageWrite (offset : Nat) (data : List Byte)
  /-- GO (R458). -/
  | go (length : Nat)
  /-- ABORT (R458). -/
  | abort
  /-- IMG_WRITE (R459). -/
  | imgWrite (offset : Nat) (data : List Byte)
  /-- IMG_GO (R459). -/
  | imgGo (length : Nat)
  /-- IMG_STATUS (R459). -/
  | imgStatus
  /-- IMG_ABORT (R459). -/
  | imgAbort
  /-- BOOT_REQ_TIMER (R460). -/
  | bootReqTimer
  /-- BOOT_DATA (R460): OFFSET, TOTAL and the block's bytes. -/
  | bootData (offset total : Nat) (data : List Byte)
  /-- CLAIM_TIMEOUT (R457). -/
  | claimTimeout
  /-- IMAGE_VERIFIED (R432): whether an SVN raise, where there is one, programs its fuses. -/
  | imageVerified (fuseOk : Bool)
  /-- HOOKS_STARTED (R455): installed HBM in GiB, as Rumel finds it. -/
  | hooksStarted (hbmGib : Nat)
  /-- CAST_ON_READY (R455): what CONFIG gives: DL_ROUTE, stash base (GiB), ENVELOPE in W; and the units
  whose cast-on swatch fails. -/
  | castOnReady (route : Word) (stashGib : Nat) (envelopeW : Nat) (swatchFail : List (Nat × Nat))
  /-- MB_DB (R373). -/
  | mbDb (mb : Mbox) (link : Nat) (aligned8 : Bool) (value : Word)
  /-- CONFIGURATION_REQUEST (R314). -/
  | configurationRequest (link : Nat) (a : CfgAccess)
  /-- CXL_CACHE_RESPONSE (R313). -/
  | cxlCacheResponse (link line : Nat) (r : CxlRsp)
  /-- BACK_INVALIDATE_RESPONSE (R311): with the modified data where there is some. -/
  | backInvalidateResponse (link line : Nat) (data : Option (List Byte))
  /-- IDLE_FLIT (R337): ACK_FSEQ where valid, and the credits returned. -/
  | idleFlit (module : Nat) (ack : Option (BitVec 8)) (credReq credRsp credData : Nat)
  /-- IDLE_BLOCK (R328). -/
  | idleBlock (lport : Nat) (ack : Option (BitVec 8))
  /-- DATA_LINK_LAYER_LOSS (R315). -/
  | dataLinkLayerLoss (link : Nat)
  /-- DATA_LINK_LAYER_UP (R296): whether CXL.io and CXL.mem, and CXL.cache, were accepted, flit mode,
  rate and width. -/
  | dataLinkLayerUp (link : Nat) (cxlAccepted cacheAccepted flit : Bool) (rate width : Nat)
  /-- MODULE_LINK_LOSS (R346): loss of link, or lane failures beyond repair. -/
  | moduleLinkLoss (module : Nat) (beyondRepair : Bool)
  /-- EGRESS_PACKET_SELECT (R188): logical port, with the control tokens that have refilled. -/
  | egressPacketSelect (lport refill : Nat)
  /-- RNR_TIMER_EXPIRY (R182). -/
  | rnrTimerExpiry (qpn : Nat)
  deriving DecidableEq, Repr

end Sys2Proof
end

