-- ==== Sys2Proof/Config.lean ====
section
/-! DEFINITION. What an implementation or its surroundings fix and the spec does not state: values and
functions without a body. Nothing proved of the model can depend on what they are. -/

namespace Sys2Proof

/-- The 16 bytes memory holds where a marker has not been written by the marker unit yet (R48, R54): the
spec gives no value. The argument is the marker's key. -/
opaque Config.memMarker : Nat → BitVec 128

/-- The 64 bytes memory holds at a skein status record that was never opened (R219, R220). -/
opaque Config.memSkeinRecord : Nat → BitVec 512

/-- Foundation's true random source (R385, R445): the n-th draw. -/
opaque Config.random : Nat → BitVec 256

/-- SHA-384, a published standard that the spec does not restate (R432). -/
opaque Config.sha384 : List Byte → BitVec 384

/-- ECDSA P-384 verification with SHA-384: public key (96 bytes), message, signature (96 bytes) (R431, R445). -/
opaque Config.ecdsaOk : List Byte → List Byte → List Byte → Bool

/-- An ECDSA P-384 signature by the device identity key (R428, R435). -/
opaque Config.identitySign : List Byte → List Byte

/-- DEVICE_FPR, the first 16 bytes of the SHA-384 of the identity public key (R428). -/
opaque Config.deviceFpr : BitVec 128

/-- Unwrapping of a bundle key: EPH_PUB (96 bytes), BUNDLE_ID, WRAPPED (40 bytes); none where the AES-KW
integrity check fails (R438, R439). -/
opaque Config.unwrapKey : List Byte → Word → List Byte → Option (BitVec 256)

/-- AES-256-GCM decryption: key, IV (12 bytes), AAD (16 bytes), ciphertext, tag; none on a tag mismatch (R438). -/
opaque Config.gcmOpen : BitVec 256 → List Byte → List Byte → List Byte → BitVec 128 → Option (List Byte)

/-- The certificate chain of slot 0 (R435). -/
opaque Config.certChain : List Byte

/-- The digest of Foundation's ROM, measurement block 1 (R436). -/
opaque Config.romDigest : BitVec 384

/-- The bytes of all fuses except ID_KEY that measurement block 2 covers beyond those the model holds (R436). -/
opaque Config.fuseBytes : List Byte

/-- The value SC_STASH reads before the Hooks have started (R424, reset X). -/
opaque Config.stashBaseX : BitVec 14

/-- What configuration space holds at a link and offset where the spec names no value (R293). -/
opaque Config.cfgSpace : Nat → Nat → Word

/-- The fused BASE_MAC, whose low 7 bits are 0 (R321). -/
opaque Config.baseMac : BitVec 48

/-- The bytes of a stash line as it is written back (R415): the spec gives the records' sizes and no layout. The arguments
number the write and the byte. -/
opaque Config.stashByte : Nat → Nat → BitVec 8

/-- The identification field of an IPv4 header sent (R150): the frame's bytes above it as one number. -/
opaque Config.ipIdent : Nat → BitVec 16

/-- A byte of the part of a frame that another standard lays out (RoCEv2's headers, its ICRC and its datagrams, 00_scope):
what the frame carries, as numbers, and the byte's index. -/
opaque Config.stdByte : List Nat → Nat → Byte

/-- The body of a TS_EQ block after its control word, scrambled PRBS31 whose start is open (R329): the n-th one drawn. -/
opaque Config.eqBody : Nat → List Byte

/-- The body of an SPDM response beyond the fields the spec gives (R435): request code and arguments. -/
opaque Config.spdmBody : Nat → List Byte → List Byte

/-- UNIT_STAMP of a trace record that the block itself causes (R411): the n-th one drawn. -/
opaque Config.unitStamp : Nat → BitVec 32

/-- EQ_REQ and EQ_STATUS of a TS_EQ block (R327, R329): the n-th one drawn. -/
opaque Config.eqFields : Nat → BitVec 16

/-- The die kind that Tsucen names in its own HELLO (R345): the spec gives no code. -/
opaque Config.ownKind : BitVec 8

/-- A response word for which the spec states no value (R381): the n-th one drawn. -/
opaque Config.freeWord : Nat → Word

end Sys2Proof
end

