-- ==== Sys2Proof/Machine/Bits.lean ====
section
/-! DEFINITION. Bit fields, byte order and rounding helpers (00_scope R2-R4). -/

namespace Sys2Proof.Machine

/-- Bits [hi:lo] of a number (R2). -/
def bits (w hi lo : Nat) : Nat := (w >>> lo) % 2 ^ (hi + 1 - lo)

/-- Bits [hi:lo] of a word. -/
def fld {n : Nat} (w : BitVec n) (hi lo : Nat) : Nat := bits w.toNat hi lo

/-- A number with bits [hi:lo] replaced. -/
def setBits (w hi lo v : Nat) : Nat :=
  w - ((bits w hi lo) <<< lo) + ((v % 2 ^ (hi + 1 - lo)) <<< lo)

/-- A register with bits [hi:lo] replaced. -/
def setFld {n : Nat} (w : BitVec n) (hi lo v : Nat) : BitVec n := BitVec.ofNat n (setBits w.toNat hi lo v)

/-- A Boolean as a bit. -/
def b2n (b : Bool) : Nat := if b then 1 else 0

/-- The low `n` bytes of a number, least significant first (R3). -/
def leBytes : Nat → Nat → List Byte
  | 0, _ => []
  | n + 1, v => BitVec.ofNat 8 v :: leBytes n (v / 256)

/-- The number that bytes hold, least significant first (R3). -/
def ofLe : List Byte → Nat
  | [] => 0
  | b :: t => b.toNat + 256 * ofLe t

/-- The low `n` bytes of a number, most significant first (R4). -/
def beBytes (n v : Nat) : List Byte := (leBytes n v).reverse

/-- The number that bytes hold, most significant first (R4). -/
def ofBe (bs : List Byte) : Nat := ofLe bs.reverse

/-- Word `i` of bytes sent most significant byte first (R154). -/
def beWord (bs : List Byte) (i : Nat) : Nat := ofBe ((bs.drop (8 * i)).take 8)

/-- `k` zero bytes. -/
def zeros (k : Nat) : List Byte := List.replicate k 0

/-- `n` bytes at an offset, zeros past the end. -/
def slice (bs : List Byte) (off n : Nat) : List Byte :=
  let t := (bs.drop off).take n
  t ++ zeros (n - t.length)

/-- Division rounding up. -/
def ceilDiv (a b : Nat) : Nat := (a + b - 1) / b

/-- Round up to a multiple. -/
def roundUp (a b : Nat) : Nat := ceilDiv a b * b

/-- Two ranges share a byte. -/
def overlaps (a la b lb : Nat) : Bool := decide (0 < la) && decide (0 < lb) && decide (a < b + lb) && decide (b < a + la)

/-- A range lies inside another. -/
def inside (a la b lb : Nat) : Bool := decide (b ≤ a) && decide (a + la ≤ b + lb)

/-- Put the pieces of a byte stream in order of their offsets. -/
def insertPiece (p : Nat × List Byte) : List (Nat × List Byte) → List (Nat × List Byte)
  | [] => [p]
  | q :: t => if p.1 ≤ q.1 then p :: q :: t else q :: insertPiece p t

/-- The bytes of pieces held in order of their offsets. -/
def joinPieces (ps : List (Nat × List Byte)) : List Byte := (ps.map (·.2)).flatten

/-- Cut a range at multiples of `step` of its address, in pieces of at most `most` bytes:
(offset in the range, address, length). `fuel` bounds the number of pieces. -/
def cutRange : Nat → Nat → Nat → Nat → Nat → Nat → List (Nat × Nat × Nat)
  | 0, _, _, _, _, _ => []
  | fuel + 1, step, most, off, addr, len =>
    if len = 0 then []
    else
      let n := min len (min most (step - addr % step))
      if n = 0 then [] else (off, addr, n) :: cutRange fuel step most (off + n) (addr + n) (len - n)

/-- The pieces of a range cut at 4 KiB boundaries (R335, R304). -/
def cut4k (most addr len : Nat) : List (Nat × Nat × Nat) :=
  cutRange (len + 1) 4096 most 0 addr len

/-- One bit of a reflected 32-bit CRC. -/
def crcBit (poly c : BitVec 32) : BitVec 32 := if c.getLsbD 0 then (c >>> 1) ^^^ poly else c >>> 1

/-- One byte of a reflected 32-bit CRC. -/
def crcByte (poly c : BitVec 32) (b : Byte) : BitVec 32 :=
  (List.range 8).foldl (fun c _ => crcBit poly c) (c ^^^ b.setWidth 32)

/-- A reflected 32-bit CRC of bytes, from all ones, inverted at the end. -/
def crcOf (poly : BitVec 32) (bs : List Byte) : BitVec 32 := ~~~(bs.foldl (crcByte poly) 0xFFFFFFFF#32)

/-- CRC-32C (R417). -/
def crc32c (bs : List Byte) : BitVec 32 := crcOf 0x82F63B78#32 bs

/-- The lowest number below `n` that fails a test. -/
def lowestFree (n : Nat) (used : Nat → Bool) : Option Nat := (List.range n).find? (fun i => !used i)

/-- Whether (a - b) mod 2^24 of ring indices, as a number (R65, R70). -/
def ringDiff (a b : BitVec 24) : Nat := (a - b).toNat

end Sys2Proof.Machine
end

