-- ==== Sys2Proof/Machine/State.lean ====
section
/-! DEFINITION. The state of the block as plain data, by chapter of the spec, the reasons a step can stop,
and the state after reset. -/

namespace Sys2Proof.Machine

/-! ### Panels, contexts, objects, windows and markers (02, 04) -/

/-- Target kind of a translated range (R105). -/
inductive Target where
  | hbm
  | host
  | remote
  | aperture
  deriving DecidableEq, Repr

/-- A panel record, words P0-P3 (R104). The fields are read by the accessors of Operands.lean. -/
structure Panel where
  p0 : Word := 0
  p1 : Word := 0
  p2 : Word := 0
  p3 : Word := 0
  deriving DecidableEq, Repr

/-- A context's states (R32). -/
inductive CtxState where
  | free
  | active
  | draining
  | lost
  deriving DecidableEq, Repr

/-- A use of a panel's translation generation (R127). -/
structure TUse where
  ctx : Nat
  panel : Nat
  tgen : Nat
  deriving DecidableEq, Repr

/-- A resolved marker: the object and byte offset that name it, and the key of its record in
`State.markers` (R48). -/
structure MarkRef where
  mo : BitVec 32
  off : Nat
  key : Nat
  deriving DecidableEq, Repr

/-- An entry of a context's marker binding list: bound to the context, or to one of its QPs (R59). -/
structure Binding where
  qp : Option Nat
  mark : MarkRef
  deriving DecidableEq, Repr

/-- A context (R31, R104, R124, R127). `uses` counts the uses of generation `g` of panel `p` at key
`4 p + g`; `tagWait` lists the die ports whose acknowledgement of the last tag update is outstanding. -/
structure Ctx where
  st : CtxState := .free
  epoch : BitVec 8 := 0
  slice : Nat := 0
  panels : Tab Panel := []
  lostCause : Nat := 0
  seed : Word := 0
  resTimeout : Nat := 0
  abort : Bool := false
  bindOff : Bool := false
  doneMark : Option (MarkRef × Word) := none
  bindings : List Binding := []
  tagWait : List Nat := []
  rejecting : Bool := false
  uses : Tab Nat := []
  deriving DecidableEq, Repr

/-- States of a memory object (R41) and of a window (R47). -/
inductive ObjState where
  | free
  | valid
  | retiring
  deriving DecidableEq, Repr

/-- A memory object (R40-R44); `imported` is the original of an imported marker, and `exports` the
markers exported from the object with the handle that imported each, if any (R56); `inv` says that an `INVALIDATE` or
ctx.invalidate of kind 2 retired it (R129), and `owner` is then the slice, with its generation, that it belonged to once
its index is free (R39). -/
structure Mo where
  gen : Nat := 0
  st : ObjState := .free
  ctx : Nat := 0
  panel : Nat := 0
  base : Nat := 0
  len : Nat := 0
  rights : BitVec 6 := 0
  coherent : Bool := false
  uses : Nat := 0
  drain : Option (MarkRef × Word) := none
  imported : Option MarkRef := none
  exports : List (MarkRef × Option (BitVec 32)) := []
  inv : Bool := false
  owner : Option (Nat × BitVec 8) := none
  deriving DecidableEq, Repr

/-- A window (R45-R47). -/
structure Win where
  gen : Nat := 0
  st : ObjState := .free
  mo : BitVec 32 := 0
  off : Nat := 0
  len : Nat := 0
  rights : BitVec 4 := 0
  allowedQp : Nat := 0
  trackers : Nat := 0
  drain : Option (MarkRef × Word) := none
  deriving DecidableEq, Repr

/-- A marker record (R48); `wrote` is when the marker unit last wrote it, for the histogram of R476. -/
structure Marker where
  value : Word := 0
  code : BitVec 16 := 0
  detail : BitVec 16 := 0
  ooo : BitVec 16 := 0
  flags : BitVec 16 := 0
  wrote : Nat := 0
  deriving DecidableEq, Repr

/-- An export's cookie (R56, R385). -/
structure Cookie where
  value : Word
  mark : MarkRef
  slice : Nat
  gen : BitVec 8
  deriving DecidableEq, Repr

/-- A job of Rumel's error binding (R60): the error to write, and the markers it is due on. -/
structure BindJob where
  marks : List MarkRef
  code : BitVec 16
  detail : BitVec 16
  deriving DecidableEq, Repr

/-! ### Queues (03) -/

/-- SQ states (R76). -/
inductive SqState where
  | free
  | active
  | held
  | closed
  deriving DecidableEq, Repr

/-- Hold causes (R76). -/
inductive HeldCause where
  | none
  | doorbellAhead
  | doorbellRange
  | ringRead
  | waitFailed
  | command
  deriving DecidableEq, Repr

/-- What an SQ's fetch is doing (R72): nothing; a ring read of one or two slots is outstanding; the
re-reads are, of which `k` have returned; the address of the slot is being translated; the data showed
that a second slot belongs to the descriptor; the re-reads are due and an address of theirs is being translated. -/
inductive Fetch where
  | idle
  | reading (slots : Nat)
  | reread (slots k : Nat)
  | translating
  | needSecond
  | rereadDue (slots : Nat)
  deriving DecidableEq, Repr

/-- A submission queue (R61-R64, R76); `destroyed` says that queue.destroy closed it (R102). -/
structure Sq where
  st : SqState := .free
  cause : HeldCause := .none
  pi : BitVec 24 := 0
  fi : BitVec 24 := 0
  ri : BitVec 24 := 0
  size : Nat := 0
  ctx : Nat := 0
  locl : Nat := 0
  ringMo : BitVec 32 := 0
  ringOff : Nat := 0
  shadowMo : BitVec 32 := 0
  shadowOff : Nat := 0
  cq : Nat := 0
  lastShadow : BitVec 24 := 0
  fetch : Fetch := .idle
  flush : Bool := false
  abort : Bool := false
  destroyed : Bool := false
  deriving DecidableEq, Repr

/-- A completion record waiting for its CQ (R66, R477): the record with PHASE 0, the SQ or QP whose
completion it is, since when it waits, the context epoch and slice generation that it carries (R38), and for a receive
completion the QP and the trigger tag that is matched once the record is written (R184). -/
structure CqRec where
  image : Nat
  qp : Bool
  num : Nat
  ticks : Nat
  epoch : BitVec 8
  gen : BitVec 8
  tag : Option (Nat × BitVec 32) := none
  deriving DecidableEq, Repr

/-- A completion queue (R65-R69, R477): `writing` says that the write of the first waiting record to device memory
is outstanding. -/
structure Cq where
  active : Bool := false
  w : BitVec 24 := 0
  c : BitVec 24 := 0
  size : Nat := 0
  ctx : Nat := 0
  locl : Nat := 0
  ringMo : BitVec 32 := 0
  ringOff : Nat := 0
  vector : Nat := 0
  arm : Bool := false
  notice : Bool := false
  unwritable : Bool := false
  writing : Bool := false
  waiting : List CqRec := []
  drops : Nat := 0
  deriving DecidableEq, Repr

/-- A stored translation extent (R112): which named address (2, 3, 4 or 11 for W2, W3, W4, W11) it
belongs to, CVA, target, target address, length, the panel whose TGEN it uses, and COUNT of its entry. -/
structure Ext where
  addr : Nat
  cva : Nat
  target : Target
  base : Nat
  len : Nat
  panel : Nat
  tgen : Nat
  counted : Bool := false
  deriving DecidableEq, Repr

/-! ### Transport (05) and tension control (06) -/

/-- QP transport kinds (R143). -/
inductive QpMode where
  | ert
  | roce
  deriving DecidableEq, Repr

/-- QP states (R144). -/
inductive QpState where
  | reset
  | init
  | active
  | held
  | draining
  | error
  deriving DecidableEq, Repr

/-- What an outgoing message carries out (R155, R165, R218, R275): a work extent of an operation and
whether its completion waits on it, a response this device serves, a layer or the list or the end of a
skein, a Purl packet or control message. -/
inductive MsgOwner where
  | extent (sq idx ext : Nat)
  | responder (tracker : Nat)
  | skein (sq idx part : Nat)
  | purl (group seq : Nat)
  deriving DecidableEq, Repr

/-- One packet of an outgoing message as it was cut (R155, R216, R251): its offset in the message and its
length there in bytes of the wire stream, what OFFSET_LEN and IMM carry, payload, and whether its source was bad. -/
structure PktOut where
  off : Nat
  len : Nat
  offLen : Nat
  imm : BitVec 32 := 0
  payload : List Byte
  bad : Bool := false
  deriving DecidableEq, Repr

/-- An outgoing ERT message (R155). `resp` says that its MSG_ID is of the peer's requests; `len` is MSG_LEN,
`pkts` the packets it is cut into, `cut` how many of them were sent, `more` whether packets are still to come; `act` says that it is complete only once it
is delivered (R162); `psn0` is the first of the consecutive PSNs that it takes with its first packet, `total` how many packets
it has where not all of them are in `pkts` yet, `busyHold` the refused packets whose BUSY delay runs (R191). -/
structure Msg where
  id : BitVec 24
  resp : Bool := false
  op : BitVec 4
  tc : Nat
  window : BitVec 32 := 0
  len : Nat
  pkts : List PktOut
  imm : Option (BitVec 32) := none
  act : Bool := false
  ply : Bool := false
  granted : Nat := 0
  cut : Nat := 0
  more : Bool := false
  psn0 : Option (BitVec 32) := none
  total : Option Nat := none
  busyHold : List (BitVec 32) := []
  owner : MsgOwner
  deriving DecidableEq, Repr

/-- A sent packet that is not yet acknowledged (R168): its header and payload as first sent, its wire-stream
length and whether it went unscheduled (R190), the number of sends, the counted tinks, when and on which path it
was last sent, and whether the QP has seen an ACK of another packet since. -/
structure Flight where
  psn : BitVec 32
  msgId : BitVec 24
  resp : Bool
  hdr : ErtHdr
  payload : List Byte
  len : Nat := 0
  unsched : Bool := false
  sends : Nat := 1
  tinks : Nat := 0
  sentAt : Nat := 0
  path : Nat := 0
  otherAcked : Bool := false
  retryWait : Bool := false
  deriving DecidableEq, Repr

/-- A path of an ERT QP (R169, R199): its last 64 sends, newest first, by PSN, true where
lost; whether it is sick, and whether because its port is down (R402); its present hold in ticks and when that
ends; whether it waits for its one packet on probation, and which packet that is; its spray weight and what is
left of this round, the ACKs without ECE, and when its weight was last halved. -/
structure Path where
  sends : List (BitVec 32 × Bool) := []
  sick : Bool := false
  portDown : Bool := false
  hold : Nat := 0
  until_ : Nat := 0
  trial : Bool := false
  probation : Option (BitVec 32) := none
  weight : Nat := 8
  credit : Nat := 8
  clean : Nat := 0
  halved : Option Nat := none
  deriving DecidableEq, Repr

/-- A RoCEv2 request or response to send: the packet, the work extent that ends with it, and the PSNs it takes
(a READ request takes one for each response packet). -/
structure RoceOut where
  pkt : RocePkt
  tc : Nat
  owner : Option (Nat × Nat × Nat) := none
  span : Nat := 1
  deriving DecidableEq, Repr

/-- A RoCEv2 request taken in order at its receiver (R182): a SEND or WRITE packet whose bytes are being placed, or
a READ or atomic that waits its turn (`pkt`) or runs. `tc` is the class of its answer (R185, R187). `left` counts the answers outstanding; `msn` is the message
number that its answer reports; `post` the receive completion due; `fill` the port and bytes of its receive buffer. -/
structure RoceWork where
  psn : BitVec 24
  msn : BitVec 24 := 0
  pkt : Option RocePkt := none
  kind : RoceKind
  tc : Nat := 7
  left : Nat := 0
  len : Nat := 0
  got : List (Nat × List Byte) := []
  failed : Bool := false
  post : Option (Nat × Option (BitVec 32)) := none
  old : Word := 0
  fill : Option (Nat × Nat) := none
  deriving DecidableEq, Repr

/-- The RoCEv2 side of a QP (R182, R205): PSNs sent and expected, the message sequence, retries since the last
progress and their limits, the local ACK timeout, what waits to be sent and what is unacknowledged; the next receive
slot and the position in a message that arrives (slot and bytes so far, or window and offset), the requests in order,
the packets held for a page, the results of the last atomics; and the rate reaction: Rc and Rt as fractions of the
port rate, alpha, when a CNP was last taken and sent, the increase stages, and the bytes sent since the last increase by bytes. -/
structure RoceSt where
  sndNext : BitVec 24 := 0
  sndUna : BitVec 24 := 0
  expect : BitVec 24 := 0
  msn : BitVec 24 := 0
  retries : Nat := 0
  rnrRetries : Nat := 0
  maxRetry : Nat := 7
  maxRnr : Nat := 7
  ackTimeout : Nat := 0
  rnrWait : Bool := false
  nakSent : Bool := false
  ringNext : Nat := 0
  inSend : Option (Nat × Nat) := none
  inWrite : Option (BitVec 32 × Nat × Nat) := none
  work : List RoceWork := []
  held : List (RocePkt × Nat) := []
  atoms : List (BitVec 24 × Word) := []
  queue : List RoceOut := []
  unacked : List RoceOut := []
  rc : Rat := 1
  rt : Rat := 1
  alpha : Rat := 1
  lastCnpIn : Option Nat := none
  lastCnpOut : Option Nat := none
  stageT : Nat := 0
  stageB : Nat := 0
  bytes : Nat := 0
  deriving DecidableEq, Repr

/-- A packet whose payload is being written (R161): its tracker and that tracker's age, the range it accounts there, the writes still
outstanding, whether one failed, its header, and whether it arrived marked CE. -/
structure Placing where
  psn : BitVec 32
  tracker : Nat
  age : Nat
  off : Nat
  len : Nat
  outstanding : Nat
  failed : Bool := false
  hdr : ErtHdr
  ce : Bool
  deriving DecidableEq, Repr

/-- A complete message that waits for its delivery in MSG_ID order (R162): its opcode, its tracker where that
stays open (R160), the immediate, receive sequence, length, FAILED, ACT, and for a skein its header words,
SKEIN_INFO, the context and CVA of its status record, and the object and offset of its destination marker. -/
structure DoneMsg where
  id : BitVec 24
  op : BitVec 4
  tracker : Option Nat := none
  imm : Option (BitVec 32) := none
  rxSeq : BitVec 32 := 0
  len : Nat := 0
  failed : Bool := false
  act : Bool := false
  window : BitVec 32 := 0
  hdr : List Byte := []
  info : BitVec 32 := 0
  rec_ : Option (Nat × Nat) := none
  dmark : Option (BitVec 32 × Nat) := none
  deriving DecidableEq, Repr

/-- An entry of the NAK memory (R172): the NAK as it was sent. -/
structure NakMem where
  psn : BitVec 32
  msgId : BitVec 24
  tc : BitVec 8
  path : BitVec 6
  stamp : BitVec 32
  ce : Bool := false
  deriving DecidableEq, Repr

/-- A queue pair (R143-R180). -/
structure Qp where
  mode : QpMode := .ert
  st : QpState := .reset
  ctx : Nat := 0
  errCause : Nat := 0
  cmdHeld : Bool := false
  recovery : Bool := false
  abort : Bool := false
  needle : Option Nat := none
  -- attributes
  localPorts : List Nat := []
  npaths : Nat := 1
  sportBase : Nat := 0
  payloadMax : Nat := 1024
  ipv4 : Bool := false
  remoteAddrs : List (BitVec 128) := []
  remoteQpn : Nat := 0
  sndPsn0 : BitVec 32 := 0
  rcvPsn0 : BitVec 32 := 0
  rxMo : BitVec 32 := 0
  rxOff : Nat := 0
  rxLog2 : Nat := 6
  rxCq : Nat := 0
  sickHold : Nat := 4
  -- sending
  sndUna : BitVec 32 := 0
  nextPsn : BitVec 32 := 0
  nextMsg : BitVec 24 := 0
  rxSeq : BitVec 32 := 0
  msgs : List Msg := []
  flight : List Flight := []
  cwnd : Rat := 0
  alpha : Rat := 0
  marked : Bool := false
  lastAdjust : Option Nat := none
  lastTinkCut : Option Nat := none
  rtt : Option (Rat × Rat) := none
  paths : Tab Path := []
  nextPath : Nat := 0
  peerDelivered : BitVec 24 := 0
  -- receiving
  base : BitVec 32 := 0
  ackBase : BitVec 32 := 0
  accepted : List (BitVec 32) := []
  placed : List (BitVec 32) := []
  recent : BitVec 32 := 0
  nakMem : List NakMem := []
  held : List (ErtPkt × Nat) := []
  delivered : BitVec 24 := 0
  complete : List DoneMsg := []
  placing : List Placing := []
  sinceAck : Nat := 0
  newCount : Nat := 0
  ceCount : Nat := 0
  echo : BitVec 6 × BitVec 8 × BitVec 32 := (0, 0, 0)
  busyNaks : Nat := 0
  lastErrNak : Option Nat := none
  earlyTags : List (BitVec 32) := []
  tagTrigs : List (Nat × Nat) := []
  roce : RoceSt := {}
  deriving DecidableEq, Repr

/-- What the message of a placement tracker is placed for (R160). -/
inductive TrkUse where
  | window
  | ring
  | readResp (sq idx ext : Nat)
  | atomicResp (sq idx : Nat)
  | skein
  | purl
  | roce
  deriving DecidableEq, Repr

/-- A placement tracker (R160, R193, R200): `shared` says which part of the pool it came from, `seen`
orders trackers by age, `ranges` are the accounted ranges at or above the grant base. -/
structure Tracker where
  qpn : Nat
  msgId : BitVec 24
  op : BitVec 4
  use : TrkUse
  shared : Bool
  slice : Nat
  tc : Nat
  window : BitVec 32 := 0
  winOff : Option Nat := none
  msgLen : Option Nat := none
  accounted : Nat := 0
  failed : Bool := false
  imm : Option (BitVec 32) := none
  act : Bool := false
  ply : Bool := false
  rxSeq : BitVec 32 := 0
  req : List Byte := []
  granted : Nat := 0
  ranges : List (Nat × Nat) := []
  reclaimed : Bool := false
  ahead : Option Nat := none
  seen : Nat := 0
  executing : Bool := false
  aux : List Nat := []
  store : List (Nat × List Byte) := []
  deriving DecidableEq, Repr

/-- What a sent frame's Ethernet, IP and UDP headers hold beside their constants (R150, R187, R321, R323): the tag's VID and
PCP where one is sent, the address family, the addresses (an IPv4 address in the top 32 bits), DSCP and ECN, and the UDP ports. -/
structure NetHdr where
  tag : Option (Nat × Nat) := none
  ipv4 : Bool := false
  src : BitVec 128 := 0
  dst : BitVec 128 := 0
  dscp : Nat := 0
  ecn : Nat := 2
  sport : Nat := 0
  dport : Nat := 0
  deriving DecidableEq, Repr

/-- A frame as it is queued at a fabric port: an ERT packet, a RoCEv2 packet, a CNP, a connection-management datagram, or a
PFC frame. FrameBytes.lean lays out its bytes. -/
inductive Frame where
  | ert (net : NetHdr) (head payload : List Byte)
  | roce (net : NetHdr) (pkt : RocePkt)
  | cnp (net : NetHdr) (dstQp : Nat)
  | cm (net : NetHdr) (data : List Byte)
  | pfc (prio : Nat) (pause : Bool)
  deriving DecidableEq, Repr

/-- What an egress queue entry is (R188, R206): an ERT control packet, a RoCEv2 CNP, an ERT data packet, or another RoCEv2
packet. -/
inductive TxKind where
  | control
  | cnp
  | data
  | roce
  deriving DecidableEq, Repr

/-- A frame waiting in an egress queue (R188): its kind, class and bytes on the port. -/
structure TxEntry where
  kind : TxKind
  tc : Nat
  bytes : Nat
  frame : Frame
  deriving DecidableEq, Repr

/-- The grant engine (R193, R194): the pacing bucket, the guarantee buckets, the class round-robin's deficits and
position, each class's slice round-robin (present slice and what is left of its quantum), the slice last served as
owed, each owed slice's own class round-robin, and the number of trackers ever opened (their age). -/
structure GrantEngine where
  pace : Int := 0
  guar : Tab Int := []
  deficit : Tab Int := []
  nextTc : Nat := 0
  slices : Tab (Nat × Int) := []
  nextOwed : Nat := 0
  owedDeficit : Tab (Tab Int) := []
  owedTc : Tab Nat := []
  opened : Nat := 0
  deriving DecidableEq, Repr

/-! ### Operations: descriptors accepted by the submission unit (03), with the skein (07) and
collective (09) progress -/

/-- State of one work extent (R93-R96): not started; its source being translated; its input being read;
its input gathered, waiting for a translation of its destination or for its turn to send; its output being
sent, or written; ended. -/
inductive ExtState where
  | waiting
  | xlate
  | reading
  | ready
  | sending
  | writing
  | landed
  | failed
  deriving DecidableEq, Repr

/-- A work extent: source byte range, the mover that runs it (plus 1; 0 none), its failed runs, the runs
that do not count (R410), the reads and
writes still outstanding, the input gathered so far by offset and its poisoned ranges, the cause and fault source
of its failure, that of its poisoned input, and the messages not yet complete. -/
structure WorkExt where
  off : Nat
  len : Nat
  st : ExtState := .waiting
  engine : Nat := 0
  runs : Nat := 0
  redo : Nat := 0
  outstanding : Nat := 0
  got : List (Nat × List Byte) := []
  bad : List (Nat × Nat) := []
  cause : Nat := 0
  source : Nat := 0
  badCause : Nat := 0
  msgsLeft : Nat := 0
  deriving DecidableEq, Repr

/-- Where an operation stands: accepted, with a translation of its checks still to come; not started; waiting on a marker (its wait entry held);
armed (a trigger waits); running; ended and retired from the store once its record is formed. -/
inductive OpStage where
  | accepting
  | ready
  | waiting
  | armed
  | running
  | ended
  deriving DecidableEq, Repr

/-- How far a layer of a skein has come at its sender (R212-R224): not triggered; triggered and not open; open,
with its blocks being translated, read, or sent; ended. -/
inductive LayerState where
  | idle
  | triggered
  | xlate
  | reading
  | sending
  | landed
  | failed
  deriving DecidableEq, Repr

/-- A layer of a skein at its sender: its MSG_ID and SKEIN_INFO once open, whether a packet of it failed, the reads outstanding,
the source bytes read by offset in the layer, the bad ranges among them, and its failure's cause. -/
structure Layer where
  st : LayerState := .idle
  msg : BitVec 24 := 0
  info : BitVec 32 := 0
  failed : Bool := false
  outstanding : Nat := 0
  got : List (Nat × List Byte) := []
  bad : List (Nat × Nat) := []
  cause : Nat := 0
  deriving DecidableEq, Repr

/-- A skein's sender state (R211): the list and the map as read, the layers, the source marker of each layer, whether
a layer was opened, the STATUS of a failed source trigger, and whether that is for the retirement of an imported marker's
original (R56), END's MSG_ID and END_ERR once it is sent, and the skein's slot of the stash. -/
structure SkeinSt where
  list : List Nat := []
  map : List Nat := []
  layers : Tab Layer := []
  marks : List MarkRef := []
  openedAny : Bool := false
  trigFail : Option (BitVec 32) := none
  stale : Bool := false
  ending : Option (BitVec 24) := none
  endErr : Nat := 0
  slot : Option Nat := none
  deriving DecidableEq, Repr

/-- A descriptor in the store, or the operation it became. `idx` is the index of its first slot;
`mos` and `tuses` are the uses it holds, `stale` the byte offset of a handle that an `INVALIDATE` ahead of it has retired, `stop` the status that ends it at the next extent boundary; `delayed` says that its wait for an entry, a QP's place or a slot was counted; `target` is
what a held marker-wait entry waits for, `woke` how that wait ended: satisfied with that
VALUE, or failed with that STATUS; `checked` says that the checks of R82 that need no translation passed at the fetch, so
that it holds its uses (R42); `fail` is the status and ERR_DETAIL that it ends with, and whether its marker gets no error,
while that marker is being translated (R58); `ending` what it ends with once every earlier descriptor of its queue has
completed (R84); `invAt` the panel and the generation that an `INVALIDATE` made current (R128). -/
structure Op where
  ws : List Word
  stage : OpStage := .ready
  ctx : Nat := 0
  epoch : BitVec 8 := 0
  gen : BitVec 8 := 0
  slots : Nat := 1
  done : Bool := false
  flush : Bool := false
  exts : List Ext := []
  sig : Option MarkRef := none
  wait : Option MarkRef := none
  mos : List (BitVec 32) := []
  tuses : List TUse := []
  work : List WorkExt := []
  stop : Option (Nat × Nat) := none
  status : Nat := 0
  detail : Nat := 0
  result : Word := 0
  mwait : Nat := 0
  hostWrites : Option (Nat × Nat) := none
  fence : Nat := 0
  delayed : Bool := false
  upstream : Bool := false
  qpn : Option Nat := none
  win : BitVec 32 := 0
  remOff : Nat := 0
  since : Nat := 0
  target : Word := 0
  woke : Option (Bool × Word) := none
  stale : Option Nat := none
  checked : Bool := false
  fail : Option (Nat × Nat × Bool) := none
  ending : Option (Nat × Nat) := none
  asRead : Bool := false
  asWrite : Bool := false
  invAt : Option (Nat × Nat) := none
  finished : Bool := false
  skein : SkeinSt := {}
  deriving DecidableEq, Repr

/-! ### Collectives (09) -/

/-- A long row and its flags (R267): NAN, PINF, NINF, ALLNEG0; `any` says that something was folded. -/
structure LongRow where
  v : BitVec 320 := 0
  nan : Bool := false
  pinf : Bool := false
  ninf : Bool := false
  allNeg0 : Bool := true
  any : Bool := false
  deriving DecidableEq, Repr

/-- Group states (R258). -/
inductive GroupState where
  | free
  | forming
  | active
  | failed
  | draining
  deriving DecidableEq, Repr

/-- Progress of one chunk at this member (R265-R287): its slot and whether that is a reserved one, whether this
member has credited it, the rows and whether the chunk is poisoned; the reads outstanding, whether its input was
asked for, the bytes read and whether they are folded in; the children folded in; the attempts of its own
accumulation and of its parent's, and the restarts; whether its partial was sent and acknowledged; whether the
result or DONE arrived, the output writes outstanding and whether the output is written; whether the output is read
back for the children, and its bytes; the children served, and those that acknowledged; whether it failed, and why. -/
structure Chunk where
  slot : Option (Nat × Bool) := none
  credited : Bool := false
  rows : List LongRow := []
  poison : Bool := false
  reads : Nat := 0
  reading : Bool := false
  got : List (Nat × List Byte) := []
  ownIn : Bool := false
  folded : List Nat := []
  attempt : Nat := 0
  upAttempt : Nat := 0
  restarts : Nat := 0
  sentUp : Bool := false
  upAcked : Bool := false
  outGot : Bool := false
  outLeft : Nat := 0
  outDone : Bool := false
  backReading : Bool := false
  down : Option (List Byte) := none
  sentDown : List Nat := []
  ackDown : List Nat := []
  failed : Bool := false
  cause : Nat := 0
  deriving DecidableEq, Repr

/-- A started collective (R261). -/
structure Coll where
  sq : Nat
  idx : Nat
  chunks : Tab Chunk := []
  mismatch : Bool := false
  deriving DecidableEq, Repr

/-- A collective group (R255-R258). `members` holds the QPN of each rank, none for SELF; `credit` the
greatest (SEQ, chunk) each rank has credited this member, as SEQ × 2^20 + chunk + 1. -/
structure Group where
  st : GroupState := .free
  slice : Nat := 0
  switch : Bool := false
  members : List (Option Nat) := []
  rank : Nat := 0
  fanin : Nat := 2
  wide : Bool := false
  rsv : Nat := 1
  wireFmt : Nat := 0
  aggQpn : Nat := 0
  timeout : Nat := 15
  key : Word := 0
  fprint : Word := 0
  heard : List Nat := []
  nextSeq : BitVec 20 := 0
  reason : Nat := 0
  lostRank : Nat := 0
  colls : Tab Coll := []
  credit : Tab Nat := []
  deriving DecidableEq, Repr

/-! ### What outstanding requests are for -/

/-- A skein status record being written (R221): its key, context and place, the bytes still to write, and what
follows for the destination marker: a signal, or an error where the code is not 0. -/
structure RecWrite where
  key : Nat
  ctx : Nat
  host : Bool
  addr : Nat
  tail : List Byte
  mark : Option MarkRef
  value : Word
  code : Nat
  detail : Nat
  outstanding : Nat
  second : Bool := false
  deriving DecidableEq, Repr

/-- What an outstanding memory request serves, so that its answer resumes the right work. A read of a chunk's input names the
restart that asked for it, so that a restarted chunk folds in its new read alone (R14, R283). -/
inductive Purpose where
  | ring (sq : Nat)
  | opRead (sq idx ext off : Nat)
  | opWrite (sq idx ext off len : Nat)
  | opFence (sq idx : Nat)
  | place (qpn : Nat) (psn : BitVec 32)
  | rxRead (qpn tracker off : Nat)
  | rxAtomic (qpn tracker : Nat)
  | rocePlace (qpn : Nat) (psn : BitVec 24)
  | roceRead (qpn : Nat) (psn : BitVec 24) (off len : Nat)
  | roceAtomic (qpn : Nat) (psn : BitVec 24)
  | purlIn (group seq chunk restart off : Nat)
  | purlOut (group seq chunk : Nat)
  | purlBack (group seq chunk off : Nat)
  | skeinRead (sq idx layer off : Nat)
  | skeinRec (n : Nat)
  | directLd (module txn : Nat)
  | directWait (ctx : Nat)
  | bar2 (link tag len : Nat)
  | bar2Atomic (link tag : Nat)
  | bar2Write (link : Nat)
  | cxlRead (link tag : Nat)
  | cxlWrite (link tag : Nat)
  | counter (ctx panel page : Nat)
  | shadow (sq : Nat)
  | marker
  | walk (w : Nat)
  | loadZero (load : Nat)
  | unseal (index : Nat)
  | cqRecord (cq : Nat)
  | stashFill (line : Nat)
  | stashLines (line n ver : Nat)
  | stashCheck (line : Nat)
  deriving DecidableEq, Repr

/-- What a memory request came to: its data; poison of a length, with the CAUSE that it stands for; or how it failed, with
CAUSE, SOURCE and the length that was asked for. -/
inductive Answer where
  | data (bs : List Byte)
  | poison (len cause : Nat)
  | failed (cause source len : Nat)
  deriving DecidableEq, Repr

/-- Why a translation is asked for, so that a walk or a fault's resolution resumes it (R114). -/
inductive XPurp where
  | ring (sq : Nat)
  | accept (sq idx : Nat)
  | extent (sq idx ext : Nat)
  | cqRecord (cq : Nat)
  | shadow (sq : Nat)
  | place (qpn : Nat) (psn : BitVec 32)
  | exec (qpn tracker : Nat)
  | skeinDeliver (qpn tracker : Nat)
  | purl (group seq chunk : Nat)
  | direct (ctx : Nat)
  | signal (module txn : Nat)
  | roce (qpn : Nat)
  | skein (sq idx : Nat)
  | command (mbox : Nat)
  | prefetch
  deriving DecidableEq, Repr

/-! ### Translation (04) -/

/-- A stream (R114). -/
inductive Stream where
  | sq (n : Nat)
  | qp (n : Nat)
  | direct (ctx : Nat)
  deriving DecidableEq, Repr

/-- Kinds of access (R110). -/
inductive AccKind where
  | read
  | write
  | atomic
  | marker
  deriving DecidableEq, Repr

/-- A chart cache entry (R117): tags and the entry; the list is in order of use, newest first. -/
structure ChartLine where
  ctx : Nat
  panel : Nat
  page : Nat
  tgen : Nat
  entry : Word
  deriving DecidableEq, Repr

/-- A walk (R115): its panel, page and TGEN, its stream, why it was asked for and the access kind. -/
structure Walk where
  ctx : Nat
  panel : Nat
  page : Nat
  tgen : Nat
  stream : Stream
  purp : XPurp
  kind : AccKind
  deriving DecidableEq, Repr

/-- What a requester has learnt about a page of its own: an entry that the cache does not hold, a failed
read, or a fault resolved with FAIL. -/
inductive Seen where
  | entry (e : Word)
  | failed (group : Nat)
  | faultFailed
  deriving DecidableEq, Repr

/-- What a requester saw, kept until it has finished its translation. -/
structure SeenAt where
  purp : XPurp
  ctx : Nat
  panel : Nat
  page : Nat
  what : Seen
  deriving DecidableEq, Repr

/-- A joiner of a pending-fault entry (R132). -/
structure Joiner where
  stream : Stream
  purp : XPurp
  kind : AccKind
  deriving DecidableEq, Repr

/-- A fault that no pending-fault entry holds (R132, R133): in its stream's latch where the table was `full`, else
behind that latch. -/
structure Latched where
  j : Joiner
  ctx : Nat
  panel : Nat
  page : Nat
  full : Bool
  deriving DecidableEq, Repr

/-- A pending-fault entry (R132, R135, R138). -/
structure PFault where
  ctx : Nat
  panel : Nat
  page : Nat
  token : BitVec 16
  joinCount : Nat
  joiners : List Joiner
  rd : Bool
  wr : Bool
  at_ : Bool
  first : Stream
  rep : Nat := 0
  reported : Bool := false
  since : Nat := 0
  deriving DecidableEq, Repr

/-- A direct request of a compute die (R122). -/
structure DirectReq where
  module : Nat
  txn : Nat
  store : Bool
  cva : Nat
  len : Nat
  data : List Byte
  deriving DecidableEq, Repr

/-- Translation state: the chart cache, walks outstanding by walk slot, walks waiting in their miss
queues, what requesters saw, the pending-fault table with each entry's last TOKEN, the faults waiting
unallocated in or behind their latches, the accesses that wait until a context's tag is admitted (R124), the latch
summary, and the fault ring's registers (R134). -/
structure Xlt where
  cache : List ChartLine := []
  walks : Tab Walk := []
  queue : List Walk := []
  seen : List SeenAt := []
  faults : Tab PFault := []
  tokens : Tab (BitVec 16) := []
  latched : List Latched := []
  fenced : List (XPurp × Nat) := []
  summary : List Nat := []
  enable : Bool := false
  logSize : Nat := 6
  ringBase : BitVec 52 := 0
  w : BitVec 24 := 0
  c : BitVec 24 := 0
  arm : Bool := false
  overflow : Bool := false
  scan : Nat := 0
  direct : Tab (List DirectReq) := []
  samples : Tab Nat := []
  deriving DecidableEq, Repr

/-! ### Host port (10) -/

/-- A device-to-host request that is outstanding: what it serves, how many bytes it reads, and for an atomic its AOP
and operands. -/
structure HostReq where
  purp : Purpose
  addr : Nat
  len : Nat
  slice : Option Nat
  since : Nat := 0
  aop : Option (Nat × BitVec 128 × BitVec 128) := none
  deriving DecidableEq, Repr

/-- A device-to-host request (R304): read, write, atomic or interrupt message. `flag` marks a flag
write (R305); `pasid` is none for the manager function. -/
inductive HostOut where
  | read (tag : Nat) (pasid : Option Nat) (addr len : Nat)
  | write (pasid : Option Nat) (addr : Nat) (data : List Byte) (flag : Bool)
  | atomic (tag : Nat) (pasid : Option Nat) (addr size : Nat) (aop : Nat) (a b : BitVec 128)
  | msix (vector : Nat) (addr : Word) (data : BitVec 32)
  deriving DecidableEq, Repr

/-- A line of the coherent window cache (R313): key is link × 2^64 + host address / 64; `ctx` is the context whose
direct request obtained or last modified it. -/
structure CwcLine where
  ctx : Nat
  owned : Bool
  modified : Bool
  data : List Byte
  lru : Nat
  deriving DecidableEq, Repr

/-- A line of the HDM directory (R311). -/
structure HdmLine where
  link : Nat
  modified : Bool
  lru : Nat
  deriving DecidableEq, Repr

/-- An MSI-X table entry (R314). -/
structure MsixEntry where
  addr : Word := 0
  data : BitVec 32 := 0
  ctrl : BitVec 32 := 1
  deriving DecidableEq, Repr

/-- One host link (R292-R316). `offered` says that HP_LINK_CFG offered CXL at the link's last fundamental reset, and
`fixed` that a training since then has fixed the mode (R296). -/
structure Link where
  up : Bool := false
  offered : Bool := false
  fixed : Bool := false
  cxl : Bool := false
  cache : Bool := false
  flit : Bool := false
  rate : Nat := 0
  width : Nat := 0
  d3 : Bool := false
  lostAt : Option Nat := none
  cplDisabled : Bool := false
  cplRange : Nat := 0
  atomicEn : Bool := false
  bar2Log2 : Nat := 0
  maxPayload : Nat := 128
  maxRead : Nat := 512
  hdmBase : Nat := 0
  fnMask : Bool := false
  msix : Tab MsixEntry := []
  msixPend : List Nat := []
  reqs : Tab HostReq := []
  waiting : List HostOut := []
  cacheWrites : List Nat := []
  flags : List HostOut := []
  cfg : BitVec 4 := 0
  deriving DecidableEq, Repr

/-! ### Die links (11) -/

/-- A die-link command (R338, R339). -/
structure DlCmd where
  cmd : Nat
  txn : Nat
  atag : BitVec 24
  cls : Nat
  poison : Bool := false
  len : Nat
  addr : Nat
  aux : Nat := 0
  data : List Byte := []
  deriving DecidableEq, Repr

/-- A request of Tsucen that awaits its answer. -/
structure DlReq where
  purp : Purpose
  cmd : DlCmd
  since : Nat := 0
  deriving DecidableEq, Repr

/-- A memory access of Tsucen that waits for a host's Back-Invalidate answer (R311). -/
structure BiWait where
  link : Nat
  line : Nat
  purp : Purpose
  cmd : DlCmd
  deriving DecidableEq, Repr

/-- A die-link module (R334-R346). The credits are those Tsucen holds; `replay` holds the command flits
not yet acknowledged, oldest first. -/
structure Module where
  up : Bool := false
  active : Bool := false
  credReq : Nat := 0
  credRsp : Nat := 0
  credData : Nat := 0
  nextFseq : BitVec 8 := 0
  replay : List (BitVec 8 × DlCmd × Nat) := []
  lastGood : BitVec 8 := 255
  nak : Bool := false
  reqs : Tab DlReq := []
  waiting : List DlCmd := []
  deriving DecidableEq, Repr

/-- A die port: the sideband and the governor's view of the die behind it (R345, R461-R464). -/
structure DiePort where
  attached : Bool := false
  kind : BitVec 8 := 0
  updSeq : BitVec 8 := 0
  updates : List (BitVec 8 × Nat) := []
  power : Nat := 0
  temp : Nat := 0
  current : Nat := 0
  row : BitVec 8 := 0
  heard : Bool := false
  stale : Bool := false
  budget : Nat := 0
  fast : Bool := false
  budgetRow : BitVec 8 := 0
  deriving DecidableEq, Repr

/-! ### Fabric ports (11) -/

/-- A lane of a sub-port: its training; and on a native lane the scrambler's last 58 bits and the precoder's last symbol (R324),
and the blocks sent since its last CADENCE block (R326). -/
structure Lane where
  scr : BitVec 58 := 0
  pre : BitVec 2 := 0
  blocks : Nat := 0
  localReady : Bool := false
  peerReady : Bool := false
  failed : Bool := false
  retraining : Bool := false
  deriving DecidableEq, Repr

/-- How far a sub-port's training has come (R329). -/
inductive Train where
  | down
  | equalise
  | align
  | up
  deriving DecidableEq, Repr

/-- A DATA block that the replay buffer keeps (R325, R326, R328): SEQ, FRAME_PTR, body, and how often it was replayed. -/
structure NBlock where
  seq : BitVec 8
  ptr : Nat
  body : List Byte
  times : Nat := 0
  deriving DecidableEq, Repr

/-- A logical port (R188, R206, R318-R332). `unsent` holds DATA blocks for which the
replay buffer has no room yet, `dealt` is the number of blocks dealt to its lanes, `gotAny` whether a DATA block
was received since it came up (ACK_VALID, R325). -/
structure LPort where
  train : Train := .down
  width : Nat := 0
  mask : BitVec 8 := 0
  lanes : Tab Lane := []
  pending : Option (BitVec 8 × BitVec 8) := none
  txSeq : BitVec 8 := 0
  replay : List NBlock := []
  unsent : List NBlock := []
  dealt : Nat := 0
  gotAny : Bool := false
  rxSeq : BitVec 8 := 0
  nakFor : Option (BitVec 8 × Nat) := none
  ipv6 : BitVec 128 := 0
  prefix6 : Nat := 0
  ipv4 : BitVec 32 := 0
  prefix4 : Nat := 0
  paused : Bool := false
  pauseSent : Bool := false
  egress : Tab (List TxEntry) := []
  control : List TxEntry := []
  tokens : Nat := 16384
  deficit : Tab Nat := []
  nextTc : Nat := 0
  roceFill : Nat := 0
  deriving DecidableEq, Repr
/-! ### Slices and mailboxes (12, 13) -/

/-- Slice states (R357). -/
inductive SliceState where
  | free
  | active
  | draining
  deriving DecidableEq, Repr

/-- A slice slot (R348-R360, R379). `quota` holds the eleven quotas of R352 in their order; `copied` is
Rumel's copy of its contexts' binding lists; `step3` and `step4` say which bind-off steps are done; `credit` is how many
descriptors the slice may still start in the scheduler's round, and `lastSq` the queue that it served last (R355). -/
structure Slice where
  st : SliceState := .free
  abort : Bool := false
  gen : BitVec 8 := 0
  link : Nat := 0
  pasid : Nat := 0
  msixBase : Nat := 0
  msixCount : Nat := 0
  rights : BitVec 8 := 0
  targets : BitVec 4 := 0
  quota : List Nat := []
  copied : List MarkRef := []
  step3 : Bool := false
  step4 : Bool := false
  credit : Nat := 0
  lastSq : Nat := 0
  deriving DecidableEq, Repr

/-- A mailbox (R368-R373). `page` is the request page and `resp` the response page as words by index,
`req` the copied request while RUNNING, `kept` the kept response, `irq` whether the response vector is due, `inv` the
panel and generation of an invalidation that has started (R128). -/
structure Mailbox where
  lastSeq : BitVec 16 := 0
  running : Bool := false
  ignored : BitVec 16 := 0
  page : Tab Word := []
  req : List Word := []
  resp : List Word := []
  kept : Option (List Word) := none
  irq : Bool := false
  link : Nat := 0
  started : Bool := false
  inv : Nat × Nat := (0, 0)
  since : Nat := 0
  deriving DecidableEq, Repr

/-- A received connection-management datagram (R383). -/
structure Datagram where
  lport : Nat
  src : BitVec 128
  data : List Byte
  deriving DecidableEq, Repr

/-! ### Faults and recovery (14) -/

/-- Fault classes (R388). -/
inductive FClass where
  | ce
  | uc
  | ft
  deriving DecidableEq, Repr

/-- Unit states (R398). -/
inductive UnitState where
  | inService
  | fenced
  | testing
  deriving DecidableEq, Repr

/-- FC_SRC_n (R392), by field; `sstateUnit` is the unit SSTATE names. -/
structure FcSrc where
  cls : Nat := 0
  causeActive : Bool := false
  sstateUnit : Nat := 0
  escalated : Bool := false
  detail : Nat := 0
  ceCount : Nat := 0
  ucCount : Nat := 0
  fences : Nat := 0
  unit : Nat := 0
  injected : Bool := false
  errn : Bool := false
  lastUc : Nat := 0
  lastDetail : Nat := 0
  deriving DecidableEq, Repr

/-- Device states (R392). -/
inductive DState where
  | normal
  | reinit
  | halted
  deriving DecidableEq, Repr

/-- The steps of a warm re-init (R408). -/
inductive Reinit where
  | quiesce
  | reset
  | verify
  | restart
  | resume
  deriving DecidableEq, Repr

/-- The fault collector and the unit states. A unit's key in `units` is source × 64 + UNIT; an absent one
is IN_SERVICE. `trace` holds the ring's records by index. `cause` is the DETAIL of the FT event being
recovered from. -/
structure Fc where
  status : BitVec 60 := 0
  ftErrn : Bool := true
  fenceLimit : Nat := 3
  traceFreeze : Bool := true
  dstate : DState := .normal
  lastFtSource : Nat := 0x3F
  reinits : Nat := 0
  lastFtRow : BitVec 32 := 0
  traceSel : Nat := 0
  react : Tab (BitVec 13) := []
  src : Tab FcSrc := []
  timers : List Nat := []
  units : Tab UnitState := []
  trace : Tab (BitVec 128) := []
  traceRow : BitVec 32 := 0
  recording : Bool := true
  filter : Word := 0
  step : Option Reinit := none
  cause : Nat := 0
  intPending : Bool := false
  reinitTimes : List Nat := []
  deriving DecidableEq, Repr

/-! ### State Cache (15) -/

/-- A line of the State Cache (R413): its stash offset / 256, VALID and DIRTY per sector, and its age. -/
structure ScLine where
  line : Nat
  valid : BitVec 4
  dirty : BitVec 4
  lru : Nat
  deriving DecidableEq, Repr

/-- The State Cache. A line's key is half × 65,536 + set × 16 + way. `written` holds the stash lines whose
check word has WRITTEN set. -/
structure StateCache where
  lines : Tab ScLine := []
  clock : Nat := 0
  written : List Nat := []
  cmd : BitVec 20 := 0
  addr : BitVec 21 := 0
  count : BitVec 22 := 0
  busy : Bool := false
  result : Nat := 0
  linesDone : Nat := 0
  stash : Option Nat := none
  rate : Nat := 10
  scrubOn : Bool := true
  disabled : Tab (BitVec 16) := []
  passes : Tab Nat := []
  errs : Tab Nat := []
  scrubPos : Tab Nat := []
  deriving DecidableEq, Repr

/-! ### Foundation (16) and cast-on (17) -/

/-- The security fuse bank, but for ID_KEY (R427, R428): ID_KEY never leaves Foundation. -/
structure SecFuses where
  rootHash0 : BitVec 384 := 0
  rootHash1 : BitVec 384 := 0
  revoke0 : Bool := false
  revoke1 : Bool := false
  integratorHash : BitVec 384 := 0
  debugHash : BitVec 384 := 0
  minSvn : Nat := 0
  deriving DecidableEq, Repr

/-- A sealed DPA run (R441) and the object it belongs to. -/
structure SealRun where
  base : Nat
  len : Nat
  mo : BitVec 32
  load : Nat
  deriving DecidableEq, Repr

/-- A sealed load (R439-R444). -/
structure Load where
  slice : Nat
  ctx : Nat
  mo : BitVec 32
  dst : Nat
  dpas : List (Nat × Nat)
  plainLen : Nat
  bundleId : Word
  header : List Byte
  sealRuns : Bool
  done : Option (MarkRef × Word)
  seq : Nat
  running : Option Nat := none
  doomed : Bool := false
  deriving DecidableEq, Repr

/-- SPDM negotiation (R435). -/
inductive Spdm where
  | none
  | version
  | capabilities
  | negotiated
  deriving DecidableEq, Repr

/-- Foundation (R426-R446). `nonce` holds the live debug nonce; `debug` the highest level unlocked since
cold reset; `meas` the measurement blocks by number. -/
structure Foundation where
  ready : Bool := false
  accepted : Bool := false
  meas : Tab (List Byte) := []
  debug : Nat := 0
  nonce : Option (BitVec 256) := none
  spdm : Tab Spdm := []
  loads : Tab Load := []
  nextLoad : Nat := 0
  sealTab : List SealRun := []
  deriving DecidableEq, Repr

/-- States of CO_STATUS (R458). -/
inductive CoState where
  | waiting
  | claimed
  | verifying
  | accepted
  | rejected
  | ready
  deriving DecidableEq, Repr

/-- Image routes (R457). -/
inductive Route where
  | none
  | bar4
  | i3c
  | native
  deriving DecidableEq, Repr

/-- Cast-on (R449-R460): the rail groups in tolerance, the sampled strap, the pins, the registers of
R458, the staging buffer (bytes, absent ones zero), and native boot's TOTAL and bytes held. -/
structure CastOn where
  powered : Bool := true
  rails : Nat := 0
  perst : Bool := true
  measured : Bool := false
  ssc : Bool := false
  st : CoState := .waiting
  route : Route := .none
  reason : Nat := 0
  len : Nat := 0
  goLen : Nat := 0
  staging : List Host.Cell := []
  total : Option Nat := none
  held : Nat := 0
  bootPort : Bool := false
  deriving DecidableEq, Repr

/-- The package power governor (R461-R465): the envelope in mW, the caps per die port in mW, the last
loop's own and per-die figures, the sums of the window a slice reads, and the throttles. -/
structure Governor where
  envelope : Nat := 0
  next : Option Nat := none
  caps : Tab Nat := []
  ownMw : Nat := 0
  dieMw : Tab Nat := []
  telem : Tab (List Nat) := []
  window : Nat := 0
  winOwn : Nat := 0
  winDie : Tab Nat := []
  loops : Nat := 0
  shownOwn : Nat := 0
  shownDie : Tab Nat := []
  limitMw : Nat := 240000
  throttle : Bool := false
  hot : List Nat := []
  fastAt : Option Nat := none
  deriving DecidableEq, Repr

/-! ### What leaves the block -/

/-- What the block sends. A frame of an IEEE port is its bytes from the destination MAC address to the FCS; a native block is its
2,570 bytes and the PAM4 symbols that its group of the lane carries (R324, R325). -/
inductive Emission where
  | host (link : Nat) (r : HostOut)
  | flit (module : Nat) (fseq : BitVec 8) (replay : Bool) (c : DlCmd)
  | idleFlit (module : Nat) (ack : BitVec 8) (nak : Bool) (req rsp data : Nat)
  | sideband (port : Nat) (code : Nat) (payload : Word)
  | frame (lport : Nat) (bytes : List Byte)
  | block (lport lane : Nat) (bytes : List Byte) (symbols : List (BitVec 2))
  | autoneg (lport : Nat) (width : Nat)
  | completion (link tag : Nat) (data : List Byte) (poisoned : Bool)
  | unsupported (link tag : Nat)
  | completerAbort (link tag : Nat)
  | atomicOld (link tag : Nat) (old : List Byte)
  | cxlData (link tag : Nat) (data : List Byte) (poison : Bool)
  | cxlAck (link tag : Nat)
  | cxlReq (link line : Nat) (own : Bool)
  | cxlWriteBack (link line : Nat) (data : List Byte)
  | backInvalidate (link line : Nat) (wantData : Bool)
  | snoopRsp (link tag : Nat) (hit : Bool) (data : Option (List Byte))
  | config (link : Nat) (offset : Nat) (value : Word)
  | aer (link : Nat)
  | mctp (t : Mctp) (code : Nat) (data : List Byte)
  | fuse (minSvn : Nat)
  | bar4Read (value : Word)
  | duty (down : Bool)
  deriving DecidableEq, Repr

/-! ### The state of the block -/

/-- The state. -/
structure State where
  /-- the commands waiting, first in first out -/
  pending : List Instr := []
  /-- everything sent, newest first (the model's own record) -/
  sent : List Emission := []
  /-- free values drawn so far (the model's own counter) -/
  freeCtr : Nat := 0
  /-- the transport stamp's time base, in ticks of 1.6 ns (R152) -/
  ticks : Nat := 0
  /-- cast-on fuses (R452) -/
  castOnFuse : Word := 0
  sec : SecFuses := {}
  fleet : Bool := false
  castOn : CastOn := {}
  fnd : Foundation := {}
  -- identity (18 R468)
  rumel : BitVec 16 := 0
  hbmGib : Nat := 0
  hooksUp : Bool := false
  -- shared objects
  slices : Tab Slice := []
  mailboxes : Tab Mailbox := []
  ctxs : Tab Ctx := []
  mos : Tab Mo := []
  moNext : Nat := 0
  moFree : List Nat := []
  wins : Tab Win := []
  winNext : Nat := 0
  winFree : List Nat := []
  markers : Tab Marker := []
  cookies : List Cookie := []
  bindJobs : List BindJob := []
  cm : Tab (List Datagram) := []
  -- queues
  sqs : Tab Sq := []
  cqs : Tab Cq := []
  ops : Tab Op := []
  -- translation; uses of generations held by outstanding requests, by what they serve (R127)
  xlt : Xlt := {}
  xuses : List (Purpose × TUse) := []
  -- transport
  qps : Tab Qp := []
  trackers : Tab Tracker := []
  grants : GrantEngine := {}
  ertPort : BitVec 16 := 0
  tcWeight : BitVec 64 := 0x0808103040402010
  tcDscp : BitVec 48 := 0x60829A922BB0
  tension : BitVec 22 := 0x20C10B
  trkRsv : BitVec 64 := 0x0404081008100701
  pfcEn : BitVec 12 := 0
  pfcPrio : Nat := 3
  xoff : Nat := 512
  xon : Nat := 384
  -- skein records and collectives
  skeinRecs : Tab (BitVec 512) := []
  recWrites : Tab RecWrite := []
  groups : Tab Group := []
  -- host
  links : Tab Link := []
  cwc : Tab CwcLine := []
  hdm : Tab HdmLine := []
  biWait : List BiWait := []
  lruClock : Nat := 0
  bar2Slide : Nat := 0
  ridFilter : Tab (BitVec 38) := []
  directWait : List (Nat × DirectReq × Nat) := []
  directLds : Tab (DirectReq × Nat) := []
  -- die links
  mods : Tab Module := []
  dies : Tab DiePort := []
  dlRoute : BitVec 64 := 0
  -- fabric
  portCfg : Tab (BitVec 34) := []
  nextHop : Tab (BitVec 48) := []
  lports : Tab LPort := []
  -- state cache
  sc : StateCache := {}
  -- faults
  fc : Fc := {}
  heldWrites : List Instr := []
  heldSq : Tab (BitVec 24) := []
  heldCq : Tab (BitVec 24 × Bool) := []
  heldAck : List (Nat × Nat) := []
  heldMb : Tab (Word × Bool) := []
  heldOff : List Nat := []
  heldAns : List (Purpose × Nat × Answer) := []
  heldLost : List Nat := []
  -- governor
  gov : Governor := {}
  -- counters
  counters : Tab Word := []
  deriving DecidableEq, Repr

/-- Why a run stops with a fault. No command of the model ends in a fault: the block answers every event
that reaches it, in its own states (R405), so this type has one name that nothing raises. -/
inductive Fault where
  /-- Raised by no meaning (safe: nothing stops). -/
  | unused
  deriving DecidableEq, Repr

/-- Why the model refuses a command. -/
inductive Refusal where
  /-- Raised only by an arm of `exec` whose command has no meaning yet (safe: the model stops). -/
  | notModelled (mnemonic : String)
  deriving DecidableEq, Repr

/-- The state right after a cold reset (R10, R451): every field at the value its rule gives, and the
values the rules leave open as the assumption log names them (log 3, 4, 5, 11, 12, 13). -/
def State.reset : State := {}

end Sys2Proof.Machine
end

