-- ==== Sys2Proof/Machine/Ops.lean ====
section
/-! DEFINITION. The named operations over the state that the meanings share: what is sent, counters, free
values, the host links, the die links, and memory requests. -/

namespace Sys2Proof.Machine

/-! ### Records by their numbers -/

/-- SQ `n`. -/
def State.sq (s : State) (n : Nat) : Sq := Tab.getD s.sqs n {}
/-- CQ `n`. -/
def State.cq (s : State) (n : Nat) : Cq := Tab.getD s.cqs n {}
/-- Context `n`. -/
def State.ctx (s : State) (n : Nat) : Ctx := Tab.getD s.ctxs n {}
/-- Slice `n`. -/
def State.slice (s : State) (n : Nat) : Slice := Tab.getD s.slices n {}
/-- Memory object at index `n`. -/
def State.mo (s : State) (n : Nat) : Mo := Tab.getD s.mos n {}
/-- Window at index `n`. -/
def State.win (s : State) (n : Nat) : Win := Tab.getD s.wins n {}
/-- QP `n`; an unassigned number reads as a QP in RESET. -/
def State.qp (s : State) (n : Nat) : Qp := Tab.getD s.qps n {}
/-- Host link `n`. -/
def State.link (s : State) (n : Nat) : Link := Tab.getD s.links n {}
/-- Die-link module `n`. -/
def State.mod (s : State) (n : Nat) : Module := Tab.getD s.mods n {}
/-- Die port `n`. -/
def State.die (s : State) (n : Nat) : DiePort := Tab.getD s.dies n {}
/-- Logical port `n`. -/
def State.lport (s : State) (n : Nat) : LPort := Tab.getD s.lports n {}
/-- Collective group `n`. -/
def State.group (s : State) (n : Nat) : Group := Tab.getD s.groups n {}
/-- Mailbox `n`: slice number, or 512 for the manager's (R368). -/
def State.mbox (s : State) (n : Nat) : Mailbox := Tab.getD s.mailboxes n {}

/-- Change SQ `n`. -/
def State.updSq (s : State) (n : Nat) (f : Sq → Sq) : State := { s with sqs := Tab.upd s.sqs n {} f }
/-- Change CQ `n`. -/
def State.updCq (s : State) (n : Nat) (f : Cq → Cq) : State := { s with cqs := Tab.upd s.cqs n {} f }
/-- Change context `n`. -/
def State.updCtx (s : State) (n : Nat) (f : Ctx → Ctx) : State := { s with ctxs := Tab.upd s.ctxs n {} f }
/-- Change slice `n`. -/
def State.updSlice (s : State) (n : Nat) (f : Slice → Slice) : State := { s with slices := Tab.upd s.slices n {} f }
/-- Change the object at index `n`. -/
def State.updMo (s : State) (n : Nat) (f : Mo → Mo) : State := { s with mos := Tab.upd s.mos n {} f }
/-- Change the window at index `n`. -/
def State.updWin (s : State) (n : Nat) (f : Win → Win) : State := { s with wins := Tab.upd s.wins n {} f }
/-- Change QP `n` where it is assigned. -/
def State.updQp (s : State) (n : Nat) (f : Qp → Qp) : State := { s with qps := Tab.adj s.qps n f }
/-- Change link `n`. -/
def State.updLink (s : State) (n : Nat) (f : Link → Link) : State := { s with links := Tab.upd s.links n {} f }
/-- Change module `n`. -/
def State.updMod (s : State) (n : Nat) (f : Module → Module) : State := { s with mods := Tab.upd s.mods n {} f }
/-- Change die port `n`. -/
def State.updDie (s : State) (n : Nat) (f : DiePort → DiePort) : State := { s with dies := Tab.upd s.dies n {} f }
/-- Change logical port `n`. -/
def State.updLport (s : State) (n : Nat) (f : LPort → LPort) : State := { s with lports := Tab.upd s.lports n {} f }
/-- Change group `n`. -/
def State.updGroup (s : State) (n : Nat) (f : Group → Group) : State := { s with groups := Tab.upd s.groups n {} f }
/-- Change mailbox `n`. -/
def State.updMbox (s : State) (n : Nat) (f : Mailbox → Mailbox) : State := { s with mailboxes := Tab.upd s.mailboxes n {} f }
/-- Change the fault collector. -/
def State.updFc (s : State) (f : Fc → Fc) : State := { s with fc := f s.fc }
/-- Change translation's state. -/
def State.updXlt (s : State) (f : Xlt → Xlt) : State := { s with xlt := f s.xlt }

/-- The key of the descriptor at index `idx` of SQ `sq` in the descriptor store. -/
def opKey (sq idx : Nat) : Nat := sq * 16777216 + idx % 16777216

/-- The descriptor or operation of an SQ at an index. -/
def State.op (s : State) (sq idx : Nat) : Option Op := Tab.get s.ops (opKey sq idx)

/-- Change the operation of an SQ at an index, where there is one. -/
def State.updOp (s : State) (sq idx : Nat) (f : Op → Op) : State := { s with ops := Tab.adj s.ops (opKey sq idx) f }

/-! ### Sending, counting, free values -/

/-- Send. -/
def emit (e : Emission) (s : State) : State := { s with sent := e :: s.sent }

/-- Add to counter `i` of counter set `set` (R471): 64 bits, wrapping. -/
def countBy (set i n : Nat) (s : State) : State :=
  { s with counters := Tab.upd s.counters (set * 8192 + i) 0 (· + BitVec.ofNat 64 n) }

/-- Count one event (R471). -/
def count (set i : Nat) (s : State) : State := countBy set i 1 s

/-- Count an event for which R475 names no counter: UNNAMED_COUNTED. -/
def countUnnamed (s : State) : State := count 520 8 s

/-- Add a sample to a latency histogram (R476): `n` ticks of 1.6 ns. -/
def histogram (h n : Nat) (s : State) : State := count 530 (1024 * h + min 1023 (n * 8 / 50)) s

/-- Draw the next free value's number. -/
def drawFree (s : State) : Nat × State := (s.freeCtr, { s with freeCtr := s.freeCtr + 1 })

/-- The block runs: neither in a warm re-init nor halted (R405, R408). -/
def running (s : State) : Bool := s.fc.dstate == .normal

/-- An effect that only a running block has. -/
def whenRunning (f : State → State) (s : State) : State := if running s then f s else s

/-- The next state of a meaning. -/
def done (s : State) : Host.Outcome State Fault Refusal := .next s

/-! ### Fuses, modes, links -/

/-- Whether link `n` is present (R292, R452). -/
def linkPresent (s : State) (n : Nat) : Bool :=
  n == 0 || n == 2 || (n == 1 && s.castOnFuse.getLsbD 1) || (n == 3 && s.castOnFuse.getLsbD 2)

/-- The manager link (R294, R452). -/
def mgrLink (s : State) : Nat :=
  let n := fld s.castOnFuse 4 3
  if linkPresent s n then n else 0

/-- Link `n` is one of two x8 links (R292). -/
def linkX8 (s : State) (n : Nat) : Bool := if n < 2 then s.castOnFuse.getLsbD 1 else s.castOnFuse.getLsbD 2

/-- The vectors of a link's MSI-X table (R314). -/
def msixVectors (s : State) (n : Nat) : Nat := if linkX8 s n then 1024 else 2048

/-- The host port's fault source of a link (R389). -/
def hostSource (link : Nat) : Nat := if link < 2 then 48 else 49

/-! ### Device-to-host requests (10) -/

/-- Whether a request is a flag write (R305). -/
def HostOut.isFlag : HostOut → Bool
  | .write _ _ _ f => f
  | .msix _ _ _ => true
  | _ => false

/-- The bytes of host memory that a request touches. -/
def HostOut.range : HostOut → Nat × Nat
  | .read _ _ a n => (a, n)
  | .write _ a d _ => (a, d.length)
  | .atomic _ _ a n _ _ _ => (a, n)
  | .msix _ _ _ => (0, 0)

/-- Before a CXL.io request to a line that the coherent window cache holds, the copy is invalidated; a modified one
is written back first (R313). -/
def cwcYield (link addr len : Nat) (s : State) : State :=
  let hit := s.cwc.filter (fun l => l.1 / 2 ^ 64 == link && overlaps (l.1 % 2 ^ 64 * 64) 64 addr len)
  hit.foldl (fun s l =>
    let line := l.1 % 2 ^ 64
    let s := { s with cwc := Tab.del s.cwc l.1 }
    if l.2.modified then
      emit (.cxlWriteBack link line l.2.data) (s.updLink link (fun k => { k with cacheWrites := line :: k.cacheWrites }))
    else s) s

/-- Whether a link carries no device-to-host request now: D3hot (R316), a lost data link layer (R315), or a warm re-init
(R409). -/
def linkHeld (s : State) (link : Nat) : Bool := (s.link link).d3 || (s.link link).lostAt.isSome || s.fc.dstate == .reinit

/-- Whether a halted device still sends a request: vector 2 of the manager link only (R405). -/
def haltSends (s : State) (link : Nat) : HostOut → Bool
  | .msix v _ _ => s.fc.dstate != .halted || (v == 2 && link == mgrLink s)
  | _ => s.fc.dstate != .halted

/-- Send a device-to-host request: it waits while the link is held, and a flag write waits for earlier CXL.cache writes
(R305). -/
def hostSend (link : Nat) (r : HostOut) (s : State) : State :=
  if !haltSends s link r then s
  else
  let s := cwcYield link r.range.1 r.range.2 s
  let l := s.link link
  if linkHeld s link || !l.waiting.isEmpty then
    s.updLink link (fun l => { l with waiting := l.waiting ++ [r] })
  else if r.isFlag && !(l.cacheWrites.isEmpty && l.flags.isEmpty) then
    s.updLink link (fun l => { l with flags := l.flags ++ [r] })
  else emit (.host link r) s

/-- The tag of a link's next non-posted request: at most 8,192 are outstanding (R295), so a number from 8,192 on
names a request that waits for a tag. -/
def nextTag (l : Link) : Nat := gapFrom 0 (l.reqs.map (·.1))

/-- PASID of a request: a slice's, or none for the manager function (R304). -/
def reqPasid (s : State) (r : HostReq) : Option Nat := r.slice.map (fun x => (s.slice x).pasid)

/-- A non-posted request under its tag. -/
def reqOut (s : State) (tag : Nat) (r : HostReq) : HostOut :=
  match r.aop with
  | some (o, a, b) => .atomic tag (reqPasid s r) r.addr r.len o a b
  | none => .read tag (reqPasid s r) r.addr r.len

/-- Free a tag, and give it to the request that waits for one longest (R295). -/
def freeTag (link tag : Nat) (s : State) : State :=
  let s := s.updLink link (fun l => { l with reqs := Tab.del l.reqs tag })
  match (s.link link).reqs.find? (fun e => decide (8192 ≤ e.1)) with
  | some (t, r) =>
    let s := s.updLink link (fun l => { l with reqs := Tab.put (Tab.del l.reqs t) tag r })
    hostSend link (reqOut s tag r) s
  | none => s

/-- Send one MSI-X message, or set its pending bit where it is masked (R314). -/
def sendMsix (link v : Nat) (s : State) : State :=
  let l := s.link link
  let e := Tab.getD l.msix v {}
  if !haltSends s link (.msix v 0 0) then s
  else if l.fnMask || e.ctrl.getLsbD 0 || s.fc.dstate == .reinit then
    s.updLink link (fun l => { l with msixPend := if l.msixPend.contains v then l.msixPend else v :: l.msixPend })
  else count 525 (256 * link + 5) (hostSend link (.msix v e.addr e.data) s)

/-- Send the pending messages of a link whose masks are clear now (R314). -/
def releaseMsix (link : Nat) (s : State) : State :=
  (s.link link).msixPend.foldl (fun s v =>
    let l := s.link link
    if s.fc.dstate == .reinit || l.fnMask || (Tab.getD l.msix v {}).ctrl.getLsbD 0 then s
    else sendMsix link v (s.updLink link (fun l => { l with msixPend := l.msixPend.filter (· ≠ v) }))) s

/-- Make a non-posted request: it is sent once it has a tag. -/
def hostRequest (link : Nat) (r : HostReq) (s : State) : State :=
  let t := nextTag (s.link link)
  let s := s.updLink link (fun l => { l with reqs := Tab.put l.reqs t r })
  if t < 8192 then hostSend link (reqOut s t r) s else s

/-- Pieces of a host write: at most the Max Payload Size, never across 4 KiB (R304). -/
def hostWritePieces (l : Link) (addr len : Nat) : List (Nat × Nat × Nat) := cut4k l.maxPayload addr len

/-- A host write for a slice, or for the manager (no PASID), with the pieces of R304. -/
def hostWrite (link : Nat) (pasid : Option Nat) (addr : Nat) (data : List Byte) (flag : Bool) (s : State) : State :=
  (hostWritePieces (s.link link) addr data.length).foldl
    (fun s p => hostSend link (.write pasid p.2.1 (slice data p.1 p.2.2) flag) s) s

/-- A host read in pieces of at most the Max Read Request Size (R304). Gives the pieces; `purp` names what each
serves by its offset. -/
def hostRead (link : Nat) (sl : Option Nat) (addr len : Nat) (purp : Nat → Purpose) (s : State) : Nat × State :=
  (cut4k (s.link link).maxRead addr len).foldl (fun r p =>
    (r.1 + 1, hostRequest link { purp := purp p.1, addr := p.2.1, len := p.2.2, slice := sl, since := r.2.ticks } r.2)) (0, s)

/-! ### Die links (11) -/

/-- The modules of die port `p` (00_scope, Names). -/
def portModules (p : Nat) : List Nat := (List.range 6).map (6 * p + ·)

/-- The active modules of a die port, ascending (R335). -/
def activeModules (s : State) (p : Nat) : List Nat := (portModules p).filter (fun m => (s.mod m).active)

/-- The die port that serves a DPA (R121, R335); none in a reserved range or in HBM that is not installed: no request is ever
issued there. -/
def dpaPort (s : State) (dpa : Nat) : Option Nat :=
  if dpa < s.hbmGib <<< 30 then some (fld s.dlRoute (2 * (dpa >>> 36) + 1) (2 * (dpa >>> 36)))
  else if 0x080000000000 ≤ dpa ∧ dpa < 0x0C0000000000 then some ((dpa - 0x080000000000) >>> 40)
  else none

/-- The module that a request for a DPA goes to (R335); none where no die answers there. -/
def dpaModule (s : State) (dpa : Nat) : Option Nat :=
  match dpaPort s dpa with
  | none => none
  | some p =>
    let act := activeModules s p
    if (s.die p).attached && !act.isEmpty then act[(dpa >>> 12) % act.length]? else none

/-- The flits a command takes: the command flit and its data flits (R336). -/
def cmdFlits (c : DlCmd) : Nat := 1 + (if c.data.isEmpty then 0 else ceilDiv c.data.length 256)

/-- Whether a command is a response, which travels on response credits (R343). -/
def isRsp (c : DlCmd) : Bool := c.cmd == 0x10 || c.cmd == 0x11

/-- The flits a module's replay buffer holds (R343). -/
def replayFlits (m : Module) : Nat := (m.replay.map (fun e => cmdFlits e.2.1)).foldl (· + ·) 0

/-- Whether a module has credits and replay room for a command (R343). -/
def canSend (m : Module) (c : DlCmd) : Bool :=
  let d := cmdFlits c - 1
  m.up && (if isRsp c then decide (0 < m.credRsp) else decide (0 < m.credReq)) && decide (d ≤ m.credData) &&
    decide (replayFlits m + d + 1 ≤ 128)

/-- Send a command on a module now: one command in each command flit (DEDUCED, log 18). -/
def dlSendNow (mi : Nat) (c : DlCmd) (s : State) : State :=
  let m := s.mod mi
  let s := emit (.flit mi m.nextFseq false c) s
  let s := count 526 (64 * mi) s
  s.updMod mi (fun m => { m with
    nextFseq := m.nextFseq + 1
    credReq := if isRsp c then m.credReq else m.credReq - 1
    credRsp := if isRsp c then m.credRsp - 1 else m.credRsp
    credData := m.credData - (cmdFlits c - 1)
    replay := m.replay ++ [(m.nextFseq, c, 0)] })

/-- Send a command on a module, or let it wait for credits behind those of its kind. -/
def dlSend (mi : Nat) (c : DlCmd) (s : State) : State :=
  let m := s.mod mi
  if canSend m c && (m.waiting.all (fun w => isRsp w != isRsp c)) then dlSendNow mi c s
  else s.updMod mi (fun m => { m with waiting := m.waiting ++ [c] })

/-- Send what waits on a module and can go now, responses and requests each in order. -/
def dlDrain : Nat → Nat → State → State
  | 0, _, s => s
  | fuel + 1, mi, s =>
    let m := s.mod mi
    let go (r : Bool) : Option DlCmd := (m.waiting.find? (fun w => isRsp w == r)).filter (canSend m)
    match go true, go false with
    | some c, _ => dlDrain fuel mi (dlSendNow mi c (s.updMod mi (fun m => { m with waiting := m.waiting.erase c })))
    | none, some c => dlDrain fuel mi (dlSendNow mi c (s.updMod mi (fun m => { m with waiting := m.waiting.erase c })))
    | none, none => s

/-- A free transaction ID of a module (R338). -/
def freeTxn (m : Module) : Nat := (Tab.freeKey m.reqs 0 65536).getD 0

/-- The line of the HDM directory that stands in the way of an access (R311): a line a host holds
modified for a read, a line any host holds for a write. -/
def hdmConflict (s : State) (dpa len : Nat) (wr : Bool) : Option (Nat × HdmLine) :=
  s.hdm.find? (fun p => overlaps (p.1 * 64) 64 dpa len && (wr || p.2.modified))

/-- Issue one memory command of Tsucen, cut to one 4 KiB block, on the module of its DPA (R335); none where
the request fails as an error response. -/
def dlIssueNow (purp : Purpose) (c : DlCmd) (s : State) : Option State :=
  match dpaModule s c.addr with
  | none => none
  | some mi =>
    let t := freeTxn (s.mod mi)
    let c := { c with txn := t }
    let s := s.updMod mi (fun m => { m with reqs := Tab.put m.reqs t { purp := purp, cmd := c, since := s.ticks } })
    some (dlSend mi c s)

/-- Let a memory access wait for a host to give up a line (R311): the host is asked once. -/
def askBack (link line : Nat) (wantData : Bool) (purp : Purpose) (c : DlCmd) (s : State) : State :=
  let asked := s.biWait.any (fun w => w.line == line && w.link == link)
  let s := { s with biWait := s.biWait ++ [{ link := link, line := line, purp := purp, cmd := c }] }
  if asked then s else count 525 (256 * link + 6) (emit (.backInvalidate link line wantData) s)

/-- An access that waits for a host already and shares bytes with another: the other stays behind it (R302). -/
def waitsBefore (s : State) (addr len : Nat) : Option BiWait :=
  s.biWait.find? (fun w => overlaps addr len w.cmd.addr (w.cmd.len + 1))

/-- Issue one memory command of Tsucen or of a BAR 2 request: a line held by a host is back-invalidated first (R311). -/
def dlIssue (purp : Purpose) (c : DlCmd) (s : State) : Option State :=
  if (dpaModule s c.addr).isNone then none
  else
    match hdmConflict s c.addr (c.len + 1) (c.cmd != 1), waitsBefore s c.addr (c.len + 1) with
    | some (line, h), _ => some (askBack h.link line (c.cmd == 1) purp c s)
    | none, some w => some { s with biWait := s.biWait ++ [{ w with purp := purp, cmd := c }] }
    | none, none => dlIssueNow purp c s

/-- An outstanding request of this purpose. -/
def outstandingFor (s : State) (p : Purpose) : Bool :=
  s.mods.any (fun m => m.2.reqs.any (fun r => r.2.purp == p)) || s.links.any (fun l => l.2.reqs.any (fun r => r.2.purp == p)) ||
    s.biWait.any (fun w => w.purp == p)

/-- The access tag of a context (R123). -/
def accessTag (s : State) (ctx : Nat) : BitVec 24 :=
  let c := s.ctx ctx
  BitVec.ofNat 24 (c.slice <<< 15 ||| ctx <<< 3 ||| c.epoch.toNat % 8)

/-- A sealed DPA range (R441). -/
def isSealed (s : State) (dpa len : Nat) : Bool := s.fnd.sealTab.any (fun r => overlaps dpa len r.base r.len)

/-- The stash and the image store (R414, R433). -/
def inStash (s : State) (dpa len : Nat) : Bool :=
  match s.sc.stash with
  | none => false
  | some g => overlaps dpa len (g <<< 30) (576 <<< 20)

/-- Installed HBM (R121). -/
def inHbm (s : State) (dpa len : Nat) : Bool := decide (dpa + len ≤ s.hbmGib <<< 30)

/-- A MEM_RD (R339). -/
def cmdRead (atag : BitVec 24) (cls addr len : Nat) : DlCmd :=
  { cmd := 1, txn := 0, atag := atag, cls := cls, len := len - 1, addr := addr }

/-- A MEM_WR (R339). -/
def cmdWrite (atag : BitVec 24) (cls addr : Nat) (data : List Byte) : DlCmd :=
  { cmd := 2, txn := 0, atag := atag, cls := cls, len := data.length - 1, addr := addr, data := data }

/-- An ATOMIC: OPERAND_A in bytes 0-15, OPERAND_B in bytes 16-31 (R340). -/
def cmdAtomic (atag : BitVec 24) (cls addr size aop : Nat) (a b : BitVec 128) : DlCmd :=
  let d := leBytes 16 a.toNat ++ leBytes 16 b.toNat
  { cmd := 3, txn := 0, atag := atag, cls := cls, len := size - 1, addr := addr, aux := aop, data := d }

/-- Where a context's memory request goes: device memory by DPA, or host memory on its slice's link. -/
structure MemAt where
  host : Bool
  addr : Nat
  deriving DecidableEq, Repr

/-- Read memory on behalf of a context: device memory in requests of at most 4 KiB (R335), host memory as
R304 states. Answers how many requests are outstanding and whether all could be issued. -/
def memRead (ctx : Nat) (a : MemAt) (len : Nat) (purp : Nat → Purpose) (s : State) : Nat × Bool × State :=
  if a.host then
    let sl := (s.ctx ctx).slice
    let r := hostRead (s.slice sl).link (some sl) a.addr len purp s
    (r.1, true, r.2)
  else
    (cut4k 4096 a.addr len).foldl (fun r p =>
      match dlIssue (purp p.1) (cmdRead (accessTag s ctx) 0 p.2.1 p.2.2) r.2.2 with
      | none => (r.1, false, r.2.2)
      | some s' => (r.1 + 1, r.2.1, s')) (0, true, s)

/-- Write memory on behalf of a context. A host write is posted and is complete where it is sent, since
R305 orders it ahead of every later flag of its link (R55); device memory answers each request. -/
def memWrite (ctx : Nat) (a : MemAt) (data : List Byte) (flag : Bool) (purp : Nat → Nat → Purpose) (s : State) :
    Nat × Bool × State :=
  if a.host then
    let x := s.slice (s.ctx ctx).slice
    (0, true, hostWrite x.link (some x.pasid) a.addr data flag s)
  else
    (cut4k 4096 a.addr data.length).foldl (fun r p =>
      match dlIssue (purp p.1 p.2.2) (cmdWrite (accessTag s ctx) 0 p.2.1 (slice data p.1 p.2.2)) r.2.2 with
      | none => (r.1, false, r.2.2)
      | some s' => (r.1 + 1, r.2.1, s')) (0, true, s)

/-- An atomic on device memory for a context (R340). -/
def memAtomic (ctx : Nat) (dpa size aop : Nat) (a b : BitVec 128) (purp : Purpose) (s : State) : Option State :=
  dlIssue purp (cmdAtomic (accessTag s ctx) 0 dpa size aop a b) s

end Sys2Proof.Machine
end

