-- ==== Sys2Proof/Machine/Flags.lean ====
section
/-! DEFINITION. Status codes and the flag computations of the spec: completion statuses (R83), marker
records and their flags (R48-R53), extent failure causes (R403). -/

namespace Sys2Proof.Machine

/-! ### Completion status codes (R83, R210, R234, R264) -/

def stGood : Nat := 0
def stPartial : Nat := 1
def stFlushed : Nat := 2
def stAborted : Nat := 3
def stContextLost : Nat := 4
def stStaleHandle : Nat := 5
def stProtection : Nat := 6
def stMalformed : Nat := 7
def stOutOfPanel : Nat := 8
def stMarkerRange : Nat := 9
def stMarkerError : Nat := 10
def stUnsupportedQp : Nat := 11
def stUnsupportedTarget : Nat := 12
def stTransport : Nat := 13
def stQuota : Nat := 14
def stGaugePair : Nat := 32
def stGaugeLength : Nat := 33
def stPlyFormat : Nat := 34
def stCollGroup : Nat := 48
def stCollSeq : Nat := 49
def stCollUnsupported : Nat := 50
def stCollLength : Nat := 51
def stCollMismatch : Nat := 52
def stCollMemberLost : Nat := 53
def stSkeinBlockRange : Nat := 64

/-! ### Extent failure causes (R403) -/

def caRunLimit : Nat := 1
def caSourcePoison : Nat := 2
def caTargetError : Nat := 3
def caHostFailed : Nat := 4
def caPeerPlacement : Nat := 5
def caFaultFailed : Nat := 6
def caAtomicTarget : Nat := 7
def caPoisonReceived : Nat := 8
def caDiePortLost : Nat := 9
def caChartRead : Nat := 10
def caTranslation : Nat := 11

/-- A cause with the fault source that caused it. -/
def causeFrom (cause source : Nat) : Nat := cause + 256 * (source + 1)

/-- ERR_DETAIL of PARTIAL (R403): `source` where the cause carries none of its own. -/
def partialDetail (cause ext source : Nat) : Nat :=
  cause % 256 + ext * 256 + (if cause < 256 then source else cause / 256 - 1) * 65536

/-! ### Marker error codes (R49) -/

def meOpFailed : Nat := 1
def mePartial : Nat := 2
def meContextLost : Nat := 3
def meQpError : Nat := 4
def meAborted : Nat := 5
def meSliceBoundOff : Nat := 6
def meUpstream : Nat := 7
def meMemberLost : Nat := 8
def meRange : Nat := 9

/-! ### Marker records (R48-R54) -/

/-- The record that 16 bytes of memory spell (R48); its reserved FLAGS bits are written 0 (R6). -/
def markerOfBits (b : BitVec 128) : Marker :=
  { value := BitVec.ofNat 64 b.toNat, code := BitVec.ofNat 16 (bits b.toNat 79 64),
    detail := BitVec.ofNat 16 (bits b.toNat 95 80), ooo := BitVec.ofNat 16 (bits b.toNat 111 96),
    flags := BitVec.ofNat 16 (bits b.toNat 117 112) }

/-- The marker record at a key; before the marker unit first wrote it, what memory holds there. -/
def markerAt (s : State) (key : Nat) : Marker := Tab.getD s.markers key (markerOfBits (Config.memMarker key))

/-- STATUS of a record (R48). -/
def Marker.status (m : Marker) : Nat := m.code.toNat + m.detail.toNat * 65536

/-- The record as bytes (R48). -/
def Marker.bytes (m : Marker) : List Byte :=
  leBytes 8 m.value.toNat ++ leBytes 2 m.code.toNat ++ leBytes 2 m.detail.toNat ++ leBytes 2 m.ooo.toNat ++
    leBytes 2 m.flags.toNat

/-- The outcome of a signal (R51). -/
inductive SigRes where
  | rejected
  | ignored
  | applied
  deriving DecidableEq, Repr

/-- Set a bit of FLAGS. -/
def Marker.setFlag (m : Marker) (i : Nat) : Marker := { m with flags := m.flags ||| (1#16 <<< i) }

/-- A signal below VALUE (R48, R51): OOO_SATURATED is set where OOO_COUNT has reached 65,535, as the FLAGS table of R48 has
it; the pseudocode of R51 sets it one signal later, and the labelled statement governs (00_scope). -/
def Marker.late (m : Marker) : Marker :=
  let m := { m with ooo := m.ooo + 1 }
  if m.ooo.toNat = 65535 then m.setFlag 3 else m

/-- A signal of value `v` (R51). -/
def signalRecord (m : Marker) (v : Word) : SigRes × Marker :=
  if v.getLsbD 63 then
    let m := m.setFlag 1
    (.rejected, if m.status = 0 then { m with code := BitVec.ofNat 16 meRange } else m)
  else if m.status ≠ 0 then (.ignored, m.setFlag 2)
  else if m.value.toNat < v.toNat then
    let m := { m with value := v }
    (.applied, if v.toNat = 2 ^ 63 - 1 then m.setFlag 0 else m)
  else if v.toNat < m.value.toNat then
    (.applied, if m.ooo.toNat < 65535 then m.late else m.setFlag 3)
  else (.applied, m)

/-- An error written into a record: the first stands (R49). -/
def errorRecord (m : Marker) (code detail : Nat) : Marker :=
  if m.status = 0 then { m with code := BitVec.ofNat 16 code, detail := BitVec.ofNat 16 detail } else m

/-- The states of a wait (R52). -/
inductive WaitRes where
  | satisfied
  | failed
  | pending
  deriving DecidableEq, Repr

/-- A wait for target `t` (R52). -/
def waitState (m : Marker) (t : Nat) : WaitRes :=
  if t ≤ m.value.toNat then .satisfied else if m.status ≠ 0 then .failed else .pending

/-- marker.reset (R54): BOUND and EXPORTED are kept. -/
def resetRecord (m : Marker) (v : Word) : Marker :=
  { value := v, code := 0, detail := 0, ooo := 0, flags := m.flags &&& 0x0030#16 }

end Sys2Proof.Machine
end

