-- ==== Sys2Proof/Machine/Operands.lean ====
section
/-! DEFINITION. The fields of the structures a command names: panel records (R104), handles (R27),
descriptor words (R78, R79, R97, R208, R259), and resolved markers. -/

namespace Sys2Proof.Machine

/-! ### Panels (R104) -/

def Panel.valid (p : Panel) : Bool := p.p0.getLsbD 0
def Panel.targetCode (p : Panel) : Nat := fld p.p0 2 1
def Panel.target (p : Panel) : Target :=
  match p.targetCode with | 0 => .hbm | 1 => .host | 2 => .remote | _ => .aperture
def Panel.mode (p : Panel) : Nat := fld p.p0 4 3
def Panel.managed (p : Panel) : Bool := p.p0.getLsbD 5
def Panel.direct (p : Panel) : Bool := p.p0.getLsbD 6
/-- LOCAL_READ, LOCAL_WRITE, REMOTE_READ, REMOTE_WRITE, REMOTE_ATOMIC, MARKER, from bit 0 up. -/
def Panel.rights (p : Panel) : BitVec 6 := BitVec.ofNat 6 (fld p.p0 13 8)
def Panel.lenUnits (p : Panel) : Nat := fld p.p0 37 16
def Panel.bytes (p : Panel) : Nat := p.lenUnits <<< 25
def Panel.tgen (p : Panel) : Nat := fld p.p0 39 38
def Panel.setTgen (p : Panel) (g : Nat) : Panel := { p with p0 := setFld p.p0 39 38 g }
def Panel.base (p : Panel) : Nat := fld p.p1 55 0
def Panel.chart (p : Panel) : Nat := p.p2.toNat
def Panel.qpn (p : Panel) : Nat := fld p.p2 16 0
def Panel.window (p : Panel) : BitVec 32 := BitVec.ofNat 32 (fld p.p2 63 32)
def Panel.counterAddr (p : Panel) : Nat := fld p.p3 43 0
def Panel.hotShift (p : Panel) : Nat := fld p.p3 47 44
def Panel.prefetch (p : Panel) : Nat := fld p.p3 50 48
def Panel.shift (p : Panel) : Nat := if p.mode = 1 then 25 else 30
def Panel.pages (p : Panel) : Nat := p.bytes >>> p.shift

/-- Panel `i` of a context. -/
def Ctx.panel (c : Ctx) (i : Nat) : Panel := Tab.getD c.panels i {}

/-- The panel that contains a CVA (R103). -/
def panelAt (c : Ctx) (cva : Nat) : Option (Nat × Panel) :=
  (List.range 8).findSome? (fun i =>
    let p := c.panel i
    if p.valid && decide (p.base ≤ cva) && decide (cva < p.base + p.bytes) then some (i, p) else none)

/-! ### Handles (R27) -/

def moIndex (h : BitVec 32) : Nat := fld h 19 0
def moGen (h : BitVec 32) : Nat := fld h 31 20
def moHandle (i g : Nat) : BitVec 32 := BitVec.ofNat 32 (g <<< 20 ||| i)
def winIndex (h : BitVec 32) : Nat := fld h 17 0
def winGen (h : BitVec 32) : Nat := fld h 31 18
def winHandle (i g : Nat) : BitVec 32 := BitVec.ofNat 32 (g <<< 18 ||| i)

/-- A handle that is current and names a VALID object (R28, R30). -/
def moValid (s : State) (h : BitVec 32) : Bool :=
  let m := s.mo (moIndex h)
  decide (moGen h ≠ 0) && m.gen == moGen h && m.st == .valid

/-- The object a handle names. -/
def State.moOf (s : State) (h : BitVec 32) : Mo := s.mo (moIndex h)

/-- The next generation: after the highest comes 1 (R29). -/
def nextGen (g most : Nat) : Nat := if g ≥ most then 1 else g + 1

/-! ### Descriptors (R78) -/

/-- Word `i` of a descriptor. -/
def Op.w (o : Op) (i : Nat) : Word := o.ws.getD i 0

def dOpcode (w0 : Word) : Nat := fld w0 7 0
def dComplete (w0 : Word) : Bool := w0.getLsbD 8
def dSignal (w0 : Word) : Bool := w0.getLsbD 9
def dBarrier (w0 : Word) : Bool := w0.getLsbD 10
def dSbWait (w0 : Word) : Bool := w0.getLsbD 11
def dExt (w0 : Word) : Bool := w0.getLsbD 12
def dImm (w0 : Word) : Bool := w0.getLsbD 13
def dRow (w0 : Word) : Nat := fld w0 31 16
def dQueue (w0 : Word) : Nat := fld w0 47 32
def dTc (w0 : Word) : Nat := fld w0 50 48
def dSbQueue (w0 : Word) : Nat := fld w0 56 51
def dSbRow (w1 : Word) : Nat := fld w1 15 0
def dLength (w1 : Word) : Nat := fld w1 63 16
def dCva (w : Word) : Nat := fld w 55 0
def dOff (w : Word) : Nat := fld w 47 0
def dLo (w : Word) : BitVec 32 := BitVec.ofNat 32 w.toNat
def dHi (w : Word) : BitVec 32 := BitVec.ofNat 32 (w.toNat >>> 32)
def dQpn (w5 : Word) : Nat := fld w5 16 0
def dInFmt (w5 : Word) : Nat := fld w5 20 17
def dOutFmt (w5 : Word) : Nat := fld w5 24 21
def dStoch (w5 : Word) : Bool := w5.getLsbD 25
def dSat (w5 : Word) : Bool := w5.getLsbD 26
def dPly (w5 : Word) : Bool := w5.getLsbD 27
def dWindow (w5 : Word) : BitVec 32 := dHi w5

/-- The opcode of a stored descriptor. -/
def Op.opcode (o : Op) : Nat := dOpcode (o.w 0)

/-- The armed base descriptor of a TRIGGER_ARM as a descriptor (R97). -/
def armedWords (ws : List Word) : List Word := ws.drop 8

/-- Opcodes that name a QP (R79). -/
def namesQp (op : Nat) : Bool := op == 0x10 || op == 0x11 || op == 0x12 || op == 0x18 || op == 0x19 || op == 0x20

/-! ### Resolved markers -/

/-- The key of a record: its DPA, or its IOVA with link and PASID above (R119). -/
def markerKey (s : State) (ctx : Nat) (host : Bool) (addr : Nat) : Nat :=
  if host then
    let x := s.slice (s.ctx ctx).slice
    addr + (1 + x.link + x.pasid * 4) * 2 ^ 64
  else addr

/-- Whether a record lies in host memory, and its link and PASID. -/
def keyHost (key : Nat) : Option (Nat × Nat) :=
  let k := key / 2 ^ 64
  if k = 0 then none else some ((k - 1) % 4, (k - 1) / 4)

/-- The context that owns a resolved marker's record: the original's for an import (R56). -/
def markCtx (s : State) (m : MarkRef) : Nat :=
  let o := s.moOf m.mo
  match o.imported with
  | some r => (s.moOf r.mo).ctx
  | none => o.ctx

/-! ### Waits on markers (R52, R88, R90, R212) -/

/-- NLAYERS, TRIG_MODE and TRIG_BASE of a `SKEIN` (R208). -/
def skNLayers (o : Op) : Nat := fld (o.w 9) 55 48 + 1
def skTrigMode (o : Op) : Bool := (o.w 9).getLsbD 61
def skTrigBase (o : Op) : Nat := fld (o.w 12) 62 0

/-- The source marker of a layer and the target that triggers it (R212). -/
def skTrigger (o : Op) (l : Nat) : Option MarkRef × Nat :=
  if skTrigMode o then (o.skein.marks[l]?, skTrigBase o) else (o.skein.marks[0]?, skTrigBase o + l + 1)

/-- Evaluate the idle layers of a `SKEIN` against a marker (R212, R224): a layer that is triggered, or a failed
trigger, frees wait entries. -/
def Op.wakeLayers (o : Op) (key : Nat) (m : Marker) : Op :=
  (List.range (skNLayers o)).foldl (fun o l =>
    let y : Layer := Tab.getD o.skein.layers l {}
    let t := skTrigger o l
    if y.st != .idle || o.skein.trigFail.isSome || t.1.map (·.key) != some key then o
    else
      match waitState m t.2 with
      | .pending => o
      | .satisfied => { o with mwait := o.mwait - 1, skein := { o.skein with layers := Tab.put o.skein.layers l { y with st := .triggered } } }
      | .failed => { o with mwait := 0, skein := { o.skein with trigFail := some (BitVec.ofNat 32 m.status) } }) o

/-- Evaluate a held wait of a descriptor against a marker (R52): the outcome is kept. -/
def Op.wake (o : Op) (key : Nat) (m : Marker) : Op :=
  if o.done then o
  else if o.opcode = 0x20 && o.stage == .running then o.wakeLayers key m
  else if (o.stage == .waiting || o.stage == .armed) && o.woke.isNone && o.mwait ≠ 0 && o.wait.map (·.key) == some key then
    match waitState m o.target.toNat with
    | .satisfied => { o with woke := some (true, m.value) }
    | .failed => { o with woke := some (false, BitVec.ofNat 64 m.status) }
    | .pending => o
  else o

/-- Every hardware wait on a marker is evaluated each time it changes (R52, R88). -/
def wakeWaits (key : Nat) (m : Marker) (s : State) : State := { s with ops := Tab.mapV s.ops (fun _ o => o.wake key m) }

end Sys2Proof.Machine
end

