-- ==== Sys2Proof/Machine/Translate.lean ====
section
/-! DEFINITION. Translation (04): panel rights, charts, walks, the pending-fault table and the fault ring. -/

namespace Sys2Proof.Machine

/-- What a translation answers. `miss` needs a walk; `fault` is a non-present page of a MANAGED panel. -/
inductive TrRes where
  | ok (e : Ext)
  | fail (status : Nat)
  | miss (panel page : Nat)
  | fault (panel page : Nat)
  | chartFailed (group : Nat)
  | faultFailed
  deriving DecidableEq, Repr

/-- An access to translate (R110): context, CVA, bytes used (for R441), kind, and for a remote access the
panel right of its kind by bit number. -/
structure Acc where
  ctx : Nat
  cva : Nat
  len : Nat := 1
  kind : AccKind
  remote : Option Nat := none
  direct : Bool := false
  deriving DecidableEq, Repr

/-- Whether the panel's rights allow an access (R110). -/
def panelAllows (p : Panel) (a : Acc) : Bool :=
  (!a.direct || (p.direct && p.targetCode == 1)) &&
  match a.kind, a.remote with
  | .marker, _ => p.rights.getLsbD 5
  | _, some r => p.rights.getLsbD r
  | .read, none => p.rights.getLsbD 0
  | _, none => p.rights.getLsbD 1

/-- Chart entry fields (R108). -/
def cePresent (e : Word) : Bool := e.getLsbD 0
def ceLoc (e : Word) : Bool := e.getLsbD 1
def ceRead (e : Word) : Bool := e.getLsbD 2
def ceWrite (e : Word) : Bool := e.getLsbD 3
def ceCount (e : Word) : Bool := e.getLsbD 4
/-- The target address of an entry: bits [63:25] in place. -/
def ceAddr (e : Word) : Nat := (fld e 63 25) <<< 25

/-- A malformed PRESENT entry (R109). -/
def ceMalformed (s : State) (p : Panel) (e : Word) : Bool :=
  cePresent e &&
  ((ceLoc e && p.targetCode == 1 && !p.managed) || (!ceLoc e && p.targetCode == 0) ||
   (p.mode == 2 && fld e 29 25 != 0) || (ceLoc e && fld e 63 44 != 0) ||
   (ceLoc e && (!inHbm s (ceAddr e) (2 ^ p.shift) || inStash s (ceAddr e) (2 ^ p.shift))))

/-- What a requester already saw of a page (R110). -/
def seenOf (s : State) (purp : XPurp) (ctx panel page : Nat) : Option Seen :=
  (s.xlt.seen.find? (fun x => x.purp == purp && x.ctx == ctx && x.panel == panel && x.page == page)).map (·.what)

/-- The chart cache's entry for a page at the panel's TGEN (R117). -/
def chartGet (s : State) (ctx panel page tgen : Nat) : Option Word :=
  (s.xlt.cache.find? (fun l => l.ctx == ctx && l.panel == panel && l.page == page && l.tgen == tgen)).map (·.entry)

/-- How many of the pages after a page are contiguous with it in the cache, with equal attributes (R112). -/
def contigPages (s : State) (ctx panel : Nat) (p : Panel) : Nat → Nat → Word → Nat
  | 0, _, _ => 0
  | fuel + 1, page, e =>
    if page + 1 < p.pages then
      match chartGet s ctx panel (page + 1) p.tgen with
      | some e' =>
        if cePresent e' && !ceMalformed s p e' && ceAddr e' == ceAddr e + 2 ^ p.shift && fld e' 4 1 == fld e 4 1 then
          1 + contigPages s ctx panel p fuel (page + 1) e'
        else 0
      | none => 0
    else 0

/-- A translated target that may be read or written (R441): a read, an atomic or a marker may not reach a
sealed DPA. -/
def sealGuard (s : State) (a : Acc) (e : Ext) : TrRes :=
  if e.target == .hbm && a.kind != .write && isSealed s e.base (min a.len e.len) then .fail stProtection else .ok e

/-- Translate one access (R110), for the requester `purp`. -/
def translate (s : State) (purp : XPurp) (a : Acc) : TrRes :=
  match panelAt (s.ctx a.ctx) a.cva with
  | none => .fail stOutOfPanel
  | some (i, p) =>
    if !panelAllows p a then .fail stProtection
    else
      let off := a.cva - p.base
      if p.mode = 0 then
        let base := if p.targetCode = 2 then off else p.p2.toNat + off
        sealGuard s a { addr := 0, cva := a.cva, target := p.target, base := base, len := p.bytes - off, panel := i, tgen := p.tgen }
      else
        let page := off >>> p.shift
        let use (e : Word) : TrRes :=
          if !cePresent e then (if p.managed then .fault i page else .fail stOutOfPanel)
          else if ceMalformed s p e then .fail stOutOfPanel
          else if ((a.kind == .read || a.kind == .marker) && !ceRead e) || (a.kind != .read && !ceWrite e) then
            .fail stProtection
          else
            let inPage := off % 2 ^ p.shift
            let more := contigPages s a.ctx i p p.pages page e
            sealGuard s a
              { addr := 0, cva := a.cva, target := if ceLoc e then .hbm else .host, base := ceAddr e + inPage,
                len := (more + 1) * 2 ^ p.shift - inPage, panel := i, tgen := p.tgen, counted := p.managed && ceCount e && !ceLoc e }
        match chartGet s a.ctx i page p.tgen with
        | some e => use e
        | none =>
          match seenOf s purp a.ctx i page with
          | some (.entry e) => use e
          | some (.failed g) => .chartFailed g
          | some .faultFailed => .faultFailed
          | none => .miss i page

/-! ### Uses of translation generations (R127) -/

/-- Add a use of a panel's generation. -/
def addUse (u : TUse) (s : State) : State :=
  s.updCtx u.ctx (fun c => { c with uses := Tab.upd c.uses (4 * u.panel + u.tgen) 0 (· + 1) })

/-- Release a use of a panel's generation. -/
def dropUse (u : TUse) (s : State) : State :=
  s.updCtx u.ctx (fun c => { c with uses := Tab.upd c.uses (4 * u.panel + u.tgen) 0 (· - 1) })

/-- Requests of a purpose hold a use of a translation's generation until the last of them is answered. -/
def holdUse (p : Purpose) (ctx : Nat) (e : Ext) (s : State) : State :=
  if outstandingFor s p then
    let u : TUse := { ctx := ctx, panel := e.panel, tgen := e.tgen }
    addUse u { s with xuses := (p, u) :: s.xuses }
  else s

/-- The last request of a purpose was answered: its uses end. -/
def endUses (p : Purpose) (s : State) : State :=
  if outstandingFor s p then s
  else
    let us := s.xuses.filter (fun x => x.1 == p)
    us.foldl (fun s x => dropUse x.2 s) { s with xuses := s.xuses.filter (fun x => x.1 != p) }

/-- The uses of a panel's generation. -/
def useCount (s : State) (ctx panel tgen : Nat) : Nat := Tab.getD (s.ctx ctx).uses (4 * panel + tgen) 0

/-- Whether every generation of a panel but the one that an invalidation made current is unused (R128). -/
def drained (s : State) (ctx panel g : Nat) : Bool :=
  (List.range 4).all (fun k => k == g || useCount s ctx panel k == 0)

/-- Start an invalidation of kind 0 or 1 (R127): covered entries leave the cache (`pages` none for the whole
panel), and TGEN advances. -/
def startInvalidate (ctx panel : Nat) (pages : Option (Nat × Nat)) (s : State) : State :=
  let hit (l : ChartLine) : Bool := l.ctx == ctx && l.panel == panel &&
    (match pages with | none => true | some (a, b) => decide (a ≤ l.page) && decide (l.page ≤ b))
  let s := s.updXlt (fun x => { x with
    cache := x.cache.filter (fun l => !hit l)
    seen := x.seen.filter (fun y => !(y.ctx == ctx && y.panel == panel && (match y.what with | .entry _ => true | _ => false))) })
  s.updCtx ctx (fun c => { c with panels := Tab.upd c.panels panel {} (fun p => p.setTgen ((p.tgen + 1) % 4)) })

/-- Whether the generation about to become current is free of uses (R127). -/
def canInvalidate (s : State) (ctx panel : Nat) : Bool :=
  useCount s ctx panel ((((s.ctx ctx).panel panel).tgen + 1) % 4) == 0

/-! ### Walks (R110, R115, R116) -/

/-- The walks of a stream that hold slots. -/
def streamWalks (s : State) (st : Stream) : Nat := Tab.countWhere s.xlt.walks (fun _ w => w.stream == st)

/-- The walker that serves a slot: slots go round the walkers in service (log 20). -/
def walkerOf (s : State) (w : Nat) : Nat :=
  let on := (List.range 8).filter (fun k => Tab.getD s.fc.units ((32 + k / 4) * 64 + k % 4) .inService == .inService)
  on.getD (w % max 1 on.length) (w % 8)

/-- The walker group of a slot (R389). -/
def walkGroup (s : State) (w : Nat) : Nat := walkerOf s w / 4

/-- Issue one walk in a free slot: the entry is read with the context's tag (R123). A chart outside the installed memory
is never read (R121): such a walk fails at its WALK_DONE. -/
def issueWalk (k : Walk) (s : State) : State :=
  match Tab.freeKey s.xlt.walks 0 256 with
  | none => s
  | some i =>
    let s := s.updXlt (fun x => { x with walks := Tab.put x.walks i k })
    let s := count 521 (if k.purp == .prefetch then 1 else 0) s
    let p := (s.ctx k.ctx).panel k.panel
    (dlIssue (.walk i) (cmdRead (accessTag s k.ctx) 0 (p.chart + 8 * k.page) 8) s).getD s

/-- Take walks from the miss queues while slots are free: a stream other than the last one served first,
demand walks ahead of prefetch walks, at most 16 slots to a stream (R115). -/
def pumpWalks : Nat → State → State
  | 0, s => s
  | fuel + 1, s =>
    let x := s.xlt
    if x.walks.length ≥ 256 then s
    else
      let can (k : Walk) : Bool := decide (streamWalks s k.stream < 16)
      let demand := x.queue.filter (fun k => k.purp != .prefetch && can k)
      let pre := x.queue.filter (fun k => k.purp == .prefetch && can k)
      match (demand ++ pre).head? with
      | none => s
      | some k =>
        let rest := x.queue.erase k
        let rest := rest.filter (fun j => j.stream != k.stream) ++ rest.filter (fun j => j.stream == k.stream)
        pumpWalks fuel (issueWalk k (s.updXlt (fun x => { x with queue := rest })))

/-- Ask for the walk of a page for a requester, once (R114). -/
def askWalk (purp : XPurp) (st : Stream) (ctx panel page : Nat) (kind : AccKind) (s : State) : State :=
  let same (k : Walk) : Bool := k.purp == purp && k.ctx == ctx && k.panel == panel && k.page == page
  if s.xlt.queue.any same || s.xlt.walks.any (fun e => same e.2) then s
  else
    let tg := ((s.ctx ctx).panel panel).tgen
    let k : Walk := { ctx := ctx, panel := panel, page := page, tgen := tg, stream := st, purp := purp, kind := kind }
    pumpWalks 256 (s.updXlt (fun x => { x with queue := x.queue ++ [k] }))

/-- Prefetch the pages after a demand translation (R116): at most 4 outstanding for a stream. -/
def prefetch (st : Stream) (ctx panel page : Nat) (s : State) : State :=
  let p := (s.ctx ctx).panel panel
  (List.range (min p.prefetch 4)).foldl (fun s k =>
    let pg := page + 1 + k
    let out := Tab.countWhere s.xlt.walks (fun _ w => w.stream == st && w.purp == .prefetch) +
      (s.xlt.queue.filter (fun w => w.stream == st && w.purp == .prefetch)).length
    let have_ := (chartGet s ctx panel pg p.tgen).isSome ||
      s.xlt.walks.any (fun e => e.2.ctx == ctx && e.2.panel == panel && e.2.page == pg)
    if pg < p.pages && decide (out < 4) && !have_ then askWalk .prefetch st ctx panel pg .read s else s) s

/-- Put an entry into the chart cache, newest first, 8,192 in all (R117): where it is full, the least recently used
entry goes that belongs to the same slice or to a slice above its share (R352, R356). -/
def cachePut (l : ChartLine) (s : State) : State :=
  let cs := s.xlt.cache.filter (fun x => !(x.ctx == l.ctx && x.panel == l.panel && x.page == l.page && x.tgen == l.tgen))
  let sl (x : ChartLine) : Nat := (s.ctx x.ctx).slice
  let has (n : Nat) : Nat := (cs.filter (fun x => sl x == n)).length
  let may (x : ChartLine) : Bool := sl x == sl l || decide ((s.slice (sl x)).quota.getD 8 0 * 32 < has (sl x))
  if cs.length < 8192 then s.updXlt (fun x => { x with cache := l :: cs })
  else
    match cs.reverse.find? may with
    | some v => s.updXlt (fun x => { x with cache := l :: cs.erase v })
    | none => s

/-- Mark a cached entry as used last (R117). -/
def cacheTouch (ctx panel page tgen : Nat) (s : State) : State :=
  s.updXlt (fun x =>
    let is (l : ChartLine) : Bool := l.ctx == ctx && l.panel == panel && l.page == page && l.tgen == tgen
    { x with cache := x.cache.filter is ++ x.cache.filter (fun l => !is l) })

/-! ### The fault ring (R134-R136, R141) -/

/-- Whether the ring has room (R136). -/
def fringRoom (s : State) : Bool := s.xlt.enable && decide (ringDiff s.xlt.w s.xlt.c < 2 ^ s.xlt.logSize)

/-- The lap parity of a ring of 2^k records at write index `w` (R65). -/
def phaseBit (w : BitVec 24) (size : Nat) : Nat := 1 - (w.toNat / size) % 2

/-- Write one record of the fault ring, and its message where ARM is set (R134). -/
def fringWrite (rec : Nat) (s : State) : State :=
  let x := s.xlt
  let size := 2 ^ x.logSize
  let at_ := x.ringBase.toNat * 4096 + 32 * (x.w.toNat % size)
  let s := hostWrite (mgrLink s) none at_ (leBytes 32 (rec + phaseBit x.w size * 2 ^ 255)) true s
  let s := s.updXlt (fun x => { x with w := x.w + 1, arm := false })
  if x.arm then sendMsix (mgrLink s) 0 s else s

/-- SRC_KIND and SRC_ID of a stream (R135). -/
def streamCode : Stream → Nat × Nat
  | .sq n => (0, n)
  | .qp n => (1, n)
  | .direct _ => (2, 0)

/-- A fault record (R135) without PHASE. -/
def faultRecord (s : State) (entry : Nat) (f : PFault) : Nat :=
  let c := s.ctx f.ctx
  let p := c.panel f.panel
  1 + b2n f.rd * 2 ^ 8 + b2n f.wr * 2 ^ 9 + b2n f.at_ * 2 ^ 10 + f.rep * 2 ^ 12 + f.token.toNat * 2 ^ 16 +
    entry * 2 ^ 32 + (min f.joinCount 65535) * 2 ^ 48 + f.ctx * 2 ^ 64 + c.epoch.toNat * 2 ^ 76 + c.slice * 2 ^ 84 +
    f.panel * 2 ^ 93 + (p.base + f.page <<< p.shift) * 2 ^ 96 + (s.slice c.slice).gen.toNat * 2 ^ 152 +
    (streamCode f.first).1 * 2 ^ 160 + (streamCode f.first).2 * 2 ^ 168

/-- Report a pending-fault entry, or leave it in the latch summary (R136). -/
def reportFault (entry : Nat) (s : State) : State :=
  match Tab.get s.xlt.faults entry with
  | none => s
  | some f =>
    if fringRoom s then
      let s := fringWrite (faultRecord s entry f) s
      s.updXlt (fun x => { x with faults := Tab.adj x.faults entry (fun f => { f with reported := true }) })
    else
      count 521 5 (s.updXlt (fun x => { x with
        overflow := true
        summary := if x.summary.contains entry then x.summary else entry :: x.summary }))

/-- The first summary bit of a pass that began at `start` which stands `k` places or more after it (R136). -/
def nextSummary (sm : List Nat) (start k : Nat) : Option Nat :=
  let key (i : Nat) : Nat := (i + 65536 - start) % 65536
  (sm.filter (fun i => decide (k ≤ key i))).foldl (fun b i =>
    match b with | none => some i | some j => if key i < key j then some i else some j) none

/-- One pass over the summary from `start`, `k` places of it done (R136): it stops at the first place that finds the ring
without room, or at the last place of the pass, and the next scan begins where it stopped. -/
def fringPass : Nat → Nat → Nat → State → State
  | 0, _, _, s => s
  | fuel + 1, start, k, s =>
    let stop (k : Nat) (s : State) : State := s.updXlt (fun x => { x with scan := (start + k) % 65536 })
    if 65536 ≤ k then stop 65535 s
    else if !fringRoom s then stop k s
    else
      match nextSummary s.xlt.summary start k with
      | none => stop 65535 s
      | some i =>
        fringPass fuel start ((i + 65536 - start) % 65536 + 1)
          (reportFault i (s.updXlt (fun x => { x with summary := x.summary.filter (· ≠ i) })))

/-- Rumel's scan of the latch summary (R136). -/
def fringScan (s : State) : State := fringPass (s.xlt.summary.length + 1) s.xlt.scan 0 s

/-- A HOT notice (R141): discarded and counted where the ring has no room (R136). -/
def reportHot (ctx panel page cnt : Nat) (s : State) : State :=
  if fringRoom s then
    let c := s.ctx ctx
    let p := c.panel panel
    fringWrite (2 + ctx * 2 ^ 64 + c.epoch.toNat * 2 ^ 76 + c.slice * 2 ^ 84 + panel * 2 ^ 93 +
      (p.base + page <<< p.shift) * 2 ^ 96 + (s.slice c.slice).gen.toNat * 2 ^ 152 + cnt * 2 ^ 224) s
  else count 521 4 s

/-! ### Pending faults (R132, R133) -/

/-- The entry of a page. -/
def faultOf (s : State) (ctx panel page : Nat) : Option Nat :=
  (s.xlt.faults.find? (fun e => e.2.ctx == ctx && e.2.panel == panel && e.2.page == page)).map (·.1)

/-- Whether a stream's latch holds a fault on a page other than this one (R133): one that joined an entry, or one that
found the table full. -/
def latchBusy (s : State) (st : Stream) (ctx panel page : Nat) : Bool :=
  s.xlt.faults.any (fun e => e.2.joiners.any (fun j => j.stream == st) &&
    !(e.2.ctx == ctx && e.2.panel == panel && e.2.page == page)) ||
  s.xlt.latched.any (fun l => l.full && l.j.stream == st && !(l.ctx == ctx && l.panel == panel && l.page == page))

/-- The access kinds of an entry with one more joiner (R132). -/
def PFault.join (f : PFault) (j : Joiner) : PFault :=
  let new := !f.joiners.any (fun k => k.stream == j.stream)
  { f with
    joiners := if f.joiners.contains j then f.joiners else f.joiners ++ [j]
    joinCount := if new then f.joinCount + 1 else f.joinCount
    rd := f.rd || j.kind == .read || j.kind == .marker
    wr := f.wr || j.kind == .write || j.kind == .marker
    at_ := f.at_ || j.kind == .atomic }

/-- Keep a fault that no entry holds in or behind its latch, once (R132, R133). -/
def latchFault (l : Latched) (s : State) : State :=
  if s.xlt.latched.any (fun x => x.j == l.j && x.ctx == l.ctx && x.panel == l.panel && x.page == l.page) then s
  else s.updXlt (fun x => { x with latched := x.latched ++ [l] })

/-- Raise a fault or join the page's entry (R132, R133); `counted` says that its finding the table full was counted. -/
def raiseAgain (counted : Bool) (j : Joiner) (ctx panel page : Nat) (s : State) : State :=
  let sl := (s.ctx ctx).slice
  let latch (full : Bool) (s : State) : State := latchFault { j := j, ctx := ctx, panel := panel, page := page, full := full } s
  if latchBusy s j.stream ctx panel page then latch false s
  else
    match faultOf s ctx panel page with
    | some e =>
      let new := !((Tab.get s.xlt.faults e).map (fun f => f.joiners.any (fun k => k.stream == j.stream))).getD false
      let s := if new then count sl 10 s else s
      s.updXlt (fun x => { x with faults := Tab.adj x.faults e (fun f => f.join j) })
    | none =>
      match Tab.freeKey s.xlt.faults 0 65536 with
      | none => if counted then latch true s else count sl 11 (latch true s)
      | some e =>
        let tok := Tab.getD s.xlt.tokens e 0 + 1
        let f : PFault :=
          { ctx := ctx, panel := panel, page := page, token := tok, joinCount := 0, joiners := [], rd := false, wr := false,
            at_ := false, first := j.stream, since := s.ticks }
        reportFault e (count sl 9 (s.updXlt (fun x => { x with
          faults := Tab.put x.faults e (f.join j), tokens := Tab.put x.tokens e tok })))

/-- Raise a fault (R131). -/
def raiseFault (j : Joiner) (ctx panel page : Nat) (s : State) : State := raiseAgain false j ctx panel page s

/-- Give freed room to the faults that wait in or behind their latches, oldest first (R132, R133). -/
def relatch (s : State) : State :=
  let ls := s.xlt.latched
  ls.foldl (fun s l => raiseAgain l.full l.j l.ctx l.panel l.page s) (s.updXlt (fun x => { x with latched := [] }))

/-- Free a pending-fault entry. -/
def freeFault (e : Nat) (s : State) : State :=
  relatch (s.updXlt (fun x => { x with faults := Tab.del x.faults e, summary := x.summary.filter (· ≠ e) }))

/-- Walk a page again for what waited there on a fault that went without a resolution: its requester translates anew, or has
ended (R139; DEDUCED, log 115). -/
def rewalk (f : PFault) (s : State) : State :=
  f.joiners.foldl (fun s j => askWalk j.purp j.stream f.ctx f.panel f.page j.kind s) s

/-- Free a pending-fault entry whose timer expired (R138). -/
def expireFault (e : Nat) (s : State) : State :=
  match Tab.get s.xlt.faults e with
  | none => s
  | some f => rewalk f (freeFault e s)

/-- Free every entry of a context that leaves ACTIVE, and the faults of its latches (R139). -/
def freeCtxFaults (ctx : Nat) (s : State) : State :=
  let es := s.xlt.faults.filter (fun e => e.2.ctx == ctx)
  let ls := s.xlt.latched.filter (fun l => l.ctx == ctx)
  let s := s.updXlt (fun x => { x with
    faults := x.faults.filter (fun e => e.2.ctx != ctx)
    summary := x.summary.filter (fun i => !(es.map (·.1)).contains i)
    latched := x.latched.filter (fun l => l.ctx != ctx) })
  let s := es.foldl (fun s e => rewalk e.2 s) s
  relatch (ls.foldl (fun s l => askWalk l.j.purp l.j.stream l.ctx l.panel l.page l.j.kind s) s)

/-- What a requester does with a translation: go on with the extent, fail, or wait. -/
inductive TrWait where
  | ok (e : Ext)
  | fail (r : TrRes)
  | wait
  deriving DecidableEq, Repr

/-- Whether a requester waits on a fault of a page: its access goes on when the fault is resolved (R132, R133). -/
def faultWaits (s : State) (purp : XPurp) (ctx panel page : Nat) : Bool :=
  s.xlt.faults.any (fun e => e.2.ctx == ctx && e.2.panel == panel && e.2.page == page && e.2.joiners.any (fun j => j.purp == purp)) ||
    s.xlt.latched.any (fun l => l.j.purp == purp && l.ctx == ctx && l.panel == panel && l.page == page)

/-- Whether a context's memory requests are admitted by every die port (R124). -/
def admitted (c : Ctx) : Bool := c.rejecting || c.tagWait.isEmpty

/-- Let a requester wait until its context's tag is admitted (R124). -/
def fenceWait (purp : XPurp) (ctx : Nat) (s : State) : State :=
  if s.xlt.fenced.contains (purp, ctx) then s else s.updXlt (fun x => { x with fenced := x.fenced ++ [(purp, ctx)] })

/-- What a requester saw of a page is used up: a later access walks again (R111). -/
def unsee (purp : XPurp) (ctx panel page : Nat) (s : State) : State :=
  s.updXlt (fun x => { x with seen := x.seen.filter (fun y =>
    !(y.purp == purp && y.ctx == ctx && y.panel == panel && y.page == page)) })

/-- Translate for a requester, asking for the walk or raising the fault where that is needed (R110, R131); until its
context's tag is admitted it waits (R124). -/
def translateOr (purp : XPurp) (st : Stream) (a : Acc) (s : State) : TrWait × State :=
  if !admitted (s.ctx a.ctx) then (.wait, fenceWait purp a.ctx s)
  else
  match translate s purp a with
  | .ok e =>
    let p := (s.ctx a.ctx).panel e.panel
    let s := if p.mode = 0 then s else
      let pg := (a.cva - p.base) >>> p.shift
      prefetch st a.ctx e.panel pg (count 521 2 (cacheTouch a.ctx e.panel pg e.tgen s))
    (.ok e, s)
  | .miss i pg => (.wait, if faultWaits s purp a.ctx i pg then s else askWalk purp st a.ctx i pg a.kind s)
  | .fault i pg => (.wait, raiseFault { stream := st, purp := purp, kind := a.kind } a.ctx i pg (unsee purp a.ctx i pg s))
  | r => (.fail r, s)

/-- Forget what a requester saw, once it needs it no longer. -/
def forgetSeen (purp : XPurp) (s : State) : State :=
  s.updXlt (fun x => { x with seen := x.seen.filter (fun y => y.purp != purp) })

/-- Note what a requester saw of a page. -/
def noteSeen (y : SeenAt) (s : State) : State := s.updXlt (fun x => { x with seen := y :: x.seen })

/-- Where a translated extent lies for `memRead` and `memWrite`. -/
def Ext.memAt (e : Ext) (cva : Nat) : MemAt := { host := e.target == .host, addr := e.base + (cva - e.cva) }

/-! ### Memory requests through a translation (R119, R123, R140) -/

/-- Sample one host request through an entry with COUNT (R140): every 64th on a host port adds 1 to the counter of its
page; `cva` is its first byte. -/
def sampleHost (ctx : Nat) (e : Ext) (cva : Nat) (s : State) : State :=
  if !e.counted then s
  else
    let port := (s.slice (s.ctx ctx).slice).link / 2
    let n := Tab.getD s.xlt.samples port 0 + 1
    let s := s.updXlt (fun x => { x with samples := Tab.put x.samples port n })
    if n % 64 ≠ 0 then s
    else
      let p := (s.ctx ctx).panel e.panel
      let page := (cva - p.base) >>> p.shift
      (memAtomic ctx (p.counterAddr + 2 * page) 2 8 1 0 (.counter ctx e.panel page) s).getD s

/-- Sample the host requests of an access, cut as R304 cuts it, each at the page of its own first byte. -/
def sampleAll (ctx : Nat) (e : Ext) (cva : Nat) (cuts : List (Nat × Nat × Nat)) (s : State) : State :=
  if e.target == .host && e.counted then cuts.foldl (fun s p => sampleHost ctx e (cva + p.1) s) s else s

/-- Read through a translated extent. -/
def extRead (ctx : Nat) (e : Ext) (cva len : Nat) (purp : Nat → Purpose) (s : State) : Nat × Bool × State :=
  let r := memRead ctx (e.memAt cva) len purp s
  (r.1, r.2.1, sampleAll ctx e cva (cut4k (s.link (s.slice (s.ctx ctx).slice).link).maxRead (e.memAt cva).addr len) r.2.2)

/-- Write through a translated extent; `flag` marks a flag write (R305). -/
def extPut (flag : Bool) (ctx : Nat) (e : Ext) (cva : Nat) (data : List Byte) (purp : Nat → Nat → Purpose) (s : State) :
    Nat × Bool × State :=
  let r := memWrite ctx (e.memAt cva) data flag purp s
  (r.1, r.2.1, sampleAll ctx e cva (hostWritePieces (s.link (s.slice (s.ctx ctx).slice).link) (e.memAt cva).addr data.length) r.2.2)

/-- Write data through a translated extent. -/
def extWrite (ctx : Nat) (e : Ext) (cva : Nat) (data : List Byte) (purp : Nat → Nat → Purpose) (s : State) :
    Nat × Bool × State := extPut false ctx e cva data purp s

end Sys2Proof.Machine
end

