-- ==== Sys2Proof/Machine/MarkerUnit.lean ====
section
/-! DEFINITION. The marker unit (02 R48-R56): where a marker's record lies, and the signals, errors and resets that it
applies to a record, one after the other. -/

namespace Sys2Proof.Machine

/-! ### Where a record lies (R56, R111, R112) -/

/-- The object and offset that a resolved marker stands for: the original's for an import (R56). -/
def markHome (s : State) (r : MarkRef) : BitVec 32 × Nat :=
  match (s.moOf r.mo).imported with
  | some x => (x.mo, x.off)
  | none => (r.mo, r.off)

/-- The access that reaches a marker's record, in the context of its original (R48, R56). -/
def markAcc (s : State) (r : MarkRef) : Acc :=
  let h := markHome s r
  let o := s.moOf h.1
  { ctx := o.ctx, cva := o.base + h.2, len := 16, kind := .marker }

/-- A resolved marker whose record's place is known by a translation. -/
def markFound (s : State) (r : MarkRef) (a : Acc) (e : Ext) : MarkRef :=
  { r with key := markerKey s a.ctx (e.target == .host) (e.memAt a.cva).addr }

/-- A marker that a list names, at the place where its record lies now (R111): where its page's entry is in the chart cache
or it needs none; else where it was found last (DESIGN CHOICE, log 116). -/
def markNow (s : State) (r : MarkRef) : MarkRef :=
  match translate s .prefetch (markAcc s r) with
  | .ok e => markFound s r (markAcc s r) e
  | _ => r

/-! ### Records (R50, R51, R54) -/

/-- Write half of a marker record back to its memory (R50): a flag write to the host, a write with the context's tag to
device memory. -/
def storeHalf (r : MarkRef) (off : Nat) (bs : List Byte) (s : State) : State :=
  match keyHost r.key with
  | some (l, pasid) =>
    let a := markAcc s r
    let s := hostWrite l (some pasid) (r.key % 2 ^ 64 + off) bs true s
    match translate s .prefetch a with
    | .ok e => sampleAll a.ctx e (a.cva + off) [(0, r.key % 2 ^ 64 + off, bs.length)] s
    | _ => s
  | none => (dlIssue .marker (cmdWrite (accessTag s (markCtx s r)) 0 (r.key + off) bs) s).getD s

/-- The marker unit changes a record (R50): VALUE is written as one aligned 8-byte write, and so is what stands beside it;
a half that does not change is not written. -/
def storeMarker (r : MarkRef) (m : Marker) (s : State) : State :=
  let old := (markerAt s r.key).bytes
  let s := wakeWaits r.key m { s with markers := Tab.put s.markers r.key { m with wrote := s.ticks } }
  let s := if old.take 8 = m.bytes.take 8 then s else storeHalf r 0 (m.bytes.take 8) s
  if old.drop 8 = m.bytes.drop 8 then s else storeHalf r 8 (m.bytes.drop 8) s

/-- Whether a resolved marker may still be reached: an import whose original has retired may not (R56). -/
def markLive (s : State) (r : MarkRef) : Bool :=
  match (s.moOf r.mo).imported with
  | some o => moGen o.mo == (s.moOf o.mo).gen && (s.moOf o.mo).st == .valid
  | none => true

/-- The marker unit applies a signal (R50, R51). -/
def applySignal (r : MarkRef) (v : Word) (s : State) : SigRes × State :=
  let x := signalRecord (markerAt s r.key) v
  (x.1, storeMarker r x.2 s)

/-- The marker unit writes an error (R49). -/
def applyError (r : MarkRef) (code detail : Nat) (s : State) : State :=
  let m := markerAt s r.key
  if m.status = 0 then storeMarker r (errorRecord m code detail) s else s

end Sys2Proof.Machine
end

