-- ==== Sys2Proof/Machine/Residency.lean ====
section
/-! DEFINITION. The State Cache (15): which stash lines it holds, what an access to a record does to it, writebacks, ways
and their error counters, and maintenance. -/

namespace Sys2Proof.Machine

/-- Change the State Cache. -/
def updSc (f : StateCache → StateCache) (s : State) : State := { s with sc := f s.sc }

/-! ### Where a record lies, and whose it is (R413, R415, R416) -/

/-- The half and set of a stash line (offset / 256): o[8] and o[20:9]. -/
def scHome (line : Nat) : Nat × Nat := (line % 2, line / 2 % 4096)

/-- The context of the `SKEIN` that a skein slot serves (R416). -/
def skeinCtx (s : State) (slot : Nat) : Option Nat :=
  (s.ops.find? (fun e => e.2.skein.slot == some slot && !e.2.done)).map (·.2.ctx)

/-- The context that owns a line of a write-back region (R415, R416): the first record in it, where several share it. -/
def lineCtx (s : State) (line : Nat) : Option Nat :=
  let o := line * 256
  if o < 0x02000000 then none
  else if o < 0x02400000 then some ((o - 0x02000000) / 1024)
  else if o < 0x02800000 then some (s.sq ((o - 0x02400000) / 64)).ctx
  else if o < 0x02C00000 then some (s.cq ((o - 0x02800000) / 64)).ctx
  else if o < 0x02E00000 then none
  else if o < 0x03000000 then skeinCtx s ((o - 0x02E00000) / 2048)
  else if o < 0x03800000 then none
  else if o < 0x04000000 then some (s.mo (fld (s.win ((o - 0x03800000) / 32)).mo 19 0)).ctx
  else if o < 0x05000000 then none
  else if o < 0x07000000 then some (s.mo ((o - 0x05000000) / 32)).ctx
  else if o < 0x0B000000 then some (s.qp ((o - 0x07000000) / 512)).ctx
  else if o < 0x0F000000 then skeinCtx s ((o - 0x0B000000) / 65536)
  else if o < 0x17000000 then some ((o - 0x0F000000) / 32768)
  else none

/-- The slice of a line; device state belongs to none. -/
def lineSlice (s : State) (line : Nat) : Option Nat := (lineCtx s line).map (fun c => (s.ctx c).slice)

/-! ### Stash traffic (R123, R413, R415, R417) -/

/-- A request of the State Cache: CLASS DEVICE, and no tag (R123, R342). -/
def stashAsk (p : Purpose) (c : BitVec 24 → Nat → Nat → DlCmd) (off : Nat) (s : State) : State :=
  match s.sc.stash with
  | none => s
  | some g => (dlIssue p (c 0 1 ((g <<< 30) + off)) s).getD s

/-- Bytes `off` to `off + n` of the lines that a write numbered `ver` leaves in the stash: free values. -/
def stashBytes (ver off n : Nat) : List Byte := (List.range n).map (fun i => Config.stashByte ver (off + i))

/-- Read the sectors of a line that an access needs and the cache does not hold. -/
def stashFill (line : Nat) (sectors : BitVec 4) (s : State) : State :=
  ((List.range 4).filter (fun i => sectors.getLsbD i)).foldl
    (fun s i => stashAsk (.stashFill line) (fun t c a => cmdRead t c a 64) (256 * line + 64 * i) s) s

/-- Write sectors of a line to the stash. -/
def stashSectors (line : Nat) (sectors : BitVec 4) (s : State) : State :=
  let v := drawFree s
  ((List.range 4).filter (fun i => sectors.getLsbD i)).foldl
    (fun s i => stashAsk (.stashLines line 1 v.1) (fun t c a => cmdWrite t c a (stashBytes v.1 (64 * i) 64)) (256 * line + 64 * i) s) v.2

/-- The check word of a line (R417): CRC-32C of its bytes and its offset, and WRITTEN. -/
def checkWord (bs : List Byte) (line : Nat) : Nat := (crc32c (bs ++ leBytes 8 (256 * line))).toNat + 2 ^ 32

/-- A write of lines was answered: when all of it has landed, their check words are written (R417). -/
def stashLanded (line n ver : Nat) (s : State) : State :=
  if outstandingFor s (.stashLines line n ver) then s
  else
    let ls := (List.range n).map (line + ·)
    let ws := ((List.range n).map (fun i => leBytes 8 (checkWord (stashBytes ver (256 * i) 256) (line + i)))).flatten
    let s := stashAsk (.stashCheck line) (fun t c a => cmdWrite t c a ws) (0x01000000 + 8 * line) s
    { s with sc := { s.sc with written := ls.filter (fun l => !s.sc.written.contains l) ++ s.sc.written } }

/-- Where the mirror of a write-through line lies (R415): device state, then the group table. -/
def mirrorLine (line : Nat) : Nat :=
  if line < 0x01000000 / 256 then 0x17000000 / 256 + line else 0x18000000 / 256 + (line - 0x04000000 / 256)

/-- Write a record of a write-through region of whole lines, to its original and to its mirror (R416). -/
def stashThrough (line n : Nat) (s : State) : State :=
  let v := drawFree s
  [line, mirrorLine line].foldl
    (fun s l => stashAsk (.stashLines l n v.1) (fun t c a => cmdWrite t c a (stashBytes v.1 0 (256 * n))) (256 * l) s) v.2

/-- The record of a collective group, 4 KiB of a write-through region (R415). -/
def touchGroup (n : Nat) (s : State) : State := stashThrough ((0x04000000 + 4096 * n) / 256) 16 s

/-- Change a group's record, written through before the change takes effect (R416). -/
def setGroup (n : Nat) (f : Group → Group) (s : State) : State := (touchGroup n s).updGroup n f

/-! ### Ways (R413, R422) -/

/-- Disabled ways of a half. -/
def scDisabled (s : State) (half : Nat) : BitVec 16 := Tab.getD s.sc.disabled half 0

/-- The enabled ways of a half. -/
def scWays (s : State) (half : Nat) : List Nat := (List.range 16).filter (fun w => !(scDisabled s half).getLsbD w)

/-- Write a line's DIRTY sectors back (R413): its check word follows once they have landed (R417). -/
def scWriteBack (key : Nat) (s : State) : State :=
  match Tab.get s.sc.lines key with
  | none => s
  | some l =>
    if l.dirty = 0 then s
    else
      let s := count 527 2 (stashSectors l.line l.dirty s)
      updSc (fun c => { c with lines := Tab.put c.lines key { l with dirty := 0 } }) s

/-- Write a line back and drop it. -/
def scDrop (key : Nat) (s : State) : State :=
  let s := scWriteBack key s
  updSc (fun c => { c with lines := Tab.del c.lines key }) s

/-- The key of a line that the cache holds. -/
def scFind (s : State) (line : Nat) : Option Nat := (s.sc.lines.find? (fun e => e.2.line == line)).map (·.1)

/-! ### Accesses (R413, R418, R356) -/

/-- Lines of a slice, and its share: STATE_CACHE of its quota in 1/256 of 7/8 of the enabled lines. -/
def scHas (s : State) (sl : Option Nat) : Nat := Tab.countWhere s.sc.lines (fun _ e => lineSlice s e.line == sl)

/-- The share of a slice, in lines. -/
def scShare (s : State) (sl : Option Nat) : Nat :=
  let cap := ((scWays s 0).length + (scWays s 1).length) * 4096
  match sl with | none => 0 | some n => (s.slice n).quota.getD 8 0 * cap / 256

/-- A QP that is pinned: a started operation, an unacknowledged PSN or an armed tag trigger (R419). -/
def qpPinned (s : State) (qpn : Nat) : Bool :=
  let q := s.qp qpn
  !q.flight.isEmpty || !q.roce.unacked.isEmpty || !q.tagTrigs.isEmpty ||
    s.ops.any (fun e => e.2.qpn == some qpn && e.2.stage == .running && !e.2.done)

/-- Whether a stash line belongs to the record of a pinned QP, which is never evicted (R419). -/
def linePinned (s : State) (line : Nat) : Bool :=
  let o := line * 256
  decide (0x07000000 ≤ o) && decide (o < 0x0B000000) && qpPinned s ((o - 0x07000000) / 512)

/-- The line that a fill evicts, of those in a set. -/
def scVictim (s : State) (sl : Option Nat) (set : Tab ScLine) : Option Nat :=
  let set := set.filter (fun e => !linePinned s e.2.line)
  let may := set.filter (fun e => let o := lineSlice s e.2.line; o == sl || decide (scShare s o < scHas s o))
  let pool := if may.isEmpty then set else may
  (pool.foldl (fun (b : Option (Nat × ScLine)) e =>
    match b with | none => some e | some x => if e.2.lru < x.2.lru then some e else some x) none).map (·.1)

/-- An access to sectors of a stash line by an engine: a sector is read from the stash only where it is not VALID (R413). What
it holds the model knows, so the access does not wait. -/
def scTouch (line : Nat) (sectors : BitVec 4) (write : Bool) (s : State) : State :=
  let dirty : BitVec 4 := if write then sectors else 0
  let s := updSc (fun c => { c with clock := c.clock + 1 }) s
  match scFind s line with
  | some k =>
    let l := Tab.getD s.sc.lines k { line := line, valid := 0, dirty := 0, lru := 0 }
    let s := stashFill line (sectors &&& ~~~l.valid) (count 527 (if l.valid &&& sectors == sectors then 0 else 1) s)
    updSc (fun c => { c with lines := Tab.put c.lines k { l with valid := l.valid ||| sectors, dirty := l.dirty ||| dirty, lru := c.clock } }) s
  | none =>
    let s := stashFill line sectors (count 527 1 s)
    let h := scHome line
    let at_ (w : Nat) : Nat := h.1 * 65536 + h.2 * 16 + w
    let put (k : Nat) (s : State) : State :=
      updSc (fun c => { c with lines := Tab.put c.lines k { line := line, valid := sectors, dirty := dirty, lru := c.clock } }) s
    let ways := scWays s h.1
    match ways.find? (fun w => (Tab.get s.sc.lines (at_ w)).isNone) with
    | some w => put (at_ w) s
    | none =>
      let set : Tab ScLine := s.sc.lines.filter (fun e => e.1 / 16 == at_ 0 / 16 && ways.contains (e.1 % 16))
      match scVictim s (lineSlice s line) set with
      | some k => put k (scDrop k s)
      | none => s

/-- An access to a record of `size` bytes at a stash offset. -/
def scRecord (off size : Nat) (write : Bool) (s : State) : State :=
  (List.range (ceilDiv size 256)).foldl (fun s i =>
    let o := off + 256 * i
    let first := o % 256 / 64
    let n := min 4 (ceilDiv (size - 256 * i) 64)
    scTouch (o / 256) (BitVec.ofNat 4 ((2 ^ n - 1) <<< first)) write s) s

/-- The record of an SQ, of a CQ, of a QP, of a context (R415). -/
def touchSq (n : Nat) (s : State) : State := scRecord (0x02400000 + 64 * n) 64 true s
/-- The record of a CQ. -/
def touchCq (n : Nat) (s : State) : State := scRecord (0x02800000 + 64 * n) 64 true s
/-- The stash line of a QP record's first half. -/
def qpLine (n : Nat) : Nat := 0x07000000 / 256 + 2 * n

/-- The QPs whose records are resident: both their lines are VALID (R419), with the age of each. -/
def residents (s : State) : List (Nat × Nat) :=
  s.sc.lines.filterMap (fun e =>
    let n := (e.2.line - qpLine 0) / 2
    if qpLine 0 ≤ e.2.line && e.2.line % 2 == 0 && decide (n < 131072) && e.2.valid == 15 &&
        s.sc.lines.any (fun f => f.2.line == e.2.line + 1 && f.2.valid == 15) then some (n, e.2.lru) else none)

/-- Keep 16,384 QPs resident at most (R147, R419): beyond that the least recently used one that is not pinned leaves the
cache. -/
def keepResidents (s : State) : State :=
  let rs := residents s
  if rs.length ≤ 16384 then s
  else
    match (rs.filter (fun r => !qpPinned s r.1)).foldl (fun (b : Option (Nat × Nat)) r =>
        match b with | none => some r | some x => if r.2 < x.2 then some r else some x) none with
    | none => s
    | some (n, _) =>
      ((s.sc.lines.filter (fun e => e.2.line / 2 == qpLine n / 2)).map (·.1)).foldl (fun s k => scDrop k s) s

/-- The record of a QP. -/
def touchQp (n : Nat) (s : State) : State := keepResidents (scRecord (0x07000000 + 512 * n) 512 true s)
/-- The control record of a skein slot (R211). -/
def touchSkein (slot : Nat) (s : State) : State := scRecord (0x02E00000 + 2048 * slot) 2048 true s
/-- The block list and map of a skein slot (R211). -/
def touchSkeinMap (slot : Nat) (s : State) : State := scRecord (0x0B000000 + 65536 * slot) 65536 true s
/-- The record of a context. -/
def touchCtx (n : Nat) (s : State) : State := scRecord (0x02000000 + 1024 * n) 1024 true s
/-- A memory-object entry. -/
def touchMo (n : Nat) (s : State) : State := scRecord (0x05000000 + 32 * n) 32 true s
/-- A window entry. -/
def touchWin (n : Nat) (s : State) : State := scRecord (0x03800000 + 32 * n) 32 true s

/-! ### Error counters and ways (R422, R423) -/

/-- The error counter of a way. -/
def scErrs (s : State) (half way : Nat) : Nat := Tab.getD s.sc.errs (16 * half + way) 0

/-- Count an error of a way: at most 8. -/
def scErr (half way : Nat) (s : State) : State :=
  updSc (fun c => { c with errs := Tab.upd c.errs (16 * half + way) 0 (fun n => min 8 (n + 1)) }) s

/-- How many ways of a half are disabled. -/
def scOff (s : State) (half : Nat) : Nat := 16 - (scWays s half).length

/-- Whether a way is due to disable itself: a half keeps 8 ways. -/
def wayDue (s : State) (half way : Nat) : Bool :=
  scErrs s half way == 8 && !(scDisabled s half).getLsbD way && decide (scOff s half < 8)

/-- Empty a way and set its DISABLED bit. -/
def wayOff (half way : Nat) (s : State) : State :=
  let ks := Tab.keysWhere s.sc.lines (fun k _ => k / 65536 == half && k % 16 == way)
  let s := ks.foldl (fun s k => scDrop k s) s
  updSc (fun c => { c with disabled := Tab.upd c.disabled half 0 (fun d => d ||| (1#16 <<< way)) }) s

/-- A way that passes its swatch is enabled again, with its counter at 0. -/
def wayBack (half way : Nat) (s : State) : State :=
  updSc (fun c => { c with
    disabled := Tab.upd c.disabled half 0 (fun d => d &&& ~~~(1#16 <<< way))
    errs := Tab.put c.errs (16 * half + way) 0 }) s

/-! ### Maintenance (R424) -/

/-- A running operation ends as a warm re-init begins (R424): its RESULT says so once the core is out of reset. -/
def scAbort (s : State) : State := if s.sc.busy then updSc (fun c => { c with busy := false, result := 1, linesDone := 0 }) s else s

/-- Run an operation on one line that the cache holds. -/
def scLineOp (op key : Nat) (s : State) : State :=
  if op = 1 then scWriteBack key s
  else
    let dirty : Bool := match Tab.get s.sc.lines key with | some l => l.dirty != 0 | none => false
    scDrop key (if op = 2 && dirty then count 527 4 s else s)

end Sys2Proof.Machine
end

