-- ==== Sys2Proof/Machine/Complete.lean ====
section
/-! DEFINITION. Completion (03): records and their queues, marker signals and errors of operations, retirement,
shadow words, and the fetch of the next slot. -/

namespace Sys2Proof.Machine

/-! ### Trigger tags (R100, R101, R164) -/

/-- Offer a tag to a QP's armed triggers: the oldest match fires; else it joins the early tags. -/
def offerTag (qpn : Nat) (tag : BitVec 32) (s : State) : State :=
  let q := s.qp qpn
  match q.tagTrigs.find? (fun k => (s.op k.1 k.2).any (fun o => o.woke.isNone && o.target.toNat == tag.toNat)) with
  | some k =>
    let s := s.updQp qpn (fun q => { q with tagTrigs := q.tagTrigs.filter (· ≠ k) })
    s.updOp k.1 k.2 (fun o => { o with woke := some (true, 0) })
  | none =>
    if q.earlyTags.length < 8 then s.updQp qpn (fun q => { q with earlyTags := q.earlyTags ++ [tag] })
    else count (s.ctx q.ctx).slice 23 (s.updQp qpn (fun q => { q with earlyTags := q.earlyTags.drop 1 ++ [tag] }))

/-! ### Completion queues (R65, R66, R69, R477) -/

/-- Send a message on a slice's vector (R314), unless its bind-off has passed step 3 (R360). -/
def sliceMsix (sl v : Nat) (s : State) : State :=
  let x := s.slice sl
  if x.step3 then count 520 0 s else sendMsix x.link v s

/-- Whether a CQ has room for a record (R65). -/
def cqRoom (q : Cq) : Bool := decide (ringDiff q.w q.c < q.size)

/-- The access that writes the next slot of a CQ. -/
def cqAcc (s : State) (q : Cq) : Acc :=
  let o := s.moOf q.ringMo
  { ctx := q.ctx, cva := o.base + q.ringOff + 32 * (q.w.toNat % q.size), len := 32, kind := .write }

/-- The first waiting record of a CQ is written: W advances, an armed CQ sends its message (R65, R68), and a receive
completion's tag is matched (R184). -/
def cqWritten (n : Nat) (s : State) : State :=
  let q := s.cq n
  match q.waiting with
  | [] => s
  | r :: rest =>
    let sl := (s.ctx q.ctx).slice
    let stt := r.image % 256
    let s := count sl 6 s
    let s := if stt ≠ 0 then count sl 7 s else s
    let s := if stt = 1 then count sl 8 s else s
    let s := s.updCq n (fun q => { q with w := q.w + 1, waiting := rest, arm := false, unwritable := false, writing := false })
    let s := touchCq n s
    let s := if q.arm then sliceMsix sl q.vector s else s
    match r.tag with
    | some (qpn, tag) => offerTag qpn tag s
    | none => s

/-- A CQ's slot cannot be written (R477): the record waits in place. -/
def cqBlocked (n : Nat) (s : State) : State := s.updCq n (fun q => { q with unwritable := true, writing := false })

/-- Whether a context's epoch or its slice's generation has moved on since a record's descriptor was fetched (R38). -/
def staleUnder (s : State) (ctx : Nat) (epoch gen : BitVec 8) : Bool :=
  (s.ctx ctx).epoch != epoch || (s.slice (s.ctx ctx).slice).gen != gen

/-- Write the record at the head of a CQ's waiting records, where its slot is free and translates; one whose epoch or
generation is no longer the current one is discarded and counted (R38). True where the next record may go. -/
def cqWriteHead (n : Nat) (s : State) : Bool × State :=
  let q := s.cq n
  match q.waiting with
  | [] => (false, s)
  | r :: rest =>
    if q.writing then (false, s)
    else if staleUnder s q.ctx r.epoch r.gen then (true, count 520 0 (s.updCq n (fun q => { q with waiting := rest })))
    else if !(q.active && cqRoom q) then (false, s)
    else
      let st := if r.qp then Stream.qp r.num else Stream.sq r.num
      let a := cqAcc s q
      match translateOr (.cqRecord n) st a s with
      | (.ok e, s) =>
        let s := forgetSeen (.cqRecord n) s
        let img := leBytes 32 (r.image + phaseBit q.w q.size * 2 ^ 191)
        let x := extPut true q.ctx e a.cva img (fun _ _ => .cqRecord n) s
        let s := holdUse (.cqRecord n) q.ctx e x.2.2
        if !x.2.1 then (false, cqBlocked n s)
        else if x.1 = 0 then (true, cqWritten n s)
        else (false, s.updCq n (fun q => { q with writing := true }))
      | (.fail _, s) => (false, cqBlocked n (forgetSeen (.cqRecord n) s))
      | (.wait, s) => (false, cqBlocked n s)

/-- Write at most so many of the records that wait on a CQ. -/
def cqWriteMany : Nat → Nat → State → State
  | 0, _, s => s
  | fuel + 1, n, s =>
    match cqWriteHead n s with
    | (true, s) => cqWriteMany fuel n s
    | (false, s) => s

/-- Write what waits on a CQ, in order, while it can be written (R65, R66). -/
def cqFlush (n : Nat) (s : State) : State := cqWriteMany (s.cq n).waiting.length n s

/-- Post a record to a CQ of its context: discarded where the slice generation or the epoch has changed (R38). -/
def postRecord (cq ctx : Nat) (r : CqRec) (s : State) : State :=
  if staleUnder s ctx r.epoch r.gen then count 520 0 s
  else cqFlush cq (s.updCq cq (fun q => { q with waiting := q.waiting ++ [r] }))

/-- A completion record's image without PHASE (R83). -/
def recordImage (status opcode row queue : Nat) (epoch gen : BitVec 8) (bytes map detail : Nat) (result : Word) : Nat :=
  status + opcode * 2 ^ 8 + row * 2 ^ 16 + queue * 2 ^ 32 + epoch.toNat * 2 ^ 48 + gen.toNat * 2 ^ 56 + bytes * 2 ^ 64 +
    map * 2 ^ 112 + detail % 2 ^ 32 * 2 ^ 128 + result.toNat * 2 ^ 192

/-! ### Shadow words (R64) -/

def sqStateCode : SqState → Nat
  | .free => 0
  | .active => 1
  | .held => 2
  | .closed => 3

def causeCode : HeldCause → Nat
  | .none => 0
  | .doorbellAhead => 1
  | .doorbellRange => 2
  | .ringRead => 3
  | .waitFailed => 4
  | .command => 5

/-- Write an SQ's shadow word (R64): one aligned 8-byte flag write. -/
def writeShadow (n : Nat) (s : State) : State :=
  let q := s.sq n
  let c := s.ctx q.ctx
  if (s.slice c.slice).step3 then count 520 0 s
  else if !running s then s
  else
    let o := s.moOf q.shadowMo
    let a : Acc := { ctx := q.ctx, cva := o.base + q.shadowOff, len := 8, kind := .write }
    match translateOr (.shadow n) (.sq n) a s with
    | (.ok e, s) =>
      let w := q.fi.toNat + sqStateCode q.st * 2 ^ 24 + causeCode q.cause * 2 ^ 32
      let s := (extPut true q.ctx e a.cva (leBytes 8 w) (fun _ _ => .shadow n) (forgetSeen (.shadow n) s)).2.2
      let s := holdUse (.shadow n) q.ctx e s
      s.updSq n (fun q => { q with lastShadow := q.fi })
    | (_, s) => s

/-- Write the shadow word where FI has moved far enough, or has reached PI (R64). -/
def shadowIfDue (n : Nat) (s : State) : State :=
  let q := s.sq n
  if decide (ringDiff q.fi q.lastShadow ≥ q.size / 4) || q.fi == q.pi then writeShadow n s else s

/-- What a queue that stops fetching has of its fetch: a ring read that is outstanding stays so until it is answered. -/
def Fetch.stopped : Fetch → Fetch
  | .reading k => .reading k
  | .reread k n => .reread k n
  | _ => .idle

/-- Move an SQ to HELD with a cause (R76): an ACTIVE queue; a failed wait takes over the hold of a HELD one, since only
queue.resume may then let it go on (R88; DEDUCED, log 117). -/
def holdSq (n : Nat) (cause : HeldCause) (s : State) : State :=
  let q := s.sq n
  if q.st == .active || (q.st == .held && cause == .waitFailed) then
    let s := if cause == .doorbellAhead then count 520 4 s else s
    writeShadow n (s.updSq n (fun q => { q with st := .held, cause := cause, fetch := q.fetch.stopped, flush := false }))
  else s

/-- An ACTIVE or HELD SQ closes (R76): under ABORT it stops fetching. The shadow word is written with its new state and no
cause (R64). -/
def closeSq (n : Nat) (abort : Bool) (s : State) : State :=
  let q := s.sq n
  if q.st == .free then s
  else
    let t := s.updSq n (fun q => { q with
      st := .closed, cause := .none, abort := abort || q.abort, fetch := if abort then q.fetch.stopped else q.fetch })
    if q.st == .closed then t else writeShadow n t

/-! ### The descriptor store (R91) -/

/-- The descriptors of a queue in the store, armed and fired ones aside. -/
def sqOps (s : State) (n : Nat) : List (Nat × Op) := s.ops.filter (fun e => e.1 / 16777216 == n)

/-- Half `h` is not in service (R91). -/
def halfOut (s : State) (h : Nat) : Bool := (Tab.get s.fc.units ((34 + h) * 64)).any (· != .inService)

/-- The half that serves an SQ (R91). -/
def halfOf (s : State) (n : Nat) : Nat := if halfOut s (n % 2) then 1 - n % 2 else n % 2

/-- Whether the store has room for one more descriptor of a queue (R91): 8,192 in each half, 1,024 of one
queue, armed and fired ones among them, and at most 32 fetched ahead. -/
def storeRoom (s : State) (n : Nat) : Bool :=
  let own := s.ops.filter (fun e => e.1 / 16777216 % 65536 == n && !e.2.done)
  let h := halfOf s n
  let inHalf := s.ops.filter (fun e => !e.2.done && halfOf s (e.1 / 16777216) == h)
  decide (inHalf.length < 8192) && decide (own.length < 1024) &&
    decide ((own.filter (fun e => e.2.stage == .accepting || e.2.stage == .ready || e.2.stage == .waiting)).length < 32)

/-- The access that reads the `k`-th slot from FI on (R62, R75): after the last slot of the ring comes slot 0. -/
def ringAcc (s : State) (n k : Nat) : Acc :=
  let q := s.sq n
  { ctx := q.ctx, cva := (s.moOf q.ringMo).base + q.ringOff + 64 * ((q.fi.toNat + k) % q.size), len := 64, kind := .read }

/-- How the translations of a ring read come out. -/
inductive RingXlate where
  | ok (es : List (Acc × Ext))
  | fail
  | wait

/-- Translate the slots that a ring read covers, in order (R74, R114). -/
def ringXlate (n : Nat) : List Nat → State → RingXlate × State
  | [], s => (.ok [], s)
  | k :: ks, s =>
    match translateOr (.ring n) (.sq n) (ringAcc s n k) s with
    | (.ok e, s) =>
      (match ringXlate n ks s with
        | (.ok es, s) => (.ok ((ringAcc s n k, e) :: es), s)
        | r => r)
    | (.fail _, s) => (.fail, s)
    | (.wait, s) => (.wait, s)

/-- Read slots of a ring through their translations (R72). -/
def ringIssue (n : Nat) (es : List (Acc × Ext)) (s : State) : State :=
  es.foldl (fun s x => holdUse (.ring n) x.1.ctx x.2 (extRead x.1.ctx x.2 x.1.cva 64 (fun _ => .ring n) s).2.2) s

/-- The slots that a ring read covers: FI's, and the next one where the descriptor spans two. -/
def ringSlots (two : Bool) : List Nat := if two then [0, 1] else [0]

/-- Start the next ring read of a queue where it may fetch (R72, R91): FI is not PI, no read is outstanding,
and the store has room. -/
def pumpFetch (n : Nat) (s : State) : State :=
  let q := s.sq n
  let two := q.fetch == .needSecond
  let may := (q.st == .active || (q.st == .closed && !q.abort)) && q.fi != q.pi && running s &&
    (q.fetch == .idle || q.fetch == .translating || (two && decide (ringDiff q.pi q.fi ≥ 2))) && storeRoom s n
  if !may then s
  else
    match ringXlate n (ringSlots two) s with
    | (.ok es, s) =>
      (ringIssue n es (forgetSeen (.ring n) s)).updSq n (fun q => { q with fetch := .reading (if two then 2 else 1) })
    | (.fail, s) => holdSq n .ringRead ((forgetSeen (.ring n) s).updSq n (fun q => { q with fetch := .idle }))
    | (.wait, s) => s.updSq n (fun q => { q with fetch := if two then .needSecond else .translating })

/-- Fetch for every queue that may (R91). -/
def pumpAll (s : State) : State := (s.sqs.map (·.1)).foldl (fun s n => pumpFetch n s) s

/-! ### Uses held by descriptors (R42, R127) -/

/-- Add a use of an object's generation (R42). -/
def useMo (h : BitVec 32) (s : State) : State := s.updMo (moIndex h) (fun m => { m with uses := m.uses + 1 })

/-- Release a use of an object's generation, where that generation still stands. -/
def unuseMo (h : BitVec 32) (s : State) : State :=
  s.updMo (moIndex h) (fun m => if m.gen = moGen h then { m with uses := m.uses - 1 } else m)

/-- Release what a descriptor holds. -/
def releaseOp (o : Op) (s : State) : State :=
  let s := o.mos.foldl (fun s h => unuseMo h s) s
  o.tuses.foldl (fun s u => dropUse u s) s

/-! ### Retirement and the end of a queue -/

/-- Advance RI over completed descriptors in slot order (R62, R86). -/
def retire : Nat → Nat → State → State
  | 0, _, s => s
  | fuel + 1, n, s =>
    let ri := (s.sq n).ri
    match s.op n ri.toNat with
    | some o =>
      if o.done then
        retire fuel n ({ s with ops := Tab.del s.ops (opKey n ri.toNat) }.updSq n (fun q => { q with ri := q.ri + BitVec.ofNat 24 o.slots }))
      else s
    | none => s

/-- The landed extents of an operation: EXTENT_MAP (R96). -/
def extentMap (o : Op) : Nat :=
  (o.work.zipIdx.map (fun e => if e.1.st == .landed then 2 ^ e.2 else 0)).foldl (· + ·) 0

/-- The landed extents' source bytes: BYTES_DONE (R96). -/
def bytesDone (o : Op) : Nat := (o.work.map (fun e => if e.st == .landed then e.len else 0)).foldl (· + ·) 0

/-- The error a failed operation's marker receives (R49, R58). -/
def failCode (o : Op) (status : Nat) : Nat :=
  if o.upstream then meUpstream
  else if status = stPartial then mePartial
  else if status = stCollMemberLost ∨ status = stCollMismatch then meMemberLost
  else meOpFailed

/-- The completion marker's part of a completion (R55, R58): the value on good status, else the error. Answers
the status that the signal leaves (R51, R56). -/
def completeMarker (o : Op) (status : Nat) (s : State) : Nat × State :=
  match o.sig with
  | none => (status, s)
  | some r =>
    if !markLive s r then (if status = stGood then stStaleHandle else status, s)
    else if status = stGood then
      match applySignal r (o.w 7) s with
      | (.rejected, s) => (stMarkerRange, s)
      | (_, s) => (status, s)
    else
      let det := if failCode o status = meMemberLost then fld (o.w 9) 11 0 else dRow (o.w 0)
      (status, applyError r (failCode o status) det s)

/-- ERR_DETAIL of a completion (R83): where the signal changed the status, the offset of SIG_MO for a handle that is
stale, else 0. -/
def endDetail (status status' detail : Nat) : Nat :=
  if status' = status then detail else if status' = stStaleHandle then 0x30 else 0

/-- An armed descriptor that ends leaves the QP whose tag it waited for (R102). -/
def dropTrig (sq idx : Nat) (s : State) : State :=
  if sq < 65536 then s
  else { s with qps := Tab.mapV s.qps (fun _ q => { q with tagTrigs := q.tagTrigs.filter (· ≠ (sq, idx)) }) }

/-- Form the completion of a descriptor (R83): the marker, then the record where COMPLETE is set or the
status is not good; then its uses end and it retires (R86). A fired
armed descriptor stands under SQ number + 65,536, since its arm has retired (R98). -/
def completeNow (sq idx status detail : Nat) (s : State) : State :=
  match s.op sq idx with
  | none => s
  | some o =>
    if o.done then s
    else
      let q := sq % 65536
      let stale := staleUnder s o.ctx o.epoch o.gen
      let m := if stale then (status, s) else completeMarker o status s
      let status' := m.1
      let detail' := endDetail status status' detail
      let s := m.2
      let w0 := o.w 0
      let img := recordImage status' (if o.stage == .ended then 0xFF else o.opcode) (dRow w0) q o.epoch o.gen (bytesDone o)
        (extentMap o) detail' o.result
      let r : CqRec := { image := img, qp := false, num := q, ticks := s.ticks, epoch := o.epoch, gen := o.gen }
      let s := if status' ≠ stGood || dComplete w0 then postRecord (s.sq q).cq o.ctx r s else s
      let s := releaseOp o s
      let s := s.updOp sq idx (fun o => { o with
        done := true, status := status', detail := detail', mos := [], tuses := [], exts := [], mwait := 0 })
      let s := if sq < 65536 then s else dropTrig sq idx { s with ops := Tab.del s.ops (opKey sq idx) }
      retire 2048 q s

/-- Whether every descriptor of a queue before an index has completed (R85). -/
def earlierDone (s : State) (sq idx : Nat) : Bool :=
  let ri := (s.sq sq).ri
  (sqOps s sq).all (fun e => e.2.done ||
    decide (ringDiff (BitVec.ofNat 24 (e.1 % 16777216)) ri ≥ ringDiff (BitVec.ofNat 24 idx) ri))

/-- Whether everything before a fired descriptor's arm has completed (R84, R98). -/
def armPassed (s : State) (sq idx : Nat) : Bool :=
  decide (2 ^ 23 ≤ ringDiff (BitVec.ofNat 24 idx) (s.sq sq).ri) || earlierDone s sq idx

/-- Whether BARRIER, which `MARKER_SIGNAL` implies, still holds a descriptor back: it completes after every earlier
descriptor of its queue (R79, R84). -/
def barrierHolds (s : State) (sq idx : Nat) (o : Op) : Bool :=
  (dBarrier (o.w 0) || o.opcode == 0x30) && o.stage != .running &&
    !(if sq < 65536 then earlierDone s sq idx else armPassed s (sq % 65536) idx)

/-- Complete what BARRIER has held back in a queue, once its turn has come (R84). -/
def endBarriers : Nat → Nat → State → State
  | 0, _, s => s
  | fuel + 1, q, s =>
    match s.ops.findSome? (fun e =>
        if e.1 / 16777216 % 65536 == q && !e.2.done && !barrierHolds s (e.1 / 16777216) (e.1 % 16777216) e.2 then
          e.2.ending.map (fun x => (e.1, x))
        else none) with
    | none => s
    | some (k, st, d) => endBarriers fuel q (completeNow (k / 16777216) (k % 16777216) st d s)

/-- Complete a descriptor (R83, R84): one with BARRIER that ends without having started waits for the earlier descriptors
of its queue, with the status that it is given first, which the loss of its context overrides (R34, R82). -/
def completeOp (sq idx status detail : Nat) (s : State) : State :=
  match s.op sq idx with
  | none => s
  | some o =>
    if o.done then s
    else if barrierHolds s sq idx o then
      s.updOp sq idx (fun o => { o with
        ending := if o.ending.isNone || status = stContextLost then some (status, detail) else o.ending, mwait := 0 })
    else pumpFetch (sq % 65536) (endBarriers 2048 (sq % 65536) (completeNow sq idx status detail s))

/-- Whether every descriptor of a queue before an index has started (R85). -/
def earlierStarted (s : State) (sq idx : Nat) : Bool :=
  let ri := (s.sq sq).ri
  (sqOps s sq).all (fun e => e.2.done || e.2.stage == .running || e.2.stage == .armed ||
    decide (ringDiff (BitVec.ofNat 24 (e.1 % 16777216)) ri ≥ ringDiff (BitVec.ofNat 24 idx) ri))

/-- The queue of a context with a local number (R86). -/
def localSq (s : State) (ctx l : Nat) : Option Nat :=
  (s.sqs.find? (fun e => e.2.ctx == ctx && e.2.locl == l && e.2.st != .free)).map (·.1)

/-- The scoreboard condition (R86). -/
def sbHolds (ri : BitVec 24) (row : Nat) : Bool := decide ((ri.toNat % 65536 + 2 * 65536 - 1 - row) % 65536 < 32768)

/-- Whether a stored descriptor is next to start and its common start conditions hold (R85). -/
def mayStart (s : State) (sq idx : Nat) : Bool :=
  match s.op sq idx with
  | none => false
  | some o =>
    let q := s.sq sq
    running s && !o.done && o.ending.isNone && (o.stage == .ready || o.stage == .waiting) && earlierStarted s sq idx &&
      !(q.st == .held && q.cause == .waitFailed) &&
      (!dBarrier (o.w 0) || earlierDone s sq idx) &&
      (!dSbWait (o.w 0) ||
        match localSq s o.ctx (dSbQueue (o.w 0)) with
        | some k => sbHolds (s.sq k).ri (dSbRow (o.w 1))
        | none => true)

/-! ### A descriptor that ends before it starts (R34, R36, R58, R82) -/

/-- A `MARKER_SIGNAL` of a remote marker (R57, R79). -/
def remoteSignal (o : Op) : Bool := o.opcode == 0x30 && dWindow (o.w 5) != 0

/-- A marker that a descriptor names (R112): handle and its byte offset, offset field and record offset, whether
it is the completion marker. -/
structure MarkUse where
  handle : BitVec 32
  hOff : Nat
  oOff : Nat
  off : Nat
  sig : Bool := false

/-- The completion marker of a descriptor. -/
def Op.sigUse (o : Op) : Option MarkUse :=
  if dSignal (o.w 0) && !remoteSignal o && dLo (o.w 6) != 0 then
    some { handle := dLo (o.w 6), hOff := 48, oOff := 52, off := fld (o.w 6) 63 32 * 16, sig := true }
  else none

/-- A handle that is current, VALID and of the context's slice (R30, R39). -/
def mineMo (s : State) (ctx : Nat) (h : BitVec 32) : Bool :=
  moValid s h && (s.ctx (s.moOf h).ctx).slice == (s.ctx ctx).slice

/-- The panel of an object. -/
def moPanel (s : State) (h : BitVec 32) : Panel := (s.ctx (s.moOf h).ctx).panel (s.moOf h).panel

/-- Whether an object's target can hold markers (R48): an import's was tested for its original. -/
def markTarget (s : State) (h : BitVec 32) : Bool :=
  let t := (moPanel s h).targetCode
  (s.moOf h).imported.isSome || t == 0 || t == 1

/-- A marker resolved: its record and the use its translation holds, or how that failed. -/
inductive MarkRes where
  | ok (r : MarkRef) (u : TUse)
  | fail (r : TrRes)
  | wait

/-- Resolve a marker (R56, R112): an import stands for the original's record, which is translated in the original's
context. -/
def resolveMark (purp : XPurp) (st : Stream) (h : BitVec 32) (off : Nat) (s : State) : MarkRes × State :=
  let r : MarkRef := { mo := h, off := off, key := 0 }
  let a := markAcc s r
  match translateOr purp st a s with
  | (.ok e, s) => (.ok (markFound s r a e) { ctx := a.ctx, panel := e.panel, tgen := e.tgen }, s)
  | (.fail r, s) => (.fail r, s)
  | (.wait, s) => (.wait, s)

/-- Whether the completion marker of a descriptor that fails can be written (R58): its object is usable, as its checks had
found it or as it is now. -/
def sigUsable (s : State) (o : Op) (m : MarkUse) : Bool :=
  o.checked ||
    (mineMo s o.ctx m.handle && (s.moOf m.handle).rights.getLsbD 5 && decide (m.off + 16 ≤ (s.moOf m.handle).len) &&
      markTarget s m.handle && (match (s.moOf m.handle).imported with | some r => moValid s r.mo | none => true))

/-- Whether a marker's page is absent, with its context no longer ACTIVE: nothing waits for such a page (R139). -/
def markGone (s : State) (purp : XPurp) (o : Op) (m : MarkUse) : Bool :=
  (s.ctx o.ctx).st != .active &&
    match translate s purp (markAcc s { mo := m.handle, off := m.off, key := 0 }) with | .fault _ _ => true | _ => false

/-- Go on with a descriptor that ends before its start: its completion marker is translated first, since the error must
reach it (R58). -/
def failGo (sq idx : Nat) (s : State) : State :=
  match s.op sq idx with
  | none => s
  | some o =>
    match o.fail with
    | none => s
    | some (st, d, own) =>
      let purp := XPurp.accept sq idx
      let fin (s : State) : State := completeOp sq idx st d (forgetSeen purp s)
      match o.sigUse with
      | none => fin s
      | some m =>
        if own || !sigUsable s o m || markGone s purp o m then fin s
        else
          match resolveMark purp (.sq (sq % 65536)) m.handle m.off s with
          | (.wait, s) => s
          | (.fail _, s) => fin s
          | (.ok r u, s) =>
            fin (addUse u (s.updOp sq idx (fun o => { o with sig := some r, tuses := u :: o.tuses, stage := .ready })))

/-- End a descriptor that has not started, with a status and ERR_DETAIL; `own` says that its completion marker cannot be
reached. One whose checks are still going on has its marker translated yet. -/
def failDesc (sq idx status detail : Nat) (own : Bool) (s : State) : State :=
  match s.op sq idx with
  | none => s
  | some o =>
    if o.done then s
    else if o.stage != .accepting then completeOp sq idx status detail s
    else
      failGo sq idx (s.updOp sq idx (fun o => { o with
        fail := if o.fail.isNone || status = stContextLost then some (status, detail, own) else o.fail }))

end Sys2Proof.Machine
end

