-- ==== Sys2Proof/Machine/Gauge.lean ====
section
/-! DEFINITION. The Gauge converter (08): formats, exact values, rounding, MX tiles, stochastic bits. -/

namespace Sys2Proof.Machine

/-- An exact value: NaN, infinity, or ± num / den. -/
inductive Num where
  | nan (neg : Bool)
  | inf (neg : Bool)
  | fin (neg : Bool) (num den : Nat)
  deriving DecidableEq, Repr

/-- A binary floating-point format by exponent and mantissa width, bias, greatest finite code, and its codes
for infinity and NaN where it has them. -/
structure FFmt where
  eb : Nat
  mb : Nat
  bias : Nat
  maxCode : Nat
  inf : Option Nat
  nan : Option Nat
  deriving DecidableEq, Repr

def fmtFp32 : FFmt := { eb := 8, mb := 23, bias := 127, maxCode := 0x7F7FFFFF, inf := some 0x7F800000, nan := some 0x7FC00000 }
def fmtBf16 : FFmt := { eb := 8, mb := 7, bias := 127, maxCode := 0x7F7F, inf := some 0x7F80, nan := some 0x7FC0 }
def fmtFp16 : FFmt := { eb := 5, mb := 10, bias := 15, maxCode := 0x7BFF, inf := some 0x7C00, nan := some 0x7E00 }
def fmtE4m3 : FFmt := { eb := 4, mb := 3, bias := 7, maxCode := 0x7E, inf := none, nan := some 0x7F }
def fmtE5m2 : FFmt := { eb := 5, mb := 2, bias := 15, maxCode := 0x7B, inf := some 0x7C, nan := some 0x7E }
def fmtE3m2 : FFmt := { eb := 3, mb := 2, bias := 3, maxCode := 0x1F, inf := none, nan := none }
def fmtE2m3 : FFmt := { eb := 2, mb := 3, bias := 1, maxCode := 0x1F, inf := none, nan := none }
def fmtE2m1 : FFmt := { eb := 2, mb := 1, bias := 1, maxCode := 0x7, inf := none, nan := none }
def fmtFp64 : FFmt :=
  { eb := 11, mb := 52, bias := 1023, maxCode := 0x7FEFFFFFFFFFFFFF, inf := some 0x7FF0000000000000,
    nan := some 0x7FF8000000000000 }

/-- Bits of an element code, sign included. -/
def FFmt.width (f : FFmt) : Nat := 1 + f.eb + f.mb

/-- The floating-point format of a plain or MX element format (R228). -/
def elemFmt (fmt : Nat) : Option FFmt :=
  match fmt with
  | 0 => some fmtFp32
  | 1 => some fmtBf16
  | 2 => some fmtFp16
  | 3 => some fmtE4m3
  | 4 => some fmtE5m2
  | 5 => some fmtE4m3
  | 6 => some fmtE5m2
  | 7 => some fmtE3m2
  | 8 => some fmtE2m3
  | 9 => some fmtE2m1
  | _ => none

def isWide (fmt : Nat) : Bool := fmt ≤ 2
def isOfp8 (fmt : Nat) : Bool := fmt == 3 || fmt == 4
def isMx (fmt : Nat) : Bool := 5 ≤ fmt && fmt ≤ 10
def isInt (fmt : Nat) : Bool := fmt == 11 || fmt == 12

/-- Element code width in bits of an MX format (R232). -/
def mxBits (fmt : Nat) : Nat := match fmt with | 5 => 8 | 6 => 8 | 7 => 6 | 8 => 6 | 9 => 4 | _ => 8

/-- Bytes of one tile of an MX format: 256 codes and 8 scales (R232). -/
def tileBytes (fmt : Nat) : Nat := 32 * mxBits fmt + 8

/-- Bytes of one element of a plain format (R228). -/
def elemBytes (fmt : Nat) : Nat :=
  match fmt with | 0 => 4 | 1 => 2 | 2 => 2 | 12 => 4 | _ => 1

/-- The unit a stream is made of: a tile of an MX format, else an element; and its elements. -/
def unitBytes (fmt : Nat) : Nat := if isMx fmt then tileBytes fmt else elemBytes fmt
def unitElems (fmt : Nat) : Nat := if isMx fmt then 256 else 1

/-- Bytes of `n` elements in a format (R233). -/
def fmtBytes (fmt n : Nat) : Nat := if isMx fmt then n / 256 * tileBytes fmt else n * elemBytes fmt

/-- Elements in `len` bytes of a format. -/
def fmtElems (fmt len : Nat) : Nat := len / unitBytes fmt * unitElems fmt

/-- The pairs the Gauge converter performs (R229). -/
def pairOk (i o : Nat) : Bool :=
  i == o || (isWide i && (isWide o || isOfp8 o || isMx o)) || ((isOfp8 i || isMx i) && isWide o)

/-- The value of a code in a format without a scale. -/
def decodeFloat (f : FFmt) (code : Nat) : Num :=
  let neg := decide (bits code (f.eb + f.mb) (f.eb + f.mb) = 1)
  let mag := bits code (f.eb + f.mb - 1) 0
  let e := mag >>> f.mb
  let m := bits mag (f.mb - 1) 0
  if some mag == f.inf then .inf neg
  else if f.nan.isSome && mag > f.maxCode then .nan neg
  else
    let m' := if e = 0 then m else m + 2 ^ f.mb
    let sh := (if e = 0 then 1 else e)
    -- m' × 2^(sh - bias - mb)
    if sh ≥ f.bias + f.mb then .fin neg (m' * 2 ^ (sh - f.bias - f.mb)) 1
    else .fin neg m' (2 ^ (f.bias + f.mb - sh))

/-- A signed integer as a value. -/
def numOfInt (i : Int) : Num := .fin (decide (i < 0)) i.natAbs 1

/-- The largest finite value of a format. -/
def maxNum (f : FFmt) (neg : Bool) : Num :=
  match decodeFloat f f.maxCode with | .fin _ n d => .fin neg n d | x => x

/-- floor(log2(num / den)) for num, den > 0. -/
def ilog2 (num den : Nat) : Int :=
  let k : Int := (Nat.log2 num : Int) - (Nat.log2 den : Int)
  let le : Bool := if k ≥ 0 then decide (den * 2 ^ k.toNat ≤ num) else decide (den ≤ num * 2 ^ (-k).toNat)
  if le then k else k - 1

/-- num / den in units of 2^q, rounded: to nearest even, or stochastically with 16 random bits (R236). -/
def roundUnits (num den : Nat) (q : Int) (r : Option Nat) : Nat :=
  let a := if q ≥ 0 then num else num * 2 ^ (-q).toNat
  let d := if q ≥ 0 then den * 2 ^ q.toNat else den
  let n := a / d
  let rem := a % d
  if rem = 0 then n
  else
    match r with
    | some r => if rem * 65536 / d + r ≥ 65536 then n + 1 else n
    | none => if 2 * rem > d || (2 * rem = d && n % 2 = 1) then n + 1 else n

/-- The magnitude code of num / den in a format, before the test for overflow (R236). -/
def roundCode (f : FFmt) (num den : Nat) (r : Option Nat) : Nat :=
  if num = 0 then 0
  else
    let emin : Int := 1 - (f.bias : Int)
    let e := max (ilog2 num den) emin
    let q := e - (f.mb : Int)
    let n := roundUnits num den q r
    (e + (f.bias : Int)).toNat * 2 ^ f.mb + n - 2 ^ f.mb

/-- The sign bit of a code. -/
def signBit (f : FFmt) (neg : Bool) : Nat := if neg then 2 ^ (f.eb + f.mb) else 0

/-- Conversion to a wide or OFP8 format (R239). -/
def encodeFloat (f : FFmt) (sat : Bool) (x : Num) (r : Option Nat) : Nat :=
  let ovf (neg : Bool) : Nat := signBit f neg + (if sat then f.maxCode else (f.inf.getD (f.nan.getD f.maxCode)))
  match x with
  | .nan neg => signBit f neg + f.nan.getD 0
  | .inf neg => ovf neg
  | .fin neg n d =>
    let c := roundCode f n d r
    if c > f.maxCode then ovf neg else signBit f neg + c

/-- With SAT, an infinite input becomes the largest finite value of the input format (R239). -/
def satInput (fmt : Nat) (sat : Bool) (x : Num) : Num :=
  match x, elemFmt fmt with
  | .inf neg, some f => if sat then maxNum f neg else x
  | _, _ => x

/-! ### MX blocks (R240-R242) -/

/-- EMAX (R242). -/
def mxEmax (fmt : Nat) : Int := match fmt with | 5 => 8 | 6 => 15 | 7 => 4 | 8 => 2 | 9 => 2 | _ => 0

/-- Formats without codes for NaN or infinity. -/
def mxNoNan (fmt : Nat) : Bool := fmt != 5 && fmt != 6

/-- An input that makes the block's scale NaN (R240). -/
def needsNanScale (fmt : Nat) (x : Num) : Bool :=
  mxNoNan fmt && (match x with | .nan _ => true | .inf _ => true | .fin .. => false)

/-- An element code of an MX block, the value being already divided by the scale (R240). -/
def mxElem (fmt : Nat) (sat : Bool) (x : Num) (r : Option Nat) : Nat :=
  match elemFmt fmt with
  | some f =>
    match x with
    | .fin neg n d =>
      let c := roundCode f n d r
      if c > f.maxCode then
        signBit f neg + (if sat || mxNoNan fmt then f.maxCode else (f.inf.getD (f.nan.getD f.maxCode)))
      else signBit f neg + c
    | .inf neg => signBit f neg + f.inf.getD (f.nan.getD 0)
    | .nan neg => signBit f neg + f.nan.getD 0
  | none =>
    match x with
    | .fin neg n d =>
      let c := min 127 (roundUnits n d (-6) r)
      if neg && c ≠ 0 then 256 - c else c
    | _ => 0

/-- num / den × 2^(-e). -/
def scaleDown (num den : Nat) (e : Int) : Nat × Nat :=
  if e ≥ 0 then (num, den * 2 ^ e.toNat) else (num * 2 ^ (-e).toNat, den)

/-- The scale byte and codes of one MX block of 32 values (R242). -/
def mxBlock (fmt : Nat) (sat : Bool) (xs : List Num) (rs : List (Option Nat)) : Nat × List Nat :=
  if xs.any (needsNanScale fmt) then (0xFF, xs.map (fun _ => 0))
  else
    let es := xs.filterMap (fun x => match x with | .fin _ n d => if n = 0 then none else some (ilog2 n d) | _ => none)
    let e : Int := match es with | [] => -127 | h :: t => max (-127) (min 127 ((t.foldl max h) - mxEmax fmt))
    let code (x : Num) (r : Option Nat) : Nat :=
      match x with
      | .fin neg n d => let p := scaleDown n d e; mxElem fmt sat (.fin neg p.1 p.2) r
      | y => mxElem fmt sat y r
    ((e + 127).toNat, (xs.zip rs).map (fun p => code p.1 p.2))

/-- Pack codes of `w` bits into bytes, code k from bit w × k up (R232, R248). -/
def packBits (w : Nat) (cs : List Nat) : List Byte :=
  leBytes (ceilDiv (w * cs.length) 8) (cs.foldr (fun c acc => c % 2 ^ w + acc * 2 ^ w) 0)

/-- Unpack `n` codes of `w` bits. -/
def unpackBits (w n : Nat) (bs : List Byte) : List Nat :=
  let v := ofLe bs
  (List.range n).map (fun k => bits v (w * k + w - 1) (w * k))

/-- Cut a list into runs of `n`. -/
def runsOf {α : Type} (n : Nat) : Nat → List α → List (List α)
  | 0, _ => []
  | fuel + 1, l => if l.isEmpty || n = 0 then [] else l.take n :: runsOf n fuel (l.drop n)

/-- All runs of `n` of a list. -/
def runs {α : Type} (n : Nat) (l : List α) : List (List α) := runsOf n (l.length + 1) l

/-- The values of one MX tile (R232, R241): the scale times the element, where SAT makes an infinite element the largest
finite one of its format first (R239). -/
def decodeTile (fmt : Nat) (sat : Bool) (bs : List Byte) : List Num :=
  let codes := unpackBits (mxBits fmt) 256 (bs.take (32 * mxBits fmt))
  let scales := bs.drop (32 * mxBits fmt)
  codes.zipIdx.map (fun p =>
    let sc := (scales.getD (p.2 / 32) 0).toNat
    if sc = 0xFF then .nan false
    else
      let base : Num := match elemFmt fmt with
        | some f => satInput fmt sat (decodeFloat f p.1)
        | none =>
          let i : Int := if p.1 ≥ 128 then (p.1 : Int) - 256 else p.1
          .fin (decide (i < 0)) i.natAbs 64
      match base with
      | .fin neg n d => if sc ≥ 127 then .fin neg (n * 2 ^ (sc - 127)) d else .fin neg n (d * 2 ^ (127 - sc))
      | x => x)

/-- The values of a byte stream in a format (R231, R232), with SAT's replacement of infinite inputs (R239, R240). -/
def decodeWith (sat : Bool) (fmt : Nat) (bs : List Byte) : List Num :=
  if isMx fmt then ((runs (tileBytes fmt) bs).map (decodeTile fmt sat)).flatten
  else
    (runs (elemBytes fmt) bs).map (fun e =>
      match elemFmt fmt with
      | some f => satInput fmt sat (decodeFloat f (ofLe e))
      | none =>
        let v := ofLe e
        let w := 8 * elemBytes fmt
        numOfInt (if v ≥ 2 ^ (w - 1) then (v : Int) - 2 ^ w else v))

/-- The values of a byte stream in a format, infinities as they are. -/
def decodeStream (fmt : Nat) (bs : List Byte) : List Num := decodeWith false fmt bs

/-- Encode values in a wide, OFP8 or MX format (R236-R242), with each element's random bits. -/
def encodeStream (fmt : Nat) (sat : Bool) (xs : List Num) (rs : List (Option Nat)) : List Byte :=
  if isMx fmt then
    let tile (t : List (Num × Option Nat)) : List Byte :=
      let bl := (runs 32 t).map (fun b => mxBlock fmt sat (b.map (·.1)) (b.map (·.2)))
      packBits (mxBits fmt) ((bl.map (·.2)).flatten) ++ bl.map (fun b => BitVec.ofNat 8 b.1)
    ((runs 256 (xs.zip rs)).map tile).flatten
  else
    match elemFmt fmt with
    | some f => ((xs.zip rs).map (fun p => leBytes (elemBytes fmt) (encodeFloat f sat p.1 p.2))).flatten
    | none => []

/-! ### Stochastic bits (R237) -/

/-- One round of Philox4x32 (the published constants; PRESUMED, log 19). -/
def philoxRound (c : Nat × Nat × Nat × Nat) (k : Nat × Nat) : Nat × Nat × Nat × Nat :=
  let p0 := 0xD2511F53 * c.1
  let p1 := 0xCD9E8D57 * c.2.2.1
  ((p1 / 2 ^ 32) ^^^ c.2.1 ^^^ k.1, p1 % 2 ^ 32, (p0 / 2 ^ 32) ^^^ c.2.2.2 ^^^ k.2, p0 % 2 ^ 32)

/-- Philox4x32 with `n` rounds. -/
def philox : Nat → Nat × Nat × Nat × Nat → Nat × Nat → Nat × Nat × Nat × Nat
  | 0, c, _ => c
  | n + 1, c, k => philox n (philoxRound c k) ((k.1 + 0x9E3779B9) % 2 ^ 32, (k.2 + 0xBB67AE85) % 2 ^ 32)

/-- The 16 random bits of element `k` of the group whose first element has stream offset `off` (R237). -/
def randomBits (seed : Word) (off k : Nat) : Nat :=
  let o := philox 10 (off % 2 ^ 32, off / 2 ^ 32 % 2 ^ 32, 0, 0) (fld seed 31 0, fld seed 63 32)
  let w := match k / 2 with | 0 => o.1 | 1 => o.2.1 | 2 => o.2.2.1 | _ => o.2.2.2
  w / 2 ^ (16 * (k % 2)) % 65536

/-- The stream offset step of one element: its bytes, or 1 for an MX input (R237). -/
def offStep (inFmt : Nat) : Nat := if isMx inFmt then 1 else elemBytes inFmt

/-- Random bits for `n` elements that begin at element `first` of a stream whose first element has stream
offset `base`; groups of 8 are counted from the stream's start (R237). -/
def streamBits (stoch : Bool) (seed : Word) (inFmt base first n : Nat) : List (Option Nat) :=
  (List.range n).map (fun j =>
    if stoch then
      let e := first + j
      some (randomBits seed (base + e / 8 * 8 * offStep inFmt) (e % 8))
    else none)

/-- A conversion of whole units, `first` elements into the operation's stream (R229-R241). -/
def convertBytes (inFmt outFmt : Nat) (stoch sat : Bool) (seed : Word) (base first : Nat) (bs : List Byte) : List Byte :=
  if inFmt = outFmt then bs
  else
    let xs := decodeWith sat inFmt bs
    encodeStream outFmt sat xs (streamBits stoch seed inFmt base first xs.length)

end Sys2Proof.Machine
end

