-- ==== Sys2Proof/Machine/Ply.lean ====
section
/-! DEFINITION. The Ply codec (08): block encoding and decoding, and packetising by whole blocks. -/

namespace Sys2Proof.Machine

/-- FMT of a Ply block and whether its blocks are MX tiles, for a packable format (R247). -/
def plyFmt (fmt : Nat) : Option (Nat × Bool) :=
  match fmt with
  | 1 => some (0, false)
  | 2 => some (1, false)
  | 3 => some (2, false)
  | 4 => some (3, false)
  | 5 => some (2, true)
  | 6 => some (3, true)
  | _ => none

/-- E, M and element size of a Ply FMT (R247). -/
def plyE (f : Nat) : Nat := match f with | 0 => 8 | 1 => 5 | 2 => 4 | _ => 5
def plyM (f : Nat) : Nat := match f with | 0 => 7 | 1 => 10 | 2 => 3 | _ => 2
def plySize (f : Nat) : Nat := if f ≤ 1 then 2 else 1
def plyK (f : Nat) : Nat := plyM f + 1

/-- Bits needed for a number. -/
def bitLength (n : Nat) : Nat := if n = 0 then 0 else Nat.log2 n + 1

/-- A block header (R248). -/
def plyHeader (packed : Bool) (f width base n : Nat) (mx : Bool) : List Byte :=
  leBytes 4 (b2n packed + f * 4 + width * 16 + base * 256 + (n - 1) * 65536 + b2n mx * 2 ^ 24)

/-- Encode one block (R249): raw elements, and for an MX tile its 8 scale bytes after them. -/
def plyEncode (f : Nat) (mx : Bool) (raw : List Byte) : List Byte :=
  let body := if mx then raw.take 256 else raw
  let scales := if mx then raw.drop 256 else []
  let elems := (runs (plySize f) body).map ofLe
  let n := elems.length
  let ex := elems.map (fun x => bits x (plyE f + plyM f - 1) (plyM f))
  let sm := elems.map (fun x => bits x (plyE f + plyM f) (plyE f + plyM f) * 2 ^ plyM f + bits x (plyM f - 1) 0)
  let base := ex.foldl min (ex.headD 0)
  let width := bitLength (ex.foldl max 0 - base)
  let packed := 4 + ceilDiv (n * plyK f) 8 + ceilDiv (n * width) 8
  if packed < 4 + n * plySize f then
    plyHeader true f width base n mx ++ packBits (plyK f) sm ++ packBits width (ex.map (· - base)) ++ scales
  else plyHeader false f 0 0 n mx ++ body ++ scales

/-- A decoded block: its elements in memory order, scales last, and what follows it. -/
structure PlyBlock where
  elems : Nat
  mx : Bool
  data : List Byte
  rest : List Byte
  deriving DecidableEq, Repr

/-- Decode the block at the head of a payload (R250); none where it is malformed. -/
def plyDecode (bs : List Byte) : Option PlyBlock :=
  if bs.length < 4 then none
  else
    let h := ofLe (bs.take 4)
    let b := bs.drop 4
    let mode := bits h 1 0
    let f := bits h 3 2
    let width := bits h 7 4
    let base := bits h 15 8
    let n := bits h 23 16 + 1
    let mx := decide (bits h 24 24 = 1)
    let sc := if mx then 8 else 0
    if mode > 1 || bits h 31 25 ≠ 0 || (mx && (f ≤ 1 || n < 256)) then none
    else if mode = 0 then
      if width ≠ 0 || base ≠ 0 then none
      else
        let len := n * plySize f + sc
        if b.length < len then none
        else some { elems := n, mx := mx, data := b.take len, rest := b.drop len }
    else
      let l1 := ceilDiv (n * plyK f) 8
      let l2 := ceilDiv (n * width) 8
      if width > plyE f || b.length < l1 + l2 + sc then none
      else
        let sm := unpackBits (plyK f) n (b.take l1)
        let ex := (unpackBits width n ((b.drop l1).take l2)).map (base + ·)
        if ex.any (fun e => decide (2 ^ plyE f - 1 < e)) then none
        else
          let one (p : Nat × Nat) : List Byte :=
            leBytes (plySize f) (p.1 / 2 ^ plyM f * 2 ^ (plyE f + plyM f) + p.2 * 2 ^ plyM f + p.1 % 2 ^ plyM f)
          some
            { elems := n, mx := mx, data := ((sm.zip ex).map one).flatten ++ (b.drop (l1 + l2)).take sc,
              rest := b.drop (l1 + l2 + sc) }

/-- Decode a payload of whole blocks: the decoded bytes, and whether its last block is short. A short block
anywhere else is malformed (R250). -/
def plyPayload : Nat → List Byte → Option (List Byte × Bool)
  | 0, _ => none
  | fuel + 1, bs =>
    match plyDecode bs with
    | none => none
    | some b =>
      let short := decide (b.elems < 256)
      if b.rest.isEmpty then some (b.data, short)
      else if short then none
      else (plyPayload fuel b.rest).map (fun r => (b.data ++ r.1, r.2))

/-- Decode a packet's payload (R250). -/
def plyUnpack (bs : List Byte) : Option (List Byte × Bool) := plyPayload (bs.length + 1) bs

/-- Raw bytes of one full block of a packable format. -/
def plyUnit (fmt : Nat) : Nat :=
  match plyFmt fmt with | some (f, mx) => 256 * plySize f + (if mx then 8 else 0) | none => 256

/-- The blocks of a wire stream from a message's or destination block's start: raw and encoded (R248). -/
def plyBlocks (fmt : Nat) (raw : List Byte) : List (List Byte × List Byte) :=
  match plyFmt fmt with
  | some (f, mx) => (runs (plyUnit fmt) raw).map (fun r => (r, plyEncode f mx r))
  | none => []

/-- Fill packets with the longest run of blocks that fits (R251): (decoded bytes, payload) of each. -/
def plyPackets (most : Nat) : List (List Byte × List Byte) → List Byte → List Byte → List (List Byte × List Byte)
  | [], raw, enc => if enc.isEmpty then [] else [(raw, enc)]
  | (r, e) :: t, raw, enc =>
    if enc.isEmpty || enc.length + e.length ≤ most then plyPackets most t (raw ++ r) (enc ++ e)
    else (raw, enc) :: plyPackets most t r e

end Sys2Proof.Machine
end

