-- ==== Sys2Proof/Machine/Wire.lean ====
section
/-! DEFINITION. Sending of the transport (05, 06): ports and their rates, the ERT header, egress queues, paths,
the packets of a message, and what lets a packet go. -/

namespace Sys2Proof.Machine

/-! ### Ports (R318-R320) and the tension registers (R189) -/

/-- NET_PORT_CFG_n at reset (R318): AN 1, MAX_FRAME 9,216. -/
def portCfgReset : BitVec 34 := BitVec.ofNat 34 (9216 * 2 ^ 20 + 64)
/-- NET_PORT_CFG of port `n`. -/
def State.portCfgOf (s : State) (n : Nat) : BitVec 34 := Tab.getD s.portCfg n portCfgReset
/-- The port on which native boot runs, plus 1 (R452); 0 for none. -/
def bootNum (s : State) : Nat := let n := fld s.castOnFuse 12 9; if n ≤ 12 then n else 0
/-- Whether native boot runs on a port (R460). -/
def bootOn (s : State) (n : Nat) : Bool := s.castOn.bootPort && n + 1 == bootNum s
/-- MODE of a port: 0 native, 1 IEEE200, 2 IEEE100; native boot's port is native. -/
def portMode (s : State) (n : Nat) : Nat := if bootOn s n then 0 else fld (s.portCfgOf n) 5 4
/-- MAX_FRAME of a port. -/
def maxFrame (s : State) (n : Nat) : Nat := fld (s.portCfgOf n) 33 20
/-- The VID of a port's tag where it sends one (R318). -/
def portVlan (s : State) (n : Nat) : Option Nat :=
  if (s.portCfgOf n).getLsbD 7 then some (fld (s.portCfgOf n) 19 8) else none
/-- The port of a logical port (R318). -/
def lpPort (lp : Nat) : Nat := lp / 8
/-- Whether a sub-port is up. -/
def lportUp (s : State) (lp : Nat) : Bool := (s.lport lp).train == .up
/-- Bytes that one lane carries in 0.5 µs, by mode (R320). -/
def laneRate (mode : Nat) : Nat := match mode with | 0 => 25000 | 1 => 12500 | _ => 6250
/-- Bytes that a logical port carries in 0.5 µs. -/
def lportRate (s : State) (lp : Nat) : Nat :=
  if lportUp s lp then laneRate (portMode s (lpPort lp)) * (s.lport lp).width else 0
/-- The inbound capacity C, in bytes per 0.5 µs (R192). -/
def capacity (s : State) : Nat := (s.lports.map (fun e => lportRate s e.1)).foldl (· + ·) 0
/-- The unscheduled window U (R189). -/
def unschedU (s : State) : Nat := 16384 * (fld s.tension 1 0 + 1)
/-- The grant chunk (R189). -/
def grantChunk (s : State) : Nat := 16384 * 2 ^ fld s.tension 3 2
/-- BUDGET = C × BDP_TIME (R193). -/
def budget (s : State) : Nat := capacity s * fld s.tension 9 4
/-- The target round-trip time in ticks of 1.6 ns (R189). -/
def targetTicks (s : State) : Rat := (fld s.tension 17 10 : Rat) * 625 / 4
/-- The initial congestion window in bytes (R189). -/
def cwndInit (s : State) : Nat := 2 ^ fld s.tension 21 18 * 1024
/-- DSCP of a class (R187). -/
def tcDscpOf (s : State) (tc : Nat) : Nat := fld s.tcDscp (6 * tc + 5) (6 * tc)
/-- Weight of a class (R187). -/
def tcWeightOf (s : State) (tc : Nat) : Nat := fld s.tcWeight (8 * tc + 7) (8 * tc)

/-! ### The ERT header (R152) -/

/-- The 256 header bits. -/
def ertBits (h : ErtHdr) : BitVec 256 :=
  h.ver ++ h.op ++ h.tc ++ h.path ++ h.flags ++ (BitVec.ofBool h.poison) ++ (0#1) ++ h.psn ++ h.msgId ++ h.dstQpn ++
    (0#7) ++ h.offsetLen ++ h.window ++ h.imm ++ h.stamp

/-- The header as its 32 bytes, byte 0 holding bits [255:248] (R152). -/
def ertHeaderBytes (h : ErtHdr) : List Byte := beBytes 32 (ertBits h).toNat

/-- The header that 256 bits spell. -/
def ertParse (b : BitVec 256) : ErtHdr :=
  { ver := b.extractLsb' 252 4, op := b.extractLsb' 248 4, tc := b.extractLsb' 240 8, path := b.extractLsb' 234 6,
    flags := b.extractLsb' 226 8, poison := b.getLsbD 225, psn := b.extractLsb' 192 32, msgId := b.extractLsb' 168 24,
    dstQpn := b.extractLsb' 151 17, offsetLen := b.extractLsb' 96 48, window := b.extractLsb' 64 32,
    imm := b.extractLsb' 32 32, stamp := b.extractLsb' 0 32 }

/-- FLAGS (R152). -/
def fFirst (f : BitVec 8) : Bool := f.getLsbD 7
def fLast (f : BitVec 8) : Bool := f.getLsbD 6
def fImm (f : BitVec 8) : Bool := f.getLsbD 5
def fRetx (f : BitVec 8) : Bool := f.getLsbD 4
def fEce (f : BitVec 8) : Bool := f.getLsbD 3
def fAct (f : BitVec 8) : Bool := f.getLsbD 2
def fPly (f : BitVec 8) : Bool := f.getLsbD 1
def fAckNow (f : BitVec 8) : Bool := f.getLsbD 0

/-- FLAGS from its bits. When a sender asks for an ACK at once the spec does not say: ACK_NOW is 0 in every packet sent
(DESIGN CHOICE, log 120). -/
def mkFlags (first last imm retx ece act ply : Bool) : BitVec 8 :=
  BitVec.ofNat 8 (b2n first * 128 + b2n last * 64 + b2n imm * 32 + b2n retx * 16 + b2n ece * 8 + b2n act * 4 + b2n ply * 2)

/-- The transport stamp (R152). -/
def stamp (s : State) : BitVec 32 := BitVec.ofNat 32 s.ticks

/-! ### Egress queues (R188) -/

/-- Put a frame into its class's egress queue, or among the control packets of a port. -/
def egressPut (lp : Nat) (e : TxEntry) (s : State) : State :=
  s.updLport lp (fun l =>
    if e.kind == .control || e.kind == .cnp then { l with control := l.control ++ [e] }
    else { l with egress := Tab.upd l.egress e.tc [] (· ++ [e]) })

/-- The local port and destination of a path (R157). -/
def pathPort (q : Qp) (p : Nat) : Nat := q.localPorts.getD (p % max 1 q.localPorts.length) 0
def pathDst (q : Qp) (p : Nat) : BitVec 128 := q.remoteAddrs.getD (p % max 1 q.remoteAddrs.length) 0

/-- The headers of a frame that leaves a logical port to an address (R150, R187, R321): its port's own source address, the
class's DSCP, ECT(0). -/
def netHdr (s : State) (lp : Nat) (ipv4 : Bool) (dst : BitVec 128) (tc sport dport : Nat) (tag : Option (Nat × Nat)) : NetHdr :=
  let l := s.lport lp
  { tag := tag, ipv4 := ipv4, src := if ipv4 then BitVec.ofNat 128 (l.ipv4.toNat * 2 ^ 96) else l.ipv6, dst := dst,
    dscp := tcDscpOf s tc, ecn := 2, sport := sport, dport := dport }

/-- Bytes of an ERT frame (R150). -/
def ertFrameBytes (vlan ipv4 : Bool) (payload : Nat) : Nat :=
  14 + (if vlan then 4 else 0) + (if ipv4 then 20 else 40) + 8 + 32 + payload + 4

/-- Queue one ERT packet of a QP on a path (R150, R157), the QP's state written to the State Cache before it leaves (R148). -/
def ertQueue (qpn path : Nat) (h : ErtHdr) (payload : List Byte) (s : State) : State :=
  let s := touchQp qpn s
  let q := s.qp qpn
  let lp := pathPort q path
  let v := portVlan s (lpPort lp)
  let tc := h.tc.toNat
  let fr := Frame.ert (netHdr s lp q.ipv4 (pathDst q path) tc (q.sportBase + path) s.ertPort.toNat (v.map (fun x => (x, 0))))
    (ertHeaderBytes h) payload
  let k := if 6 ≤ h.op.toNat && h.op.toNat ≤ 9 then TxKind.control else TxKind.data
  let e : TxEntry := { kind := k, tc := tc, bytes := ertFrameBytes v.isSome q.ipv4 payload.length, frame := fr }
  let sl := (s.ctx q.ctx).slice
  egressPut lp e (count sl 12 (countBy sl 14 payload.length (count 522 (64 * q.needle.getD 0) s)))

/-! ### Paths (R157, R169, R199) -/

def Qp.path (q : Qp) (p : Nat) : Path := Tab.getD q.paths p {}
def Qp.updPath (q : Qp) (p : Nat) (f : Path → Path) : Qp := { q with paths := Tab.upd q.paths p {} f }

/-- A path in the spray: healthy, or waiting for its one packet on probation. -/
def pathOk (p : Path) : Bool := !p.sick && p.probation.isNone

/-- The path whose hold ends first; a path whose port is down comes after all others. -/
def firstHoldEnd (q : Qp) : Nat :=
  let key (p : Nat) : Nat := (if (q.path p).portDown then 2 ^ 64 else 0) + (q.path p).until_
  (List.range q.npaths).foldl (fun b p => if key p < key b then p else b) 0

/-- The path of the next send: round-robin over the paths in the spray by weight, avoiding one path where
another is there (R157, R168, R169, R199). -/
def pickPath (q : Qp) (avoid : Option Nat) : Nat × Qp :=
  let cur := q.nextPath
  let good (p : Nat) : Bool := pathOk (q.path p)
  if good cur && decide (0 < (q.path cur).credit) && avoid != some cur then
    (cur, q.updPath cur (fun p => { p with credit := p.credit - 1 }))
  else
    let ring := (List.range q.npaths).map (fun k => (cur + 1 + k) % q.npaths)
    match ring.find? (fun p => good p && avoid != some p) with
    | some p => (p, { q.updPath p (fun x => { x with credit := x.weight - 1 }) with nextPath := p })
    | none =>
      match ring.find? good with
      | some p => (p, { q with nextPath := p })
      | none => (firstHoldEnd q, q)

/-- Note a send on a path: among its last 64, and as its packet on probation (R169). -/
def noteSend (q : Qp) (p : Nat) (psn : BitVec 32) : Qp :=
  q.updPath p (fun x => { x with
    sends := ((psn, false) :: x.sends).take 64
    probation := if x.trial then some psn else x.probation
    trial := false })

/-! ### Messages (R155) -/

/-- Whether a packet opcode's data is governed by grants and the congestion window (R189). -/
def grantPaced (op : BitVec 4) : Bool :=
  let o := op.toNat
  o == 0 || o == 1 || o == 3 || o == 10 || o == 11 || o == 12

/-- Data bytes sent and not yet acknowledged (R198). -/
def inflight (q : Qp) : Nat :=
  (q.flight.map (fun f => if grantPaced f.hdr.op then f.payload.length else 0)).foldl (· + ·) 0

/-- Unscheduled bytes sent and not yet acknowledged (R190). -/
def unschedUnacked (q : Qp) : Nat :=
  (q.flight.map (fun f => if f.unsched then f.len else 0)).foldl (· + ·) 0

/-- The packets of a message. -/
def Msg.size (m : Msg) : Nat := m.total.getD m.pkts.length

/-- The PSN of a message's next packet (R155): its packets take consecutive PSNs, from the QP's next one on. -/
def Msg.nextPsn (q : Qp) (m : Msg) : BitVec 32 := match m.psn0 with | some b => b + BitVec.ofNat 32 m.cut | none => q.nextPsn

/-- Room for a message's next PSN, and for one more unacknowledged message of its name space where it begins (R156). -/
def psnRoom (q : Qp) (m : Msg) : Bool :=
  decide ((m.nextPsn q - q.sndUna).toNat < 1024) &&
    (m.psn0.isSome || decide ((q.msgs.filter (fun x => x.resp == m.resp && x.psn0.isSome)).length < 1024))

/-- Whether a packet lies in its message's unscheduled window (R190). -/
def isUnsched (s : State) (m : Msg) (p : PktOut) : Bool := decide (p.off + p.len ≤ min (unschedU s) m.len)

/-- Whether a packet of new data may go (R191). -/
def maySend (s : State) (q : Qp) (m : Msg) (p : PktOut) : Bool :=
  psnRoom q m && m.busyHold.isEmpty &&
  (!grantPaced m.op ||
    ((if isUnsched s m p then decide (unschedUnacked q + p.len ≤ unschedU s) else decide (p.off + p.len ≤ m.granted)) &&
      decide (((inflight q + p.payload.length : Nat) : Rat) ≤ q.cwnd)))

/-- The header of packet `k` of a message, as first sent; a skein's header packets carry no Ply stream (R215, R251). -/
def msgHdr (s : State) (q : Qp) (m : Msg) (k : Nat) (p : PktOut) (psn : BitVec 32) (path : Nat) : ErtHdr :=
  let last := !m.more && k + 1 == m.pkts.length
  { ver := 1, op := m.op, tc := BitVec.ofNat 8 m.tc, path := BitVec.ofNat 6 path,
    flags := mkFlags (k == 0) last (last && m.imm.isSome) false false m.act (m.ply && (m.op.toNat != 10 || p.len != 0)), poison := p.bad, psn := psn, msgId := m.id,
    dstQpn := BitVec.ofNat 17 q.remoteQpn, offsetLen := BitVec.ofNat 48 p.offLen, window := m.window,
    imm := if last then m.imm.getD p.imm else p.imm, stamp := stamp s }

/-- Send the next packet of message number `i` of a QP. -/
def sendNext (qpn i : Nat) (s : State) : State :=
  let q := s.qp qpn
  match q.msgs[i]? with
  | none => s
  | some m =>
    match m.pkts[m.cut]? with
    | none => s
    | some p =>
      let psn := m.nextPsn q
      let c := pickPath q none
      let h := msgHdr s q m m.cut p psn c.1
      let payload := if p.bad && !m.ply then zeros p.payload.length else p.payload
      let f : Flight :=
        { psn := psn, msgId := m.id, resp := m.resp, hdr := h, payload := payload, len := p.len,
          unsched := grantPaced m.op && isUnsched s m p, sentAt := s.ticks, path := c.1 }
      let q2 := noteSend c.2 c.1 psn
      let s := s.updQp qpn (fun _ => { q2 with
        nextPsn := if m.psn0.isSome then q2.nextPsn else psn + BitVec.ofNat 32 m.size
        flight := q2.flight ++ [f], msgs := q2.msgs.set i { m with cut := m.cut + 1, psn0 := some (m.psn0.getD psn) } })
      ertQueue qpn c.1 h payload s

/-- Send what a QP may send, oldest message first (R156, R191). Only an ACTIVE or draining QP of a running
block starts new packets (R144). -/
def pumpQp : Nat → Nat → State → State
  | 0, _, s => s
  | fuel + 1, qpn, s =>
    let q := s.qp qpn
    if !((q.st == .active || (q.st == .draining && !q.abort)) && running s) then s
    else
      match q.msgs.findIdx? (fun m => match m.pkts[m.cut]? with | some p => maySend s q m p | none => false) with
      | none => s
      | some i => pumpQp fuel qpn (sendNext qpn i s)

/-- Give a QP one more message: the next MSG_ID of its own sequence, or a response's (R155, R162), and send. -/
def sendMsg (qpn : Nat) (m : Msg) (s : State) : State :=
  let s := s.updQp qpn (fun q =>
    if m.resp then { q with msgs := q.msgs ++ [m] }
    else { q with msgs := q.msgs ++ [{ m with id := q.nextMsg }], nextMsg := q.nextMsg + 1 })
  pumpQp 1024 qpn s

/-- Whether a range of a stream touches a bad range. -/
def touchesBad (bad : List (Nat × Nat)) (off len : Nat) : Bool := bad.any (fun b => overlaps b.1 b.2 off len)

/-- The Ply blocks of zeros of a number of bytes: the zero payload of a packet whose source is bad, since its length counts
bytes of the wire stream and every packet of its message carries whole Ply blocks (R155, R244, R251; DEDUCED, log 122). -/
def plyZeros (fmt len : Nat) : List Byte := (plyBlocks fmt (zeros len)).flatMap (·.2)

/-- Cut a stream into packets of PAYLOAD_MAX bytes (R155), or of whole Ply blocks (R251): message offset,
length, payload, bad. -/
def cutStream (payloadMax : Nat) (ply : Option Nat) (data : List Byte) (bad : List (Nat × Nat)) : List PktOut :=
  match ply with
  | some fmt =>
    if data.isEmpty then [{ off := 0, len := 0, offLen := 0, payload := [] }]
    else
    (plyPackets payloadMax (plyBlocks fmt data) [] []).foldl (fun acc r =>
      let off := (acc.map (·.len)).foldl (· + ·) 0
      let b := touchesBad bad off r.1.length
      acc ++ [{ off := off, len := r.1.length, offLen := off, payload := if b then plyZeros fmt r.1.length else r.2, bad := b }]) []
  | none =>
    let n := max 1 (ceilDiv data.length payloadMax)
    (List.range n).map (fun k =>
      let d := (data.drop (k * payloadMax)).take payloadMax
      { off := k * payloadMax, len := d.length, offLen := k * payloadMax, payload := d,
        bad := touchesBad bad (k * payloadMax) d.length })

/-- The packets of a WRITE message at a window offset: each carries its own window offset, and the FIRST that is
not also LAST carries MSG_LEN in IMM (R155). -/
def writePkts (ps : List PktOut) (winOff msgLen : Nat) : List PktOut :=
  ps.map (fun p => { p with
    offLen := winOff + p.off, imm := if p.off = 0 && ps.length > 1 then BitVec.ofNat 32 msgLen else 0 })

/-- The packets of any other message: FIRST and LAST carry MSG_LEN (R155). -/
def otherPkts (ps : List PktOut) (msgLen : Nat) : List PktOut :=
  ps.zipIdx.map (fun e => { e.1 with offLen := if e.2 = 0 || e.2 + 1 = ps.length then msgLen else e.1.off })

/-! ### Acknowledgements, refusals, grants (R154, R166, R170, R192) -/

/-- A control packet of a QP: OP, class, path, flags, PSN, MSG_ID, OFFSET_LEN, STAMP. -/
def ctlHdr (q : Qp) (op tc path : Nat) (flags : BitVec 8) (psn : BitVec 32) (id : BitVec 24) (offLen : Nat)
    (st : BitVec 32) : ErtHdr :=
  { ver := 1, op := BitVec.ofNat 4 op, tc := BitVec.ofNat 8 tc, path := BitVec.ofNat 6 path, flags := flags, poison := false,
    psn := psn, msgId := id, dstQpn := BitVec.ofNat 17 q.remoteQpn, offsetLen := BitVec.ofNat 48 offLen, window := 0,
    imm := 0, stamp := st }

/-- SACK_START (R166). -/
def sackStart (q : Qp) : BitVec 32 :=
  let d := (q.recent - q.ackBase).toNat
  if d < 1024 then q.ackBase + BitVec.ofNat 32 (d / 256 * 256) else q.ackBase

/-- SACK_MAP (R154). -/
def sackMap (q : Qp) : Nat :=
  (q.placed.map (fun p => let d := (p - sackStart q).toNat; if d < 256 then 2 ^ d else 0)).foldl (· + ·) 0

/-- Send an ACK (R166, R167); on a halted block nothing is sent. -/
def sendAck (qpn : Nat) (s : State) : State :=
  let q := s.qp qpn
  let h := ctlHdr q 6 q.echo.2.1.toNat q.echo.1.toNat (mkFlags false false false false (0 < q.ceCount) false false) q.ackBase
    q.delivered (sackStart q).toNat q.echo.2.2
  let payload := beBytes 32 (sackMap q) ++ beBytes 8 (q.newCount % 65536 + q.ceCount % 65536 * 65536)
  let s := s.updQp qpn (fun q => { q with sinceAck := 0, newCount := 0, ceCount := 0 })
  ertQueue qpn q.echo.1.toNat h payload s

/-- Send a NAK of a packet (R154). -/
def sendNak (qpn : Nat) (h : ErtHdr) (ce : Bool) (code delay : Nat) (s : State) : State :=
  let q := s.qp qpn
  let n := ctlHdr q 7 h.tc.toNat h.path.toNat (mkFlags false false false false ce false false) h.psn h.msgId 0 h.stamp
  ertQueue qpn h.path.toNat n (beBytes 8 (code + delay * 256)) s

/-- Send a GRANT for a tracker's message (R192). -/
def sendGrant (t : Tracker) (s : State) : State :=
  let q := s.qp t.qpn
  let resp := match t.use with | .readResp .. => true | _ => false
  let h := ctlHdr q 8 t.tc 0 0 0 t.msgId 0 (stamp s)
  ertQueue t.qpn 0 h (beBytes 8 (t.granted % 2 ^ 48 + b2n resp * 2 ^ 48)) s

/-- Send CTRL RESUME, in TC1 (R154, R180, R185). -/
def sendResume (qpn : Nat) (s : State) : State :=
  let q := s.qp qpn
  ertQueue qpn 0 (ctlHdr q 9 1 0 0 0 0 0 (stamp s)) (beBytes 8 1) s

/-! ### The grant engine's sums (R192, R193) -/

/-- A message's grant base (R192). -/
def grantBase (s : State) (t : Tracker) : Nat :=
  match t.use with
  | .readResp .. => 0
  | _ => min (unschedU s) (t.msgLen.getD 0)

/-- Granted-ahead bytes (R192): from the grant base to the granted offset, not yet accounted. A WRITE accounts window
offsets; an opcode 10 message, whose packets do not carry stream offsets, counts its bytes (log 22). -/
def grantedAhead (s : State) (t : Tracker) : Nat :=
  let b := grantBase s t
  match t.use with
  | .skein => (t.granted - b) - (t.accounted - b)
  | .window =>
    let w := t.winOff.getD 0
    let seen := (t.ranges.map (fun r => min (r.1 + r.2 - w) t.granted - max (r.1 - w) b)).foldl (· + ·) 0
    (t.granted - b) - seen
  | _ =>
    let seen := (t.ranges.map (fun r => min (r.1 + r.2) t.granted - max r.1 b)).foldl (· + ·) 0
    (t.granted - b) - seen

/-- OUTSTANDING (R192, R196). -/
def outstanding (s : State) : Nat :=
  (s.trackers.map (fun e => if e.2.reclaimed then 0 else grantedAhead s e.2)).foldl (· + ·) 0

/-! ### The tracker pool (R200) -/

/-- RSV_TCt × 64. -/
def trkRsvOf (s : State) (tc : Nat) : Nat := fld s.trkRsv (8 * tc + 7) (8 * tc) * 64
/-- SHARED. -/
def trkShared (s : State) : Nat := 16384 - ((List.range 8).map (trkRsvOf s)).foldl (· + ·) 0
/-- GUAR_IN of a slice, the tenth quota of R352 (R194). -/
def guarIn (s : State) (sl : Nat) : Nat := (s.slice sl).quota.getD 9 0
/-- G[s]. -/
def trkGuar (s : State) (sl : Nat) : Nat := guarIn s sl * trkShared s / 1024
/-- Shared trackers that a slice holds. -/
def trkSharedBy (s : State) (sl : Nat) : Nat := Tab.countWhere s.trackers (fun _ t => t.shared && t.slice == sl)
/-- Reserved trackers that a class holds. -/
def trkRsvHeld (s : State) (tc : Nat) : Nat := Tab.countWhere s.trackers (fun _ t => !t.shared && t.tc == tc)

/-- Claim a tracker for a slice and class (R200): whether from the shared pool. RoCEv2 QPs hold trackers too
(R202): they stand in the same table. -/
def claimTracker (s : State) (sl tc : Nat) : Option Bool :=
  if trkRsvHeld s tc < trkRsvOf s tc then some false
  else
    let held := Tab.countWhere s.trackers (fun _ t => t.shared)
    let free := trkShared s - held
    let unmet (x : Nat) : Nat := trkGuar s x - trkSharedBy s x
    let owed := ((s.slices.map (·.1)).map unmet).foldl (· + ·) 0 - unmet sl
    if 0 < free && (decide (trkSharedBy s sl < trkGuar s sl) || decide (owed < free)) then some true else none

/-- Open a tracker; none where the pool answers NONE. The QP's BUSY NAKs count from here (R201). -/
def openTracker (t : Tracker) (s : State) : Option (Nat × State) :=
  match claimTracker s t.slice t.tc with
  | none => none
  | some sh =>
    match Tab.freeKey s.trackers 0 16384 with
    | none => none
    | some i =>
      some (i, { s with
        trackers := Tab.put s.trackers i { t with shared := sh, seen := s.grants.opened }
        grants := { s.grants with opened := s.grants.opened + 1 } }.updQp t.qpn (fun q => { q with busyNaks := 0 }))

/-- Change a tracker. -/
def updTracker (i : Nat) (f : Tracker → Tracker) (s : State) : State := { s with trackers := Tab.adj s.trackers i f }

/-- Release a tracker; a window pinned by it loses a tracker (R47). -/
def closeTracker (i : Nat) (s : State) : State :=
  match Tab.get s.trackers i with
  | none => s
  | some t =>
    let s := { s with trackers := Tab.del s.trackers i }
    if t.window ≠ 0 && (s.win (winIndex t.window)).gen == winGen t.window then
      s.updWin (winIndex t.window) (fun w => { w with trackers := w.trackers - 1 })
    else s

end Sys2Proof.Machine
end

