-- ==== Sys2Proof/Machine/RoceSend.lean ====
section
/-! DEFINITION. Sending on RoCEv2 QPs (R182, R187, R205, R206). -/

namespace Sys2Proof.Machine

/-- Bytes of the extended headers of a kind (the RoCEv2 standard's; PRESUMED, log 19). -/
def roceExtBytes : RoceKind → Nat
  | .send _ imm => if imm then 4 else 0
  | .write first _ imm => (if first then 16 else 0) + (if imm then 4 else 0)
  | .readReq => 16
  | .readResp _ => 4
  | .fetchAdd => 28
  | .cmpSwap => 28
  | .atomicAck => 12
  | .ack => 4
  | .nakSequence => 4
  | .nakAccess _ => 4
  | .nakInvalid _ => 4
  | .rnrNak _ => 4
  | .other => 0

/-- Whether a port runs priority flow control (R206): its bit of PFC_EN, in IEEE mode. -/
def pfcOn (s : State) (n : Nat) : Bool := s.pfcEn.getLsbD n && portMode s n != 0

/-- The tag of a RoCEv2 frame: VID, and PCP = PRIO for TC7 on a port with priority flow control (R206, R323). -/
def roceVlan (s : State) (port tc : Nat) : Option (Nat × Nat) :=
  (portVlan s port).map (fun v => (v, if pfcOn s port && tc == 7 then s.pfcPrio else 0))

/-- Queue one RoCEv2 packet of a QP on its port (R182). -/
def roceQueue (qpn tc : Nat) (p : RocePkt) (s : State) : State :=
  let q := s.qp qpn
  let lp := pathPort q 0
  let v := roceVlan s (lpPort lp) tc
  let bytes := 14 + (if v.isSome then 4 else 0) + (if q.ipv4 then 20 else 40) + 8 + 12 + roceExtBytes p.kind +
    roundUp p.payload.length 4 + 4 + 4
  let fr := Frame.roce (netHdr s lp q.ipv4 (pathDst q 0) tc q.sportBase 4791 v) p
  let sl := (s.ctx q.ctx).slice
  egressPut lp { kind := .roce, tc := tc, bytes := bytes, frame := fr }
    (count sl 12 (countBy sl 14 p.payload.length (count 522 (64 * q.needle.getD 0) s)))

/-- A RoCEv2 packet of a QP with its destination and PSN; other fields as given. -/
def rocePkt (s : State) (q : Qp) (tc : Nat) (kind : RoceKind) (psn : BitVec 24) (payload : List Byte) : RocePkt :=
  { lport := pathPort q 0, src := 0, dscp := BitVec.ofNat 6 (tcDscpOf s tc), icrcOk := true, ce := false, kind := kind,
    psn := psn, dstQp := BitVec.ofNat 24 q.remoteQpn, va := 0, rkey := 0, dmaLen := 0, imm := 0, swapAdd := 0, compare := 0,
    payload := payload }

def Qp.updRoce (q : Qp) (f : RoceSt → RoceSt) : Qp := { q with roce := f q.roce }

/-- Send what waits on a RoCEv2 QP: an ACTIVE or draining one that does not wait out an RNR NAK, whose port is
up (R182, R402). The payload bytes sent advance the byte counter of the rate reaction (R205). -/
def pumpRoce (qpn : Nat) (s : State) : State :=
  let q := s.qp qpn
  if !((q.st == .active || (q.st == .draining && !q.abort)) && running s && !q.roce.rnrWait && lportUp s (pathPort q 0)) then s
  else
    let out := q.roce.queue
    let n := (out.map (fun o => o.pkt.payload.length)).foldl (· + ·) 0
    let s := s.updQp qpn (fun q => q.updRoce (fun r => { r with queue := [], unacked := r.unacked ++ out, bytes := r.bytes + n }))
    out.foldl (fun s o => roceQueue qpn o.tc o.pkt s) s

/-- Give a RoCEv2 QP packets to send, each taking the next PSNs. -/
def roceSend (qpn : Nat) (os : List RoceOut) (s : State) : State :=
  let s := os.foldl (fun s o => s.updQp qpn (fun q => q.updRoce (fun r => { r with
    queue := r.queue ++ [{ o with pkt := { o.pkt with psn := r.sndNext } }]
    sndNext := r.sndNext + BitVec.ofNat 24 o.span }))) s
  pumpRoce qpn s

/-- The packets of a RoCEv2 WRITE or SEND of a stream (R182): the last carries the immediate and the owner. -/
def roceStream (s : State) (qpn tc : Nat) (send : Bool) (win : BitVec 32) (va : Nat) (imm : Option (BitVec 32))
    (data : List Byte) (owner : Nat × Nat × Nat) : List RoceOut :=
  let q := s.qp qpn
  let n := max 1 (ceilDiv data.length q.payloadMax)
  (List.range n).map (fun k =>
    let d := (data.drop (k * q.payloadMax)).take q.payloadMax
    let last := k + 1 == n
    let im := last && imm.isSome
    let kind := if send then RoceKind.send last im else RoceKind.write (k == 0) last im
    let p := rocePkt s q tc kind 0 d
    { pkt := { p with
        va := BitVec.ofNat 64 va, rkey := win, dmaLen := BitVec.ofNat 32 data.length, imm := if im then imm.getD 0 else 0 },
      tc := tc, owner := if last then some owner else none })

end Sys2Proof.Machine
end

