-- ==== Sys2Proof/Machine/FrameBytes.lean ====
section
/-! DEFINITION. The bytes of a frame as it leaves a fabric port, most significant byte first (00_scope R4): Ethernet, tag, IP,
UDP, the ERT header and payload, and the frame check sequence (05 R150, 06 R187, 11 R321, R323). What the RoCEv2 standard lays
out below UDP is a free value of the right length. -/

namespace Sys2Proof.Machine

/-! ### Checks -/

/-- The IEEE 802.3 CRC-32 of bytes. -/
def crc32 (bs : List Byte) : BitVec 32 := crcOf 0xEDB88320#32 bs

/-- The 16-bit words of bytes, most significant byte first, the last padded with a zero byte. -/
def words16 : List Byte → List Nat
  | [] => []
  | [a] => [a.toNat * 256]
  | a :: b :: t => (a.toNat * 256 + b.toNat) :: words16 t

/-- The Internet checksum of bytes: the complement of their one's-complement sum. -/
def inetCsum (bs : List Byte) : Nat :=
  let t := (words16 bs).foldl (· + ·) 0
  let f (x : Nat) : Nat := x % 65536 + x / 65536
  65535 - f (f (f t))

/-! ### Headers -/

/-- The IPv4 address in a 128-bit one's top 32 bits. -/
def addr4 (a : BitVec 128) : Nat := a.toNat / 2 ^ 96

/-- The two addresses of a header, as its family lays them out. -/
def ipAddrs (h : NetHdr) : List Byte :=
  if h.ipv4 then beBytes 4 (addr4 h.src) ++ beBytes 4 (addr4 h.dst) else beBytes 16 h.src.toNat ++ beBytes 16 h.dst.toNat

/-- The destination and source MAC addresses and the tag of a logical port's frame (R321, R323). -/
def macHead (lp : Nat) (dmac : Nat) (tag : Option (Nat × Nat)) (etype : Nat) : List Byte :=
  beBytes 6 dmac ++ beBytes 6 (Config.baseMac.toNat / 128 * 128 + lp) ++
    (match tag with | some (vid, pcp) => beBytes 2 0x8100 ++ beBytes 2 (pcp * 8192 + vid) | none => []) ++ beBytes 2 etype

/-- The IP header before a UDP datagram of a length (R150, R187): IPv6 with flow label 0, or IPv4 with DF; hop limit or TTL 64.
The IPv4 identification is open, since the spec gives it no value (DESIGN CHOICE: free, log 127). -/
def ipHead (h : NetHdr) (len ident : Nat) : List Byte :=
  let tos := h.dscp * 4 + h.ecn
  if h.ipv4 then
    let top := [0x45, BitVec.ofNat 8 tos] ++ beBytes 2 (20 + len) ++ beBytes 2 ident ++ beBytes 2 0x4000 ++ [64, 17]
    top ++ beBytes 2 (inetCsum (top ++ ipAddrs h)) ++ ipAddrs h
  else beBytes 4 (6 * 2 ^ 28 + tos * 2 ^ 20) ++ beBytes 2 len ++ [17, 64] ++ ipAddrs h

/-- The UDP checksum (R150): a computed 0 is sent as 0xFFFF. -/
def udpCsum (h : NetHdr) (udp body : List Byte) : Nat :=
  let len := udp.length + 2 + body.length
  let pseudo := if h.ipv4 then ipAddrs h ++ [0, 17] ++ beBytes 2 len else ipAddrs h ++ beBytes 4 len ++ [0, 0, 0, 17]
  let c := inetCsum (pseudo ++ udp ++ [0, 0] ++ body)
  if c = 0 then 65535 else c

/-- Bytes that a standard lays out, by what they carry. -/
def stdBytes (key : List Nat) (n : Nat) : List Byte := (List.range n).map (Config.stdByte key)

/-- The UDP header of a body: ports, length, and the checksum, which the spec states for ERT only; a RoCEv2 packet's is its
standard's. -/
def udpHead (h : NetHdr) (ert : Bool) (body : List Byte) : List Byte :=
  let u := beBytes 2 h.sport ++ beBytes 2 h.dport ++ beBytes 2 (8 + body.length)
  u ++ (if ert then beBytes 2 (udpCsum h u body) else stdBytes (4 :: (ipAddrs h ++ u ++ body).map (·.toNat)) 2)

/-- A frame closed by its frame check sequence, least significant byte first as the standard sends it. -/
def withFcs (bs : List Byte) : List Byte := bs ++ leBytes 4 (crc32 bs).toNat

/-- A frame of a UDP body. -/
def udpFrame (lp dmac : Nat) (h : NetHdr) (ert : Bool) (body : List Byte) : List Byte :=
  withFcs (macHead lp dmac h.tag (if h.ipv4 then 0x0800 else 0x86DD) ++
    ipHead h (8 + body.length) (Config.ipIdent (ofBe body)).toNat ++ udpHead h ert body ++ body)

/-! ### What the RoCEv2 standard lays out -/

/-- A RoCEv2 kind as numbers. -/
def roceKindKey : RoceKind → List Nat
  | .send l i => [0, b2n l, b2n i]
  | .write f l i => [1, b2n f, b2n l, b2n i]
  | .readReq => [2]
  | .readResp l => [3, b2n l]
  | .fetchAdd => [4]
  | .cmpSwap => [5]
  | .atomicAck => [6]
  | .ack => [7]
  | .nakSequence => [8]
  | .nakAccess y => [9, y.toNat]
  | .nakInvalid y => [10, y.toNat]
  | .rnrNak t => [11, t.toNat]
  | .other => [12]

/-! ### Frames -/

/-- The bytes of a frame of a logical port, from its destination MAC address through its FCS; `dmac` is NET_LP_NEXTHOP. -/
def frameBytes (lp dmac : Nat) : Frame → List Byte
  | .ert h head payload => udpFrame lp dmac h true (head ++ payload)
  | .roce h p =>
    let ext := roceExtBytes p.kind
    let key := 0 :: roceKindKey p.kind ++ [p.psn.toNat, p.dstQp.toNat, p.va.toNat, p.rkey.toNat, p.dmaLen.toNat, p.imm.toNat,
      p.swapAdd.toNat, p.compare.toNat] ++ p.payload.map (·.toNat)
    let b := stdBytes key (12 + ext + roundUp p.payload.length 4 + 4)
    udpFrame lp dmac h false (b.take (12 + ext) ++ p.payload ++ b.drop (12 + ext + p.payload.length))
  | .cnp h qp => udpFrame lp dmac h false (stdBytes [1, qp] (12 + 16 + 4))
  | .cm h data =>
    let b := stdBytes (2 :: data.map (·.toNat)) (20 + data.length + 4)
    udpFrame lp dmac h false (b.take 20 ++ data ++ b.drop (20 + data.length))
  | .pfc prio pause => withFcs (macHead lp 0x0180C2000001 none 0x8808 ++ stdBytes [3, prio, b2n pause] 46)

end Sys2Proof.Machine
end

