-- ==== Sys2Proof/Machine/NativePhy.lean ====
section
/-! DEFINITION. The native PHY's sending side (11 R324-R327): blocks, their scrambling, the four interleaved RS(544,514)
codewords, Gray coding and precoding, the CADENCE blocks, and the dealing of blocks to lanes. The order of the bits of a byte
within the code's symbols and the code itself are IEEE 802.3's (PRESUMED, log 128). -/

namespace Sys2Proof.Machine

/-! ### Bits and symbols -/

/-- The bits of bytes in the order in which they enter the scrambler and the FEC: bytes ascending, each least significant
bit first. -/
def bitsOf (bs : List Byte) : List Bool := bs.flatMap (fun b => (List.range 8).map b.getLsbD)

/-- Bits in groups of `n`, as numbers, first bit least significant; `fuel` bounds the groups. -/
def groupBits (n : Nat) : Nat → List Bool → List Nat
  | 0, _ => []
  | fuel + 1, l =>
    if l.isEmpty then [] else (l.take n).foldr (fun b v => b2n b + 2 * v) 0 :: groupBits n fuel (l.drop n)

/-- The self-synchronising scrambler 1 + x^39 + x^58 (R324): bit k of the register is the scrambled bit sent k + 1 bits ago. -/
def scrambleBits (r : BitVec 58) (l : List Bool) : BitVec 58 × List Bool :=
  let x := l.foldl (fun (acc : BitVec 58 × List Bool) b =>
    let o := b ^^ acc.1.getLsbD 38 ^^ acc.1.getLsbD 57
    ((acc.1 <<< 1) ||| BitVec.ofNat 58 (b2n o), o :: acc.2)) (r, [])
  (x.1, x.2.reverse)

/-! ### RS(544,514) over GF(2^10) (R324) -/

/-- Multiply by x in GF(2^10), with x^10 + x^3 + 1. -/
def gfX (a : BitVec 10) : BitVec 10 := if a.getLsbD 9 then (a <<< 1) ^^^ 9#10 else a <<< 1

/-- Multiply in GF(2^10). -/
def gfMul (a b : BitVec 10) : BitVec 10 :=
  ((List.range 10).foldl (fun (acc : BitVec 10 × BitVec 10) i =>
    (if b.getLsbD i then acc.1 ^^^ acc.2 else acc.1, gfX acc.2)) (0#10, a)).1

/-- The generator polynomial without its leading 1, coefficient of x^29 first: the product of (x - x^j) for j = 0 to 29. -/
def rsGen : List (BitVec 10) :=
  ((List.range 30).foldl (fun (acc : List (BitVec 10) × BitVec 10) _ =>
    (List.zipWith (· ^^^ ·) (acc.1 ++ [0]) (0 :: acc.1.map (gfMul acc.2)), gfX acc.2)) ([1#10], 1#10)).1.drop 1

/-- The 30 parity symbols of a codeword's 514 symbols, the first of highest degree. -/
def rsParity (d : List (BitVec 10)) : List (BitVec 10) :=
  let g := rsGen
  d.foldl (fun p x =>
    let f := x ^^^ p.headD 0
    List.zipWith (fun a b => a ^^^ gfMul f b) (p.drop 1 ++ [0]) g) (List.replicate 30 0)

/-- The symbols of one of four interleaved sequences. -/
def everyFourth (k : Nat) (l : List (BitVec 10)) : List (BitVec 10) :=
  (l.zipIdx.filter (fun e => e.2 % 4 == k)).map (·.1)

/-- A lane group (R324): 2,056 symbols and 120 of parity, symbol i belonging to codeword i mod 4. -/
def laneGroup (d : List (BitVec 10)) : List (BitVec 10) :=
  let p := (List.range 4).map (fun k => rsParity (everyFourth k d))
  d ++ (List.range 30).flatMap (fun i => p.map (fun c => c.getD i 0))

/-! ### PAM4 (R324) -/

/-- The Gray code of a bit pair, first bit first. -/
def gray (a b : Bool) : BitVec 2 := match a, b with | false, false => 0 | false, true => 1 | true, true => 2 | true, false => 3

/-- Gray-coded and precoded symbols: 1/(1 + D) modulo 4, from the last symbol sent. -/
def pam4 : BitVec 2 → List Bool → List (BitVec 2)
  | p, a :: b :: t => let x := gray a b - p; x :: pam4 x t
  | _, _ => []

/-! ### Native blocks (R325) -/

/-- Bits [79:32] of a block header. -/
def blockHead (type seq ack : Nat) (ackValid : Bool) (ptr lane : Nat) : List Byte :=
  beBytes 6 (type * 2 ^ 46 + seq * 2 ^ 38 + ack * 2 ^ 30 + b2n ackValid * 2 ^ 29 + ptr * 2 ^ 17 + lane * 2 ^ 14)

/-- A body of 2,560 bytes: what it holds, and zeros. -/
def blockBody (bs : List Byte) : List Byte := slice bs 0 2560

/-- The bytes of a block: its CRC covers the header's other bits and the body, before the body is scrambled (DEDUCED, log 128). -/
def blockBytes (head body : List Byte) : List Byte := head ++ beBytes 4 (crc32 (head ++ body)).toNat ++ body

/-- The symbols of a block on a lane, with the lane's next scrambler and precoder state: the body is scrambled, then the block
is encoded and sent as one group. -/
def laneSymbols (l : Lane) (b : List Byte) : List (BitVec 2) × Lane :=
  let sc := scrambleBits l.scr (bitsOf (b.drop 10))
  let d := (groupBits 10 2056 (bitsOf (b.take 10) ++ sc.2)).map (BitVec.ofNat 10)
  let bits := (laneGroup d).flatMap (fun x => (List.range 10).map x.getLsbD)
  let ps := pam4 l.pre bits
  (ps, { l with scr := sc.1, pre := ps.getLastD l.pre })

/-- Send one block on a lane; every block carries the sub-port's present ACK_SEQ (R328). -/
def laneBlock (lp lane type seq ptr : Nat) (body : List Byte) (s : State) : State :=
  let p := s.lport lp
  let b := blockBytes (blockHead type seq (p.rxSeq - 1).toNat p.gotAny ptr lane) (blockBody body)
  let x := laneSymbols (Tab.getD p.lanes lane {}) b
  emit (.block lp lane b x.1) (s.updLport lp (fun p => { p with lanes := Tab.put p.lanes lane x.2 }))

/-- Send one block on a lane of a sub-port that is up: every 32nd block of the lane is a CADENCE block (R326). -/
def laneSend (lp lane type seq ptr : Nat) (body : List Byte) (s : State) : State :=
  let due := ((Tab.getD (s.lport lp).lanes lane {}).blocks) == 31
  let s := if due then laneBlock lp lane 1 0 0xFFF [] s else s
  let s := s.updLport lp (fun p => { p with lanes := Tab.upd p.lanes lane {} (fun l => { l with blocks := if due then 1 else l.blocks + 1 }) })
  laneBlock lp lane type seq ptr body s

/-- The active lanes of a sub-port. -/
def activeLanes (s : State) (lp : Nat) : List Nat := (List.range 8).filter (fun i => (s.lport lp).mask.getLsbD i)

/-- The lane whose turn it is: blocks are dealt round-robin (R326). -/
def dealLane (s : State) (lp : Nat) : Nat :=
  let ls := activeLanes s lp
  ls.getD ((s.lport lp).dealt % max 1 ls.length) 0

/-- Deal a block to the next lane. -/
def dealBlock (lp type seq ptr : Nat) (body : List Byte) (s : State) : State :=
  let i := dealLane s lp
  laneSend lp i type seq ptr body (s.updLport lp (fun p => { p with dealt := p.dealt + 1 }))

/-- Send a control word on the lane whose turn it is (R327). -/
def sendCtl (lp : Nat) (word : Word) (s : State) : State := dealBlock lp 1 0 0xFFF (beBytes 8 word.toNat) s

/-- Send a control word on given lanes, where a sub-port trains or changes its width (R329, R330). -/
def sendCtlOn (lp : Nat) (lanes : List Nat) (word : Word) (tail : List Byte) (s : State) : State :=
  lanes.foldl (fun s i => laneBlock lp i 1 0 0xFFF (beBytes 8 word.toNat ++ tail) s) s

/-- Send an IDLE block, which acknowledges (R325, R328). -/
def sendIdle (lp : Nat) (s : State) : State := dealBlock lp 2 0 0xFFF [] s

/-- A frame with its marker, padded to a multiple of 4 bytes (R326). -/
def markedFrame (f : List Byte) : List Byte := beBytes 4 f.length ++ f ++ zeros (roundUp f.length 4 - f.length)

/-- The bodies of a frame's DATA blocks with their FRAME_PTRs: its marker begins the first; the marker of length 0 that ends the
last one begins no frame (DEDUCED, log 128). -/
def frameBodies (f : List Byte) : List (Nat × List Byte) :=
  let d := markedFrame f
  (List.range (ceilDiv d.length 2560)).map (fun k => (if k = 0 then 0 else 0xFFF, (d.drop (2560 * k)).take 2560))

/-- Send the DATA blocks for which the replay buffer has room: it keeps 64 (R328). -/
def pumpBlocks (lp : Nat) (s : State) : State :=
  let l := s.lport lp
  let n := 64 - l.replay.length
  (l.unsent.take n).foldl (fun s b =>
    let b := { b with seq := (s.lport lp).txSeq }
    dealBlock lp 0 b.seq.toNat b.ptr b.body (s.updLport lp (fun l => { l with txSeq := l.txSeq + 1, replay := l.replay ++ [b] })))
    (s.updLport lp (fun l => { l with unsent := l.unsent.drop n }))

/-- Send a frame in DATA blocks of its own, which the replay buffer keeps (R326, R328). -/
def nativeSend (lp : Nat) (f : List Byte) (s : State) : State :=
  pumpBlocks lp (s.updLport lp (fun l => { l with unsent := l.unsent ++ (frameBodies f).map (fun x => { seq := 0, ptr := x.1, body := x.2 }) }))

end Sys2Proof.Machine
end

