-- ==== Sys2Proof/Machine/Engine.lean ====
section
/-! DEFINITION. Work extents (R93-R96, R112, R113, R120, R243): how an operation is split, its translations,
reads, conversion, writes and messages, and how an extent ends. -/

namespace Sys2Proof.Machine

/-! ### What an operation is -/

/-- GAUGE of an operation, where its opcode honours it (R79, R229). -/
structure Gauge where
  inF : Nat := 0
  outF : Nat := 0
  stoch : Bool := false
  sat : Bool := false
  ply : Bool := false
  deriving DecidableEq, Repr

/-- Whether an opcode honours GAUGE (R229). -/
def gaugeOp (op : Nat) : Bool := op == 0x03 || op == 0x10 || op == 0x11 || op == 0x12 || op == 0x20 || op == 0x21

/-- GAUGE of a descriptor. -/
def Op.gauge (o : Op) : Gauge :=
  let w := o.w 5
  if gaugeOp o.opcode then { inF := dInFmt w, outF := dOutFmt w, stoch := dStoch w, sat := dSat w, ply := dPly w } else {}

/-- The kinds of operation that are divided into work extents (R93, R120). -/
inductive OpKind where
  | local_
  | write
  | read
  | send
  | atomic
  | none
  deriving DecidableEq, Repr

/-- What kind of operation a descriptor is (R79, R120): one of LENGTH 0 reads nothing from its peer (R94). -/
def Op.kind (o : Op) : OpKind :=
  match o.opcode with
  | 0x01 => if o.asWrite then .write else if o.asRead && dLength (o.w 1) ≠ 0 then .read else .local_
  | 0x02 => if o.asWrite then .write else .local_
  | 0x03 => if o.asWrite then .write else if o.asRead && dLength (o.w 1) ≠ 0 then .read else .local_
  | 0x10 => .write
  | 0x11 => .read
  | 0x12 => .send
  | 0x18 => .atomic
  | 0x19 => .atomic
  | 0x30 => if dWindow (o.w 5) = 0 then .none else .atomic
  | _ => .none

/-- WINDOW and offset of an operation's remote side (R79, R120). -/
def Op.window (o : Op) : BitVec 32 := if o.asRead || o.asWrite then o.win else dWindow (o.w 5)
def Op.remoteOff (o : Op) : Nat :=
  if o.asRead || o.asWrite then o.remOff
  else match o.opcode with | 0x10 => dOff (o.w 3) | 0x11 => dOff (o.w 2) | _ => dOff (o.w 4)

/-- LENGTH. -/
def Op.length (o : Op) : Nat := dLength (o.w 1)

/-- E and n of a split operation (R93). -/
def extentSize (len : Nat) : Nat := max 262144 (roundUp (ceilDiv len 16) 4096)

/-- The work extents of an operation (R93, R94). -/
def Op.splits (o : Op) : List WorkExt :=
  let len := o.length
  match o.kind with
  | .send => [{ off := 0, len := len }]
  | .atomic => [{ off := 0, len := if o.opcode = 0x30 then 0 else len }]
  | .none => []
  | _ =>
    let e := extentSize len
    (List.range (max 1 (ceilDiv len e))).map (fun i => { off := i * e, len := min e (len - i * e) })

/-- The input bytes of an extent: R93's range, or the tiles of an MX stream whose first byte lies in it (R235), in a
pass-through too. -/
def extIn (g : Gauge) (e : WorkExt) : Nat × Nat :=
  if isMx g.inF then
    let t := tileBytes g.inF
    let a := ceilDiv e.off t * t
    let b := ceilDiv (e.off + e.len) t * t
    (a, b - a)
  else (e.off, e.len)

/-- Where an extent's output begins in the output stream (R233). -/
def extOut (g : Gauge) (off : Nat) : Nat := if g.inF = g.outF then off else fmtBytes g.outF (fmtElems g.inF off)

/-- Elements, as (first, count), that bad input bytes make bad (R246). -/
def badElems (fmt : Nat) (r : Nat × Nat) : List (Nat × Nat) :=
  if !isMx fmt then
    let z := elemBytes fmt
    [(r.1 / z, ceilDiv (r.1 + r.2) z - r.1 / z)]
  else
    let t := tileBytes fmt
    let c := 32 * mxBits fmt
    (List.range (ceilDiv (r.1 + r.2) t - r.1 / t)).flatMap (fun k =>
      let base := (r.1 / t + k) * t
      let a := r.1 - base
      let b := min t (r.1 + r.2 - base)
      let codes := if a < c then [(base / t * 256 + a * 8 / mxBits fmt, ceilDiv (min b c * 8) (mxBits fmt) - a * 8 / mxBits fmt)] else []
      let scales := (List.range 8).filterMap (fun i =>
        if a ≤ c + i ∧ c + i < b then some (base / t * 256 + 32 * i, 32) else none)
      codes ++ scales)

/-- Output bytes that depend on elements (R246): the whole MX block of each. -/
def elemRanges (fmt : Nat) (e : Nat × Nat) : List (Nat × Nat) :=
  if !isMx fmt then [(e.1 * elemBytes fmt, e.2 * elemBytes fmt)]
  else
    let t := tileBytes fmt
    let w := 4 * mxBits fmt
    (List.range (ceilDiv (e.1 + e.2) 32 - e.1 / 32)).flatMap (fun k =>
      let b := e.1 / 32 + k
      [(b / 8 * t + b % 8 * w, w), (b / 8 * t + 8 * w + b % 8, 1)])

/-- Output ranges that bad input ranges make bad (R246); both relative to the extent's own streams. -/
def badOut (g : Gauge) (bad : List (Nat × Nat)) : List (Nat × Nat) :=
  if g.inF = g.outF then bad else (bad.flatMap (badElems g.inF)).flatMap (elemRanges g.outF)

/-! ### Changing an extent -/

/-- Extent `i` of an operation. -/
def Op.ext (o : Op) (i : Nat) : WorkExt := o.work.getD i { off := 0, len := 0 }

/-- The number of an extent's present run. -/
def WorkExt.run (e : WorkExt) : Nat := e.runs + e.redo

/-- Change an extent. -/
def updExt (sq idx i : Nat) (f : WorkExt → WorkExt) (s : State) : State :=
  s.updOp sq idx (fun o => { o with work := o.work.modify i f })

/-- Whether an extent has ended. -/
def extEnded (e : WorkExt) : Bool := e.st == .landed || e.st == .failed

/-- Operations whose work extents are groups of layers or of chunks (R222, R279). -/
def composite (o : Op) : Bool := o.opcode == 0x20 || o.opcode == 0x21

/-- Whether every extent has ended, or has not started and never will (R178, R36). -/
def allEnded (o : Op) : Bool :=
  if composite o then o.finished || o.stop.isSome
  else o.work.all (fun e => extEnded e || (o.stop.isSome && e.st == .waiting))

/-- Once every extent has ended, an operation whose marker is not on the host link of its own host writes reads
its last written line back (R55): a host port is one link there (R292, R306). -/
def settleOp (sq idx : Nat) (s : State) : State :=
  match s.op sq idx with
  | none => s
  | some o =>
    if o.done || !allEnded o || o.fence ≠ 0 then s
    else
      match o.sig, o.hostWrites with
      | some r, some (link, addr) =>
        let near := match keyHost r.key with | some (l, _) => l == link | none => false
        if near then s
        else
          let s := s.updOp sq idx (fun o => { o with fence := 1 })
          (hostRead link (some (s.ctx o.ctx).slice) addr 1 (fun _ => .opFence sq idx) s).2
      | _, _ => s

/-- An extent lands or fails: its mover is free again. -/
def extEnd (sq idx i : Nat) (ok : Bool) (s : State) : State :=
  let s := updExt sq idx i (fun e => { e with st := if ok then .landed else .failed, engine := 0, got := [], outstanding := 0 }) s
  let s := s.updOp sq idx (fun o =>
    if ok || o.detail ≠ 0 then o else { o with detail := partialDetail (o.ext i).cause i (o.ext i).source })
  settleOp sq idx s

/-- Note the first cause of an extent's failure (R403). -/
def extCause (sq idx i cause source : Nat) (s : State) : State :=
  updExt sq idx i (fun e => if e.cause = 0 then { e with cause := cause, source := source } else e) s

/-- Fail an extent (R95): it ends once nothing of it is outstanding. -/
def extFail (sq idx i cause source : Nat) (s : State) : State :=
  let s := extCause sq idx i cause source s
  match s.op sq idx with
  | some o => if (o.ext i).outstanding = 0 && (o.ext i).msgsLeft = 0 && !extEnded (o.ext i) then extEnd sq idx i false s else s
  | none => s

/-! ### Translating a range -/

/-- A range translated: pieces as (offset in the range, extent, length), and the uses they add; or a failure, or
a wait. -/
inductive XRange where
  | ok (pieces : List (Nat × Ext × Nat)) (uses : List TUse)
  | fail (r : TrRes)
  | wait
  deriving DecidableEq, Repr

/-- Translate a range from its first byte: stored extents first (R112), then by translations of its own (R113). -/
def xlateRange (purp : XPurp) (st : Stream) (a : Acc) (stored : List Ext) : Nat → Nat → Nat → State → XRange × State
  | 0, _, _, s => (.ok [] [], s)
  | fuel + 1, off, len, s =>
    if len = 0 then (.ok [] [], s)
    else
      let cva := a.cva + off
      match stored.find? (fun e => decide (e.cva ≤ cva) && decide (cva < e.cva + e.len)) with
      | some e =>
        let n := min len (e.cva + e.len - cva)
        match xlateRange purp st a stored fuel (off + n) (len - n) s with
        | (.ok ps us, s) => (.ok ((off, e, n) :: ps) us, s)
        | r => r
      | none =>
        match translateOr purp st { a with cva := cva, len := len } s with
        | (.ok e, s) =>
          let n := min len e.len
          match xlateRange purp st a stored fuel (off + n) (len - n) s with
          | (.ok ps us, s) => (.ok ((off, e, n) :: ps) ({ ctx := a.ctx, panel := e.panel, tgen := e.tgen } :: us), s)
          | r => r
        | (.fail r, s) => (.fail r, s)
        | (.wait, s) => (.wait, s)

/-- Fuel for a range: an extent covers at least the rest of a 32 MiB page. -/
def xfuel (len : Nat) : Nat := len / 33554432 + 3

/-- CAUSE and SOURCE of a translation that fails a running extent (R110, R113, R137). -/
def trCause (r : TrRes) : Nat × Nat :=
  match r with
  | .chartFailed g => (caChartRead, 32 + g)
  | .faultFailed => (caFaultFailed, 0x3F)
  | _ => (caTranslation, 0x3F)

/-! ### Memory requests through an extent -/

/-- The cause of a request to device memory that cannot be issued (R335, R403). -/
def lostCause (s : State) (addr : Nat) : Nat :=
  match dpaPort s addr with
  | some p => if (s.die p).attached then causeFrom caDiePortLost (38 + p) else caTargetError
  | none => caTargetError

/-! ### Movers -/

/-- A mover in service (R398). -/
def unitOk (s : State) (source unit : Nat) : Bool := Tab.getD s.fc.units (source * 64 + unit) .inService == .inService

/-- The lowest free mover in service. -/
def freeMover (s : State) : Option Nat :=
  let busy := s.ops.flatMap (fun o => o.2.work.map (·.engine))
  (List.range 32).find? (fun m => unitOk s (16 + m / 4) (m % 4) && !busy.contains (m + 1))

/-! ### The stages of an extent -/

/-- The stream of an operation's translations (R114). -/
def opStream (sq : Nat) (o : Op) : Stream :=
  match o.qpn with
  | some n => .qp n
  | none => .sq (sq % 65536)

/-- The stored extents of one of a descriptor's addresses. -/
def Op.stored (o : Op) (addr : Nat) : List Ext := o.exts.filter (fun e => e.addr == addr)

/-- The source: word number and CVA. -/
def Op.src (o : Op) : Nat × Nat := (2, dCva (o.w 2))
/-- The destination: word number and CVA. -/
def Op.dst (o : Op) : Nat × Nat := if o.opcode = 0x19 then (11, dCva (o.w 11)) else (3, dCva (o.w 3))

/-- Write an extent's output (local operations): translate its destination, then write (R94, R95). -/
def extWriteOut (sq idx i : Nat) (s : State) : State :=
  match s.op sq idx with
  | none => s
  | some o =>
    let e := o.ext i
    let g := o.gauge
    let r := extIn g e
    let out := convertBytes g.inF g.outF g.stoch g.sat (s.ctx o.ctx).seed 0 (fmtElems g.inF r.1) (joinPieces e.got)
    let base := o.dst.2 + extOut g r.1
    let a : Acc := { ctx := o.ctx, cva := base, len := out.length, kind := .write }
    match xlateRange (.extent sq idx i) (opStream sq o) a (o.stored o.dst.1) (xfuel out.length) 0 out.length s with
    | (.wait, s) => s
    | (.fail t, s) => let c := trCause t; extFail sq idx i c.1 c.2 (forgetSeen (.extent sq idx i) s)
    | (.ok ps us, s) =>
      let s := us.foldl (fun s u => addUse u s) (forgetSeen (.extent sq idx i) s)
      let s := s.updOp sq idx (fun o => { o with tuses := us ++ o.tuses })
      let s := updExt sq idx i (fun e => { e with st := .writing }) s
      let r := ps.foldl (fun (r : Nat × Nat × State) p =>
        let d := slice out p.1 p.2.2
        let w := extWrite o.ctx p.2.1 (base + p.1) d (fun off len => .opWrite sq idx (i + 16 * e.run) (p.1 + off) len) r.2.2
        let s := w.2.2
        let s := if p.2.1.target == .host then
          s.updOp sq idx (fun o => { o with hostWrites := some ((s.slice (s.ctx o.ctx).slice).link, (p.2.1.memAt (base + p.1)).addr + p.2.2 - 1) })
          else s
        (r.1 + w.1, (if w.2.1 || r.2.1 ≠ 0 then r.2.1 else lostCause s (p.2.1.memAt (base + p.1)).addr), s)) (0, 0, s)
      let s := updExt sq idx i (fun e => { e with outstanding := r.1 }) r.2.2
      if r.2.1 ≠ 0 then extFail sq idx i r.2.1 0x3F s
      else if r.1 = 0 then extEnd sq idx i true s
      else s

/-- The immediate of a descriptor (R78). -/
def Op.imm (o : Op) : Option (BitVec 32) := if dImm (o.w 0) then some (dHi (o.w 4)) else none

/-- Whether a QP sends what its started operations need (R144): an ACTIVE one, or one that drains without an abort. -/
def qpWorks (q : Qp) : Bool := q.st == .active || (q.st == .draining && !q.abort)

/-- Cut a list of bytes into messages of at most 2^31 bytes, with their offsets (R155). -/
def msgPieces (data : List Byte) : List (Nat × List Byte) :=
  let n := max 1 (ceilDiv data.length (2 ^ 31))
  (List.range n).map (fun k => (k * 2 ^ 31, (data.drop (k * 2 ^ 31)).take (2 ^ 31)))

/-- Send a gathered extent of `WRITE_REMOTE` or `SEND` (R155, R163, R243): the extent whose input was bad fails. RoCEv2 has
no packet that says so, and no value made from bad input may be written (R246): there nothing of the extent is sent (DESIGN
CHOICE, log 121). -/
def extSend (sq idx i : Nat) (s : State) : State :=
  match s.op sq idx with
  | none => s
  | some o =>
    match o.qpn with
    | none => s
    | some qpn =>
      let e := o.ext i
      let g := o.gauge
      let q := s.qp qpn
      let r := extIn g e
      let out := convertBytes g.inF g.outF g.stoch g.sat (s.ctx o.ctx).seed 0 (fmtElems g.inF r.1) (joinPieces e.got)
      let bad := badOut g e.bad
      let tc := dTc (o.w 0)
      let lastExt := i + 1 == o.work.length
      let off := o.remoteOff + extOut g r.1
      let s := if bad.isEmpty then s else extCause sq idx i (if e.badCause = 0 then caSourcePoison else e.badCause) 0x3F s
      if q.mode == .roce && !bad.isEmpty then extEnd sq idx i false s
      else if q.mode == .roce then
        let s := updExt sq idx i (fun e => { e with st := .sending, msgsLeft := 1, got := [] }) s
        roceSend qpn (roceStream s qpn tc (o.kind == .send) o.window off (if lastExt then o.imm else none) out (sq, idx, i)) s
      else
        let ps := if o.kind == .send then [(0, out)] else msgPieces out
        let ply := if g.ply then some g.outF else none
        let s := updExt sq idx i (fun e => { e with st := .sending, msgsLeft := ps.length, got := [] }) s
        ps.zipIdx.foldl (fun s pk =>
          let p := pk.1
          let last := lastExt && pk.2 + 1 == ps.length
          let imm := if last then o.imm else none
          let cut := cutStream q.payloadMax ply p.2 (bad.filterMap (fun b =>
            if overlaps b.1 b.2 p.1 p.2.length then some (b.1 - p.1, b.1 + b.2 - max b.1 p.1) else none))
          let m : Msg :=
            { id := 0, op := if o.kind == .send then 1 else 0, tc := tc,
              window := if o.kind == .send then (s.qp qpn).rxSeq else o.window, len := p.2.length,
              pkts := if o.kind == .send then otherPkts cut p.2.length else writePkts cut (off + p.1) p.2.length,
              imm := imm, act := o.kind == .send || imm.isSome, ply := g.ply, owner := .extent sq idx i }
          let s := if o.kind == .send then s.updQp qpn (fun q => { q with rxSeq := q.rxSeq + 1 }) else s
          sendMsg qpn m s) s

/-- Send the extents that are ready; the last one only after every other has sent or failed (R155). -/
def sendReady (sq idx : Nat) (s : State) : State :=
  match s.op sq idx with
  | none => s
  | some o =>
    (List.range o.work.length).foldl (fun s i =>
      match s.op sq idx with
      | none => s
      | some o =>
        let rest := o.work.take (o.work.length - 1)
        if (o.ext i).st == .ready &&
            (i + 1 != o.work.length || rest.all (fun e => e.st == .sending || extEnded e)) then extSend sq idx i s
        else s) s

/-- What follows once an extent's input is gathered (R95, R246). -/
def extGathered (sq idx i : Nat) (s : State) : State :=
  match s.op sq idx with
  | none => s
  | some o =>
    let e := o.ext i
    let s := updExt sq idx i (fun e => { e with st := .ready }) s
    if o.kind == .local_ then
      if e.cause ≠ 0 then extEnd sq idx i false s
      else if !(badOut o.gauge e.bad).isEmpty then extFail sq idx i (if e.badCause = 0 then caSourcePoison else e.badCause) 0x3F s
      else extWriteOut sq idx i s
    else if e.cause ≠ 0 then sendReady sq idx (extEnd sq idx i false s)
    else sendReady sq idx s

/-- The pattern bytes of a `FILL` (R79). -/
def fillBytes (w : Word) (len : Nat) : List Byte := ((List.replicate (ceilDiv len 8) (leBytes 8 w.toNat)).flatten).take len

/-- Translate an extent's source and issue its reads. -/
def extReadIn (sq idx i : Nat) (s : State) : State :=
  match s.op sq idx with
  | none => s
  | some o =>
    let e := o.ext i
    let r := extIn o.gauge e
    if o.opcode = 0x02 then
      extGathered sq idx i (updExt sq idx i (fun e => { e with got := [(0, fillBytes (o.w 2) e.len)] }) s)
    else if r.2 = 0 then extGathered sq idx i s
    else
      let a : Acc := { ctx := o.ctx, cva := o.src.2 + r.1, len := r.2, kind := .read }
      match xlateRange (.extent sq idx i) (opStream sq o) a (o.stored o.src.1) (xfuel r.2) 0 r.2 s with
      | (.wait, s) => s
      | (.fail t, s) => let c := trCause t; extFail sq idx i c.1 c.2 (forgetSeen (.extent sq idx i) s)
      | (.ok ps us, s) =>
        let s := us.foldl (fun s u => addUse u s) (forgetSeen (.extent sq idx i) s)
        let s := s.updOp sq idx (fun o => { o with tuses := us ++ o.tuses })
        let s := updExt sq idx i (fun e => { e with st := .reading }) s
        let r := ps.foldl (fun (x : Nat × Nat × State) p =>
          let w := extRead o.ctx p.2.1 (a.cva + p.1) p.2.2 (fun off => .opRead sq idx (i + 16 * e.run) (p.1 + off)) x.2.2
          (x.1 + w.1, (if w.2.1 || x.2.1 ≠ 0 then x.2.1 else lostCause w.2.2 (p.2.1.memAt (a.cva + p.1)).addr), w.2.2)) (0, 0, s)
        let s := updExt sq idx i (fun e => { e with outstanding := r.1 }) r.2.2
        if r.2.1 ≠ 0 then extFail sq idx i r.2.1 0x3F s else s

/-- READ_REQ and ATOMIC requests that a QP has outstanding as requester (R165). -/
def reqsOut (s : State) (qpn : Nat) : Nat :=
  let q := s.qp qpn
  Tab.countWhere s.trackers (fun _ t => t.qpn == qpn &&
    (match t.use with | .readResp .. => true | .atomicResp .. => true | _ => false)) +
  ((q.roce.queue ++ q.roce.unacked).filter (fun o =>
    match o.pkt.kind with | .readReq => true | .fetchAdd => true | .cmpSwap => true | _ => false)).length

/-- The 8-byte words of a payload (R154). -/
def payloadWords (ws : List Nat) : List Byte := ws.flatMap (beBytes 8)

/-- The READs of an extent on a RoCEv2 QP: a message there has at most 2^31 bytes (R182). -/
def roceReads (o : Op) (e : WorkExt) : Nat := if o.kind == .read then max 1 (ceilDiv e.len (2 ^ 31)) else 1

/-- Send the next READ of an extent on a RoCEv2 QP, of which `msgsLeft` are still to come, or its atomic. -/
def roceAsk (sq idx i : Nat) (s : State) : State :=
  match s.op sq idx with
  | none => s
  | some o =>
    match o.qpn with
    | none => s
    | some qpn =>
      let q := s.qp qpn
      let e := o.ext i
      let tc := dTc (o.w 0)
      let off := (roceReads o e - e.msgsLeft) * 2 ^ 31
      let len := min (e.len - off) (2 ^ 31)
      let k := if o.kind == .read then RoceKind.readReq else if o.opcode = 0x18 then .fetchAdd else .cmpSwap
      let p : RocePkt := { rocePkt s q tc k 0 [] with
        va := BitVec.ofNat 64 (o.remoteOff + e.off + off), rkey := o.window, dmaLen := BitVec.ofNat 32 len
        swapAdd := if o.opcode = 0x19 then o.w 3 else o.w 2, compare := o.w 2 }
      let span := if o.kind == .read then max 1 (ceilDiv len q.payloadMax) else 1
      roceSend qpn [{ pkt := p, tc := tc, owner := some (sq, idx, i), span := span }] s

/-- Send a request whose response needs a tracker (R160, R165, R195): a READ_REQ of an extent, or an ATOMIC. -/
def extRequest (sq idx i : Nat) (s : State) : State :=
  match s.op sq idx with
  | none => s
  | some o =>
    match o.qpn with
    | none => s
    | some qpn =>
      let q := s.qp qpn
      let e := o.ext i
      let g := o.gauge
      let tc := dTc (o.w 0)
      let sl := (s.ctx o.ctx).slice
      if !qpWorks q || 16 ≤ reqsOut s qpn then s
      else if q.mode == .roce then
        roceAsk sq idx i (updExt sq idx i (fun e => { e with st := .sending, msgsLeft := roceReads o e }) s)
      else
        let r := extIn g e
        let read := o.kind == .read
        let t : Tracker :=
          { qpn := qpn, msgId := q.nextMsg, op := if read then 3 else 5,
            use := if read then .readResp sq idx i else .atomicResp sq idx, shared := false, slice := sl, tc := tc,
            msgLen := if read then some r.2 else none, granted := if read then min (unschedU s) r.2 else 0 }
        match openTracker t s with
        | none => s
        | some (_, s) =>
          let cas128 := o.opcode = 0x19 && o.length = 16
          let aop := if o.opcode = 0x30 then 4 else if o.opcode = 0x18 then 1 else if cas128 then 3 else 2
          let n (w : Word) : Nat := w.toNat
          let off := if o.opcode = 0x30 then fld (o.w 6) 63 32 * 16 else o.remoteOff
          let ws :=
            if read then [o.remoteOff + r.1, r.2]
            else [off + aop * 2 ^ 48] ++
              (if o.opcode = 0x30 then [n (o.w 7)] else if o.opcode = 0x18 then [n (o.w 2)]
                else if cas128 then [n (o.w 2), n (o.w 9), n (o.w 3), n (o.w 10)] else [n (o.w 2), n (o.w 3)])
          let p := payloadWords ws
          let m : Msg :=
            { id := 0, op := if read then 2 else 4, tc := tc, window := o.window, len := p.length, act := true,
              ply := read && g.ply, owner := .extent sq idx i,
              pkts := [{ off := 0, len := p.length, offLen := p.length, payload := p, imm := if read && g.ply then BitVec.ofNat 32 g.inF else 0 }] }
          sendMsg qpn m (updExt sq idx i (fun e => { e with st := .sending, msgsLeft := 1 }) s)

/-- Start a waiting extent where its engine is free (R85, R95, R160). -/
def extStart (sq idx i : Nat) (s : State) : State :=
  match s.op sq idx with
  | none => s
  | some o =>
    if (o.ext i).st != .waiting || o.stop.isSome || o.stage != .running || !running s then s
    else
      match o.kind with
      | .local_ =>
        match freeMover s with
        | none => s
        | some m => extReadIn sq idx i (updExt sq idx i (fun e => { e with st := .xlate, engine := m + 1 }) s)
      | .write => if qpWorks (s.qp (o.qpn.getD 0)) then extReadIn sq idx i (updExt sq idx i (fun e => { e with st := .xlate }) s) else s
      | .send => if qpWorks (s.qp (o.qpn.getD 0)) then extReadIn sq idx i (updExt sq idx i (fun e => { e with st := .xlate }) s) else s
      | .read => extRequest sq idx i s
      | .atomic => extRequest sq idx i s
      | .none => s

/-- Start the waiting extents of an operation. -/
def startExts (sq idx : Nat) (s : State) : State :=
  match s.op sq idx with
  | none => s
  | some o => sendReady sq idx ((List.range o.work.length).foldl (fun s i => extStart sq idx i s) s)

/-- Start the waiting extents of every running operation, where engines or trackers have become free. -/
def pumpWork (s : State) : State :=
  (s.ops.map (·.1)).foldl (fun s k => startExts (k / 16777216) (k % 16777216) s) s

/-- Go on with an extent whose translation has moved on (R110, R137). -/
def extResume (sq idx i : Nat) (s : State) : State :=
  match s.op sq idx with
  | none => s
  | some o =>
    match (o.ext i).st with
    | .xlate => pumpWork (sendReady sq idx (extReadIn sq idx i s))
    | .ready => if o.kind == .local_ || o.kind == .atomic || o.kind == .read then pumpWork (extWriteOut sq idx i s) else s
    | _ => s

/-- An extent's read returns (R95): `er` is the extent's number plus 16 times its run. -/
def extReadDone (sq idx er off : Nat) (a : Answer) (s : State) : State :=
  let i := er % 16
  match s.op sq idx with
  | none => s
  | some o =>
    let e := o.ext i
    if e.st != .reading || e.run != er / 16 then s
    else
      let bad (n c : Nat) (s : State) : State := updExt sq idx i (fun e => { e with
        got := insertPiece (off, zeros n) e.got, bad := (off, n) :: e.bad, badCause := if e.badCause = 0 then c else e.badCause }) s
      let s := match a with
        | .data bs => updExt sq idx i (fun e => { e with got := insertPiece (off, bs) e.got }) s
        | .poison n c => bad n c s
        | .failed c src n => if o.kind == .local_ then extCause sq idx i c src s else bad n (if src = 0x3F then c else causeFrom c src) s
      let s := updExt sq idx i (fun e => { e with outstanding := e.outstanding - 1 }) s
      if e.outstanding ≤ 1 then pumpWork (extGathered sq idx i s) else s

/-- An extent's write is acknowledged or refused (R55, R95). -/
def extWriteDone (sq idx er : Nat) (cause : Nat) (s : State) : State :=
  let i := er % 16
  match s.op sq idx with
  | none => s
  | some o =>
    let e := o.ext i
    if e.st != .writing || e.run != er / 16 then s
    else
      let s := if cause = 0 then s else extCause sq idx i cause 0x3F s
      let s := updExt sq idx i (fun e => { e with outstanding := e.outstanding - 1 }) s
      if e.outstanding ≤ 1 then pumpWork (extEnd sq idx i (e.cause = 0 && cause = 0) s) else s

/-- One message of an extent is complete at the sender (R162, R170). A request's extent ends with its response. -/
def extMsgDone (sq idx i : Nat) (s : State) : State :=
  match s.op sq idx with
  | none => s
  | some o =>
    let e := o.ext i
    if e.st != .sending then s
    else
      let s := updExt sq idx i (fun e => { e with msgsLeft := e.msgsLeft - 1 }) s
      if o.kind == .read || o.kind == .atomic then s
      else if e.msgsLeft ≤ 1 then pumpWork (extEnd sq idx i (e.cause = 0) s)
      else s

/-- An extent runs again from its start (R95, R400, R410): at most four runs that count. -/
def extRerun (sq idx i : Nat) (countIt : Bool) (s : State) : State :=
  match s.op sq idx with
  | none => s
  | some o =>
    let e := o.ext i
    if extEnded e then s
    else if countIt && 3 ≤ e.runs then
      extEnd sq idx i false (extCause sq idx i caRunLimit (16 + (e.engine - 1) / 4) s)
    else
      updExt sq idx i (fun e => { e with
        st := .waiting, engine := 0, runs := e.runs + b2n countIt, redo := e.redo + b2n (!countIt), outstanding := 0, got := [], bad := [], badCause := 0, cause := 0, msgsLeft := 0 }) s

end Sys2Proof.Machine
end

