-- ==== Sys2Proof/Machine/LongRow.lean ====
section
/-! DEFINITION. The Purl engine's arithmetic (09): the collective's parameters, chunks and trees, long rows,
partials and results. -/

namespace Sys2Proof.Machine

/-! ### The descriptor (R259-R262) -/

def pcOp (o : Op) : Nat := fld (o.w 9) 34 32
def pcRed (o : Op) : Nat := fld (o.w 9) 36 35
def pcRoot (o : Op) : Nat := fld (o.w 9) 57 48
def pcGroup (o : Op) : Nat := fld (o.w 9) 11 0
def pcSeq (o : Op) : Nat := fld (o.w 9) 31 12
/-- E: the number of input elements (R262). -/
def pcElems (o : Op) : Nat := fmtElems o.gauge.inF o.length
/-- A reduction (R260). -/
def pcReduces (o : Op) : Bool := pcOp o ≤ 2

/-! ### Chunks and trees (R265, R266) -/

def chunkElems : Nat := 8192
/-- CPS and CPM (R265). -/
def pcCps (o : Op) (n : Nat) : Nat := ceilDiv (pcElems o / n) chunkElems
def pcCpm (o : Op) : Nat := ceilDiv (pcElems o) chunkElems
/-- K (R265). -/
def pcChunks (o : Op) (n : Nat) : Nat :=
  match pcOp o with | 1 => n * pcCps o n | 3 => n * pcCpm o | _ => pcCpm o

/-- A chunk's rank of its run, first element within that run, and element count (R265). -/
def pcRange (o : Op) (n c : Nat) : Nat × Nat × Nat :=
  match pcOp o with
  | 1 => let s := pcElems o / n; let j := c % max 1 (pcCps o n); (c / max 1 (pcCps o n), j * chunkElems, min chunkElems (s - j * chunkElems))
  | 3 => let j := c % max 1 (pcCpm o); (c / max 1 (pcCpm o), j * chunkElems, min chunkElems (pcElems o - j * chunkElems))
  | _ => (0, c * chunkElems, min chunkElems (pcElems o - c * chunkElems))

/-- root_rank (R266). -/
def pcRootRank (o : Op) (n c : Nat) : Nat :=
  match pcOp o with
  | 0 => c % n
  | 1 => c / max 1 (pcCps o n)
  | 3 => c / max 1 (pcCpm o)
  | _ => pcRoot o

/-- A member's parent and children in a chunk's tree (R266). -/
def pcTree (o : Op) (n fanin c rank : Nat) : Option Nat × List Nat :=
  let r0 := pcRootRank o n c
  let p := (rank + n - r0 % n) % n
  let parent := if p = 0 then none else some (((p - 1) / fanin + r0) % n)
  let kids := ((List.range fanin).map (fun k => fanin * p + 1 + k)).filter (· < n)
  (parent, kids.map (fun q => (q + r0) % n))

/-- First element of a chunk in the member's own input (R262, R265). -/
def pcInFirst (o : Op) (n c : Nat) : Nat :=
  let r := pcRange o n c
  if pcOp o = 1 then r.1 * (pcElems o / n) + r.2.1 else r.2.1

/-- Whether a member reads input for a chunk, and whether it writes output of it (R262). -/
def pcHasInput (o : Op) (n c rank : Nat) : Bool := pcReduces o || pcRootRank o n c == rank
def pcHasOutput (o : Op) (n c rank : Nat) : Bool :=
  match pcOp o with | 1 => pcRootRank o n c == rank | 2 => pcRoot o == rank | _ => true

/-- Byte offset of a chunk's output from DST_CVA, and its bytes (R262). -/
def pcOut (o : Op) (n c : Nat) : Nat × Nat :=
  let r := pcRange o n c
  let f := o.gauge.outF
  let base := if pcOp o = 3 then r.1 * fmtBytes f (pcElems o) else 0
  (base + fmtBytes f r.2.1, fmtBytes f r.2.2)

/-! ### Long rows (R267, R268) -/

/-- A finite contribution in units of 2^-160. -/
def rowUnits (neg : Bool) (num den : Nat) : Int := let v : Int := (num * 2 ^ 160 / den : Nat); if neg then -v else v

/-- Fold one contribution into a row: sums add exactly; MAX and MIN keep the greater or the lesser, with -0 below
+0, and ALLNEG0 saying that the kept zero is -0. -/
def LongRow.fold (red : Nat) (r : LongRow) (x : Num) : LongRow :=
  match x with
  | .nan _ => { r with nan := true, allNeg0 := if red = 1 ∨ red = 2 then r.allNeg0 else false }
  | .inf neg => { (if neg then { r with ninf := true } else { r with pinf := true }) with
      allNeg0 := if red = 1 ∨ red = 2 then r.allNeg0 else false }
  | .fin neg num den =>
    let u := rowUnits neg num den
    let z := neg && num == 0
    if red = 1 ∨ red = 2 then
      let cur := r.v.toInt
      let above := decide (cur < u) || (decide (cur = u) && r.allNeg0 && !z)
      let below := decide (u < cur) || (decide (cur = u) && !r.allNeg0 && z)
      if !r.any || (if red = 1 then above else below) then { r with v := BitVec.ofInt 320 u, any := true, allNeg0 := z } else r
    else { r with v := r.v + BitVec.ofInt 320 u, any := true, allNeg0 := r.allNeg0 && z }

/-- The exact result of a row (R268), divided by `n` (R270: MEAN at the rounding member). -/
def LongRow.result (red n : Nat) (r : LongRow) : Num :=
  let i := r.v.toInt
  let fin : Num := .fin (decide (i < 0) || (decide (i = 0) && r.allNeg0 && r.any)) i.natAbs (2 ^ 160 * n)
  if r.nan then .nan false
  else if red = 1 then (if r.pinf then .inf false else if r.any then fin else .inf true)
  else if red = 2 then (if r.ninf then .inf true else if r.any then fin else .inf false)
  else if r.pinf && r.ninf then .nan false
  else if r.pinf then .inf false
  else if r.ninf then .inf true
  else fin

/-! ### Partials and results (R269, R270, R272) -/

/-- Bytes of one partial element (R269). -/
def partBytes (wide : Bool) (inF : Nat) : Nat := if isInt inF || wide then 8 else 4

/-- A partial element (R269). -/
def partEncode (wide : Bool) (inF red : Nat) (r : LongRow) : List Byte :=
  if isInt inF then leBytes 8 (BitVec.ofInt 64 (r.v.toInt / 2 ^ 160)).toNat
  else
    let x := match r.result red 1 with | .nan _ => Num.nan false | x => x
    if wide then leBytes 8 (encodeFloat fmtFp64 false x none) else leBytes 4 (encodeFloat fmtFp32 false x none)

/-- The value of a partial element. -/
def partDecode (wide : Bool) (inF : Nat) (bs : List Byte) : Num :=
  if isInt inF then numOfInt (BitVec.ofNat 64 (ofLe bs)).toInt
  else decodeFloat (if wide then fmtFp64 else fmtFp32) (ofLe bs)

/-- With SAT, an infinite result becomes the largest finite value of the input format (R239, R270). -/
def purlSat (inF : Nat) (sat : Bool) (x : Num) : Num :=
  match x with
  | .inf neg => if sat then maxNum (if isMx inF then fmtFp32 else (elemFmt inF).getD fmtFp32) neg else x
  | x => x

/-- An integer result: the quotient rounded to nearest even, clamped with SAT, else modulo 2^32 (R270). -/
def purlInt (sat : Bool) (x : Num) : Nat :=
  match x with
  | .fin neg num den =>
    let u := roundUnits num den 0 none
    let i : Int := if neg then -(u : Int) else u
    let i := if sat then max (-(2 ^ 31 : Int)) (min (2 ^ 31 - 1) i) else i
    (BitVec.ofInt 32 i).toNat
  | _ => 0

/-- Round exact results to the output format (R270, R272): the first of them is element `first` of the stream. -/
def purlRound (g : Gauge) (seed : Word) (first : Nat) (xs : List Num) : List Byte :=
  if isInt g.outF then (xs.map (fun x => leBytes 4 (purlInt g.sat x))).flatten
  else encodeStream g.outF g.sat (xs.map (purlSat g.inF g.sat)) (streamBits g.stoch seed g.inF 0 first xs.length)

/-- A quotient by N. -/
def numDiv (x : Num) (n : Nat) : Num := match x with | .fin s a b => .fin s a (b * n) | x => x

/-! ### The fingerprint (R257) -/

/-- CRC-64/ECMA-182, a published standard that the spec does not restate (PRESUMED, log 19). -/
def crc64 (bs : List Byte) : Word :=
  bs.foldl (fun c b =>
    (List.range 8).foldl (fun c _ => if c.getLsbD 63 then (c <<< 1) ^^^ 0x42F0E1EBA9EA3693#64 else c <<< 1)
      (c ^^^ BitVec.ofNat 64 (b.toNat <<< 56))) 0

/-- FPRINT of a group (R257). -/
def groupPrint (num : Nat) (g : Group) : Word :=
  crc64 (leBytes 2 num ++ leBytes 1 (b2n g.switch) ++ leBytes 2 g.members.length ++ leBytes 1 (if g.switch then 0 else g.fanin) ++
    leBytes 1 (if g.switch then 0 else b2n g.wide) ++ leBytes 1 (if g.switch then g.wireFmt else 0) ++ leBytes 8 g.key.toNat)

end Sys2Proof.Machine
end

