-- ==== Sys2Proof/Machine/Loads.lean ====
section
/-! DEFINITION. Sealed loads on the inline decrypt units (16 R440-R444): their order, their failure, and the zeros that
end a sealed run (R442). -/

namespace Sys2Proof.Machine

/-- Write zeros over device memory ranges. -/
def writeZeros (ctx : Nat) (rs : List (Nat × Nat)) (p : Purpose) (s : State) : State :=
  rs.foldl (fun s r =>
    (cut4k 4096 r.1 r.2).foldl (fun s x => (dlIssue p (cmdWrite (accessTag s ctx) 0 x.2.1 (zeros x.2.2)) s).getD s) s) s

/-- Change Foundation. -/
def updFnd (f : Foundation → Foundation) (s : State) : State := { s with fnd := f s.fnd }

/-- Runs of a retired object are no longer sealed (R442). -/
def unsealed (h : BitVec 32) (s : State) : State := updFnd (fun f => { f with sealTab := f.sealTab.filter (fun r => r.mo != h) }) s

/-- Zeros go over the sealed runs of a retired object; where nothing can be written there, the runs end at once. -/
def unsealRuns (i : Nat) (h : BitVec 32) (s : State) : State :=
  let rs := (s.fnd.sealTab.filter (fun r => r.mo == h)).map (fun r => (r.base, r.len))
  let s := writeZeros (s.mo i).ctx rs (.unseal i) s
  if outstandingFor s (.unseal i) then s else unsealed h s

/-- A decrypt unit in service (R389). -/
def decryptOk (s : State) (k : Nat) : Bool := Tab.getD s.fc.units ((28 + 2 * k) * 64 + 2) .inService == .inService

/-- Start loads, first come first served, each whole on one unit (R440). -/
def loadPump (s : State) : State :=
  (List.range 2).foldl (fun s k =>
    if !decryptOk s k || s.fnd.loads.any (fun l => l.2.running == some k) then s
    else
      match s.fnd.loads.find? (fun l => l.2.running.isNone && !l.2.doomed) with
      | some (n, _) => updFnd (fun f => { f with loads := Tab.adj f.loads n (fun l => { l with running := some k }) }) s
      | none => s) s

/-- A load leaves: its use of the destination ends, and the next one starts. -/
def loadGone (n : Nat) (l : Load) (s : State) : State :=
  loadPump (unuseMo l.mo (updFnd (fun f => { f with loads := Tab.del f.loads n }) s))

/-- The zeros over a failed load's destination are written: OP_FAILED goes into DONE, with the command's SEQ (R443). -/
def loadZeroed (n : Nat) (s : State) : State :=
  match Tab.get s.fnd.loads n with
  | none => s
  | some l =>
    if !l.doomed || outstandingFor s (.loadZero n) || s.fc.dstate == .halted then s
    else
      let s := match l.done with | some (r, _) => applyError r meOpFailed l.seq s | none => s
      loadGone n l s

/-- A load fails (R443): zeros over the whole destination, and its seal runs go. -/
def loadFail (n : Nat) (s : State) : State :=
  match Tab.get s.fnd.loads n with
  | none => s
  | some l =>
    if l.doomed then s
    else
      let s := count 529 1 (updFnd (fun f => { f with
        loads := Tab.adj f.loads n (fun l => { l with doomed := true, running := none })
        sealTab := f.sealTab.filter (fun r => r.load != n) }) s)
      loadPump (loadZeroed n (writeZeros l.ctx l.dpas (.loadZero n) s))

/-- Every load that satisfies a test fails. -/
def failLoads (f : Load → Bool) (s : State) : State :=
  (Tab.keysWhere s.fnd.loads (fun _ l => f l && !l.doomed)).foldl (fun s n => loadFail n s) s

/-- A decrypt unit is fenced (R400): its load restarts on the other one; with both fenced, every load fails. -/
def decryptLost (k : Nat) (s : State) : State :=
  let s := updFnd (fun f => { f with loads := Tab.mapV f.loads (fun _ l => if l.running == some k then { l with running := none } else l) }) s
  if decryptOk s 0 || decryptOk s 1 then loadPump s else failLoads (fun _ => true) s

end Sys2Proof.Machine
end

