-- ==== Sys2Proof/Machine/Lifecycle.lean ====
section
/-! DEFINITION. How work ends before its time: operations stopped, QPs in ERROR or DRAINING (R144, R176-R178),
contexts LOST or aborted (R32-R36), groups that lose a member (R285), and Rumel's error binding (R60). -/

namespace Sys2Proof.Machine

/-! ### Operations -/

/-- Extents that wait for a translation when their operation is stopped end there (R139): nothing of them is under way. -/
def endXlate (o : Op) : Op :=
  { o with work := o.work.map (fun e =>
      if e.st == .xlate || (e.st == .ready && (o.kind == .local_ || o.kind == .read || o.kind == .atomic)) then
        { e with st := .failed, engine := 0, got := [], outstanding := 0 }
      else e) }

/-- Stop an operation: one that has not started ends, its marker's error written (R58); a started one stops at its next
extent boundary, and completes with the status it is given first. -/
def stopOp (sq idx status detail : Nat) (s : State) : State :=
  match s.op sq idx with
  | none => s
  | some o =>
    if o.done then s
    else if o.stage == .running then
      settleOp sq idx (s.updOp sq idx (fun o => if o.stop.isSome then o else endXlate { o with stop := some (status, detail) }))
    else failDesc sq idx status detail false s

/-- Fail at once what an operation has on a QP that stopped (R178). -/
def failExts (sq idx : Nat) (s : State) : State :=
  match s.op sq idx with
  | none => s
  | some o =>
    let s := s.updOp sq idx (fun o => { o with work := o.work.map (fun e =>
      if e.st == .waiting || extEnded e then e else { e with st := .failed, outstanding := 0, msgsLeft := 0 }) })
    if o.done then s else settleOp sq idx s

/-- The descriptors of the store that satisfy a test, as (SQ or SQ + 65,536, index). -/
def opsWhere (s : State) (f : Op → Bool) : List (Nat × Nat) :=
  (s.ops.filter (fun e => !e.2.done && f e.2)).map (fun e => (e.1 / 16777216, e.1 % 16777216))

/-- The armed descriptors of a destroyed queue that have not fired complete `ABORTED` (R102); under ABORT (`all`) those that
have fired and not started do too (R77). -/
def endArmed (n : Nat) (all : Bool) (s : State) : State :=
  ((opsWhere s (fun o => o.stage != .running && (all || (o.stage == .armed && o.woke.isNone)))).filter (fun k => k.1 == n + 65536)).foldl
    (fun s k => stopOp k.1 k.2 stAborted 0 s) s

/-! ### Rumel's error binding (R60) -/

/-- Add a job of Rumel's. -/
def bindJob (marks : List MarkRef) (code detail : Nat) (s : State) : State :=
  if marks.isEmpty then s
  else { s with bindJobs := s.bindJobs ++ [{ marks := marks, code := BitVec.ofNat 16 code, detail := BitVec.ofNat 16 detail }] }

/-- The markers bound to a context or any of its QPs. -/
def boundMarks (s : State) (ctx : Nat) : List MarkRef := (s.ctx ctx).bindings.map (·.mark)

/-! ### Purl control messages (R273-R275) -/

/-- PURL_INFO (R274). -/
def purlInfo (chunk attempt kind collOp redOp : Nat) : BitVec 32 :=
  BitVec.ofNat 32 (chunk % 2 ^ 20 + attempt % 16 * 2 ^ 20 + kind % 8 * 2 ^ 24 + collOp % 8 * 2 ^ 27 + redOp % 4 * 2 ^ 30)

/-- The class of a group's control messages (log 21): TC2 in an exact group, TC3 in a switch group (R186). -/
def groupTc (g : Group) : Nat := if g.switch then 3 else 2

/-- Send a PURL_CTRL message on a QP (R274). -/
def purlCtl (qpn grp seq : Nat) (info : BitVec 32) (payload : List Byte) (s : State) : State :=
  let g := s.group grp
  let m : Msg :=
    { id := 0, op := 13, tc := groupTc g, window := BitVec.ofNat 32 (grp * 2 ^ 20 + seq % 2 ^ 20), len := payload.length,
      pkts := [{ off := 0, len := payload.length, offLen := payload.length, payload := payload, imm := info }],
      owner := .purl grp seq }
  sendMsg qpn m s

/-- Whether a QP still sends (R144). -/
def qpSends (q : Qp) : Bool := q.st == .active || q.st == .held

/-- A group loses a member (R258, R285): reason, lost rank, and whether an ABORT told of it. -/
def groupFail (grp reason lost : Nat) (byAbort : Bool) (s : State) : State :=
  let g := s.group grp
  if g.st == .forming then
    setGroup grp (fun g => { g with st := .failed, reason := 4, lostRank := lost }) s
  else if g.st != .active then s
  else
    let s := setGroup grp (fun g => { g with st := .failed, reason := reason, lostRank := lost }) s
    let s := g.colls.foldl (fun s c =>
      if c.2.mismatch then stopOp c.2.sq c.2.idx stCollMismatch lost s
      else stopOp c.2.sq c.2.idx stCollMemberLost (lost % 1024 + reason * 4096) s) s
    if byAbort then s
    else
      g.members.foldl (fun s m =>
        match m with
        | some n => if qpSends (s.qp n) then purlCtl n grp 0 (purlInfo 0 0 3 0 0) (beBytes 8 (lost % 1024 + reason * 4096)) s else s
        | none => s) s

/-- The lowest rank that a forming group has not heard from (R285). -/
def firstUnheard (g : Group) : Nat :=
  ((List.range g.members.length).find? (fun r => r != g.rank && !g.heard.contains r)).getD 0

/-- A QP of groups stops: member loss in each group it serves (R258, R285, R289). -/
def groupsOfQp (qpn : Nat) (s : State) : State :=
  s.groups.foldl (fun s e =>
    let g := e.2
    match g.members.findIdx? (fun m => m == some qpn) with
    | some r => groupFail e.1 0 (if g.st == .forming then firstUnheard g else r) false s
    | none => if g.switch && g.aggQpn == qpn then groupFail e.1 0 0x3FF false s else s) s

/-! ### QPs (R144, R145, R176-R178) -/

/-- QP_STATE codes (R144). -/
def qpStateCode : QpState → Nat
  | .reset => 0
  | .init => 1
  | .active => 2
  | .held => 3
  | .draining => 4
  | .error => 5

/-- Complete `FLUSHED` every descriptor that names a QP and has not started (R145, R178). -/
def frogUnstarted (qpn : Nat) (s : State) : State :=
  let code := qpStateCode (s.qp qpn).st
  (opsWhere s (fun o => o.qpn == some qpn && o.stage != .running)).foldl
    (fun s k => failDesc k.1 k.2 stFlushed code false s) s

/-- Flush a QP's armed tag triggers (R102, R178). R102 names ERROR only: the model flushes them as soon as the QP takes no new
work, in DRAINING under DRAIN too (DESIGN CHOICE, log 123). -/
def flushTags (qpn : Nat) (s : State) : State :=
  let ts := (s.qp qpn).tagTrigs
  let s := s.updQp qpn (fun q => { q with tagTrigs := [], earlyTags := [] })
  ts.foldl (fun s k => completeOp k.1 k.2 stFlushed (qpStateCode (s.qp qpn).st) s) s

/-- Release a QP's trackers (R178); the one a RoCEv2 QP holds stays until it is freed (R202). -/
def releaseTrackers (qpn : Nat) (s : State) : State :=
  (Tab.keysWhere s.trackers (fun _ t => t.qpn == qpn && t.use != .roce)).foldl (fun s k => closeTracker k s) s

/-- Stop the started operations of a QP (R178, R144): their unacknowledged extents fail. -/
def stopQpOps (qpn status detail : Nat) (s : State) : State :=
  (opsWhere s (fun o => o.qpn == some qpn && o.stage == .running)).foldl
    (fun s k => failExts k.1 k.2 (stopOp k.1 k.2 status detail s)) s

/-- Drop what a QP was sending and receiving. -/
def Qp.drop (q : Qp) : Qp :=
  { q with msgs := [], flight := [], held := [], roce := { q.roce with queue := [], unacked := [], work := [], held := [], inSend := none, inWrite := none, rnrWait := false } }

/-- A QP enters ERROR, or turns its drain into an abort (R144, R176-R178). `own` is the operation that R177
singles out, with its status and detail. -/
def qpError (qpn cause : Nat) (own : Option (Nat × Nat × Nat × Nat)) (s : State) : State :=
  match Tab.get s.qps qpn with
  | none => s
  | some q =>
    let sl := (s.ctx q.ctx).slice
    let single (s : State) : State := match own with | some (a, b, st, d) => stopOp a b st d s | none => s
    match q.st with
    | .error => s
    | .draining =>
      let s := s.updQp qpn (fun q => { q with errCause := if q.errCause = 0 then cause else q.errCause, abort := true })
      pumpWork (releaseTrackers qpn (stopQpOps qpn stAborted 0 ((single s).updQp qpn Qp.drop)))
    | st =>
      if (st == .reset || st == .init) && cause != 7 then s
      else
        let s := count sl 22 (single s)
        let s := s.updQp qpn (fun q => { q.drop with st := .error, errCause := cause })
        let s := frogUnstarted qpn (stopQpOps qpn stFlushed 5 s)
        let s := releaseTrackers qpn (flushTags qpn s)
        let s := if cause = 7 then s
          else bindJob (((s.ctx q.ctx).bindings.filter (fun b => b.qp == some qpn)).map (·.mark)) meQpError qpn s
        pumpWork (groupsOfQp qpn s)

/-- A QP enters DRAINING (R144). -/
def qpDrain (qpn : Nat) (abort : Bool) (s : State) : State :=
  match Tab.get s.qps qpn with
  | none => s
  | some q =>
    if q.st == .draining then
      if abort && !q.abort then
        pumpWork (releaseTrackers qpn (stopQpOps qpn stAborted 0 (s.updQp qpn (fun q => { q.drop with abort := true }))))
      else s
    else
      let s := s.updQp qpn (fun q => { q with st := .draining, abort := abort })
      let s := frogUnstarted qpn s
      let s := flushTags qpn s
      let s := if abort then releaseTrackers qpn (stopQpOps qpn stAborted 0 (s.updQp qpn Qp.drop)) else s
      pumpWork (groupsOfQp qpn s)

/-- The QPs of a context. -/
def ctxQps (s : State) (ctx : Nat) : List Nat := Tab.keysWhere s.qps (fun _ q => q.ctx == ctx)

/-! ### Direct requests (R122) -/

/-- Answer a compute die's request: RSP_DATA or RSP_ACK with a STATUS (R339, R341); where its module is fenced, on the
first survivor of the die port (log 26). -/
def dlRespond (mi txn cmd status : Nat) (atag : BitVec 24) (data : List Byte) (s : State) : State :=
  let c : DlCmd := { cmd := cmd, txn := txn, atag := atag, cls := 0, len := data.length - 1, addr := 0, aux := status, data := data }
  if (s.mod mi).active then dlSend mi c s
  else
    match activeModules s (mi / 6) with
    | m :: _ => dlSend m c s
    | [] => s

/-- Refuse a direct request: an error response to a load; a store is posted (R122, R309). -/
def directRefuse (ctx : Nat) (r : DirectReq) (s : State) : State :=
  let s := count 521 7 s
  if r.store then s else dlRespond r.module r.txn 0x10 1 (accessTag s ctx) [] s

/-- End a context's direct stream: every request that waits in it is refused. -/
def endDirect (ctx : Nat) (s : State) : State :=
  let rs := Tab.getD s.xlt.direct ctx []
  let s := s.updXlt (fun x => { x with direct := Tab.del x.direct ctx })
  rs.foldl (fun s r => directRefuse ctx r s) s

/-! ### Contexts (R32-R36) -/

/-- End a context's queued and started work with a status (R34, R36). -/
def stopCtxOps (ctx status detail : Nat) (s : State) : State :=
  (opsWhere s (fun o => o.ctx == ctx)).foldl (fun s k => stopOp k.1 k.2 status detail s) s

/-- Turn a context's drain into an abort, or begin one (R36): its queues stop fetching, and ABORTED is due to the bound
markers where the slice is ACTIVE (R60). -/
def abortCtx (ctx : Nat) (s : State) : State :=
  if (s.ctx ctx).abort then s
  else
    let act := (s.slice (s.ctx ctx).slice).st == .active
    let s := s.updCtx ctx (fun c => { c with abort := true })
    let s := (Tab.keysWhere s.sqs (fun _ q => q.ctx == ctx && q.st != .free)).foldl
      (fun s n => closeSq n true s) s
    let s := stopCtxOps ctx stAborted 0 s
    let s := (ctxQps s ctx).foldl (fun s n => qpDrain n true s) s
    if act then bindJob (boundMarks s ctx) meAborted ctx s else s

/-- A context meets a cause of loss (R32-R34). -/
def contextLost (ctx cause : Nat) (s : State) : State :=
  let c := s.ctx ctx
  match c.st with
  | .active =>
    let s := s.updCtx ctx (fun c => { c with st := .lost, lostCause := cause })
    let s := endDirect ctx (freeCtxFaults ctx s)
    let s := stopCtxOps ctx stContextLost cause s
    let s := (ctxQps s ctx).foldl (fun s n => qpError n 7 none s) s
    let s := failLoads (fun l => l.ctx == ctx) s
    bindJob (boundMarks s ctx) meContextLost ctx s
  | .draining =>
    if c.lostCause ≠ 0 then countUnnamed s
    else abortCtx ctx (s.updCtx ctx (fun c => { c with lostCause := cause }))
  | .lost => countUnnamed s
  | .free => s

/-- A context enters DRAINING (R32, R36): an ACTIVE one drains or aborts, a LOST one always aborts. A drain fetches what is
queued, on a queue that was HELD too (R76). `off` says that bind-off of its slice causes it (R60). -/
def drainCtx (ctx : Nat) (abort off : Bool) (s : State) : State :=
  let c := s.ctx ctx
  if c.st != .active && c.st != .lost then (if c.st == .draining && abort then abortCtx ctx s else s)
  else
    let s := s.updCtx ctx (fun c => { c with st := .draining, bindOff := off || c.bindOff })
    let s := endDirect ctx (freeCtxFaults ctx s)
    let qs := Tab.keysWhere s.sqs (fun _ q => q.ctx == ctx && q.st != .free)
    let s := qs.foldl (fun s n => closeSq n false s) s
    if abort || c.st == .lost then abortCtx ctx s
    else qs.foldl (fun s n => pumpFetch n s) ((ctxQps s ctx).foldl (fun s n => qpDrain n false s) s)

/-! ### Retirement of objects and windows (R42, R43, R47) -/

/-- Make a window RETIRING (R47). -/
def retireWin (i : Nat) (drain : Option (MarkRef × Word)) (s : State) : State :=
  if (s.win i).st == .valid then s.updWin i (fun w => { w with st := .retiring, drain := drain }) else s

/-- Clear EXPORTED of a marker whose object has no live export of it any more (R48, R56). -/
def clearFlag (r : MarkRef) (bit : Nat) (s : State) : State :=
  let m := markerAt s r.key
  storeMarker r { m with flags := m.flags &&& ~~~(1#16 <<< bit) } s

/-- Clear BOUND of markers that are on no binding list any more (R48). -/
def unbound (ms : List MarkRef) (s : State) : State :=
  ms.foldl (fun s r =>
    let r := markNow s r
    if s.ctxs.any (fun c => c.2.bindings.any (fun b => (markNow s b.mark).key == r.key)) || !(markerAt s r.key).flags.getLsbD 4 then s
    else clearFlag r 4 s) s

/-- Whether a marker is held through an import of an object. -/
def viaImport (s : State) (h : BitVec 32) (r : MarkRef) : Bool :=
  match (s.moOf r.mo).imported with | some x => x.mo == h | none => false

/-- The retirement point of an object (R42, R43): it is RETIRING, its windows retire, its exports are revoked and EXPORTED
clears in their records (R56), and entries of its markers, held directly or through an import, leave the binding lists
(R59). -/
def retireMo (i : Nat) (drain : Option (MarkRef × Word)) (s : State) : State :=
  let o := s.mo i
  if o.st != .valid then s
  else
    let h := moHandle i o.gen
    let s := s.updMo i (fun o => { o with st := .retiring, drain := drain })
    let s := (Tab.keysWhere s.wins (fun _ w => w.mo == h && w.st == .valid)).foldl (fun s k => retireWin k none s) s
    let gone (r : MarkRef) : Bool := r.mo == h || viaImport s h r
    let dropped := (s.ctxs.flatMap (fun c => c.2.bindings.map (·.mark))).filter gone
    let s := { s with
      cookies := s.cookies.filter (fun c => c.mark.mo != h)
      ctxs := Tab.mapV s.ctxs (fun _ c => { c with bindings := c.bindings.filter (fun b => !gone b.mark) }) }
    let s := unbound (dropped.filter (fun r => o.imported.isNone || (s.moOf (markHome s r).1).st != .free)) s
    let s := o.exports.foldl (fun s e =>
      let r := markNow s e.1
      if (markerAt s r.key).flags.getLsbD 5 then clearFlag r 5 s else s) (s.updMo i (fun o => { o with exports := [] }))
    -- pending waits through an import of the object complete STALE_HANDLE (R56)
    let via (r : Option MarkRef) : Bool := r.any (viaImport s h)
    let s := (opsWhere s (fun p => p.stage == .waiting && via p.wait)).foldl (fun s k => completeOp k.1 k.2 stStaleHandle 0x10 s) s
    let s := (opsWhere s (fun p => p.stage == .armed && p.mwait ≠ 0 && p.woke.isNone && via p.wait)).foldl
      (fun s k => completeOp k.1 k.2 stStaleHandle 0x20 s) s
    -- a running skein's trigger fails: its open layers go on, and it ends STALE_HANDLE once END is delivered (R224)
    let s := (opsWhere s (fun p => p.opcode == 0x20 && p.stage == .running && p.mwait ≠ 0 && via p.skein.marks.head?)).foldl
      (fun s k => s.updOp k.1 k.2 (fun o => { o with mwait := 0, skein := { o.skein with trigFail := some 0, stale := true } })) s
    -- an import that retires leaves one export fewer on its original (R56)
    match o.imported with
    | none => s
    | some r =>
      let s := s.updMo (moIndex r.mo) (fun x =>
        if x.gen = moGen r.mo then { x with exports := x.exports.filter (fun e => e.2 != some h) } else x)
      if (s.moOf r.mo).st != .valid || (s.moOf r.mo).gen ≠ moGen r.mo || (s.moOf r.mo).exports.any (fun e => e.1.off == r.off) then s
      else clearFlag (markNow s r) 5 s

/-- Whether nothing uses the retired generation of an object any more (R42, R43): no descriptor, no message that claimed a
tracker on a window over it (R47), and no error that Rumel still owes a marker in it (R60). -/
def moUnused (s : State) (i : Nat) : Bool :=
  let h := moHandle i (s.mo i).gen
  (s.mo i).uses == 0 && !s.wins.any (fun w => w.2.mo == h && w.2.st != .free && w.2.trackers != 0) &&
    !s.bindJobs.any (fun j => j.marks.any (fun r => (markHome s r).1 == h))

/-- The live ring that keeps an object from retiring (R44): the number of the first queue, or 0x2_0000 + QPN. Which of
several is the first the spec does not say: SQs come first, by number, then CQs, then QPs (DESIGN CHOICE, log 118). -/
def liveRing (s : State) (h : BitVec 32) : Option Nat :=
  match s.sqs.find? (fun e => e.2.st != .free && (e.2.ringMo == h || e.2.shadowMo == h)) with
  | some e => some e.1
  | none =>
    match s.cqs.find? (fun e => e.2.active && e.2.ringMo == h) with
    | some e => some e.1
    | none => (s.qps.find? (fun e => e.2.rxMo == h && e.2.rxMo != 0)).map (fun e => 0x20000 + e.1)

end Sys2Proof.Machine
end

