-- ==== Sys2Proof/Machine/Rx.lean ====
section
/-! DEFINITION. The receive side of ERT (05): what is discarded, classification, checks, trackers, placement,
acknowledgement and refusal. -/

namespace Sys2Proof.Machine

/-! ### Acceptance and acknowledgement (R158, R161, R166) -/

/-- Advance a base over consecutive members of a set of PSNs. -/
def advancePsn : Nat → BitVec 32 → List (BitVec 32) → BitVec 32 × List (BitVec 32)
  | 0, b, l => (b, l)
  | fuel + 1, b, l => if l.contains b then advancePsn fuel (b + 1) (l.filter (· ≠ b)) else (b, l)

/-- Accept a PSN: its map bit, BASE, and the release of old NAK memory entries (R158, R172). -/
def Qp.accept (q : Qp) (psn : BitVec 32) : Qp :=
  let r := advancePsn 1025 q.base (psn :: q.accepted)
  { q with base := r.1, accepted := r.2, nakMem := q.nakMem.filter (fun n => decide ((r.1 - n.psn).toNat ≤ 1024) || decide ((r.1 - n.psn).toNat ≥ 2 ^ 31)) }

/-- A PSN is placed or consumed: what the next ACK reports (R161, R166). -/
def Qp.report (q : Qp) (h : ErtHdr) (ce : Bool) : Qp :=
  let r := advancePsn 1025 q.ackBase (h.psn :: q.placed)
  { q with ackBase := r.1, placed := r.2, recent := h.psn, newCount := q.newCount + 1, ceCount := q.ceCount + b2n ce,
           sinceAck := q.sinceAck + 1, echo := (h.path, h.tc, h.stamp) }

/-- Report a PSN, and acknowledge where R166 asks for it at once; the QP's record is written first (R148). -/
def reportPsn (qpn : Nat) (h : ErtHdr) (ce : Bool) (s : State) : State :=
  let s := touchQp qpn (s.updQp qpn (fun q => q.report h ce))
  if fLast h.flags || fAckNow h.flags || decide (4 ≤ (s.qp qpn).sinceAck) then sendAck qpn s else s

/-- Count an accepted packet (R474, R475). -/
def countRx (qpn : Nat) (s : State) : State :=
  let q := s.qp qpn
  count (s.ctx q.ctx).slice 13 (count 522 (64 * q.needle.getD 0 + 1) s)

/-- Accept a packet and acknowledge it without placing anything (R160, R275). -/
def consume (qpn : Nat) (p : ErtPkt) (s : State) : State :=
  reportPsn qpn p.hdr p.ce (countRx qpn (s.updQp qpn (fun q => q.accept p.hdr.psn)))

/-- Refuse a request with a fatal NAK: the receiving QP enters ERROR (R159). -/
def fatalNak (qpn : Nat) (p : ErtPkt) (code : Nat) (s : State) : State :=
  qpError qpn 6 none (sendNak qpn p.hdr p.ce code 0 s)

/-- PLACEMENT_FAILED (R172): the PSN goes into the NAK memory; a full memory puts the QP into ERROR. -/
def placementFailed (qpn : Nat) (h : ErtHdr) (ce : Bool) (s : State) : State :=
  let q := s.qp qpn
  if 16 ≤ q.nakMem.length then qpError qpn 8 none s
  else
    let n : NakMem := { psn := h.psn, msgId := h.msgId, tc := h.tc, path := h.path, stamp := h.stamp, ce := ce }
    sendNak qpn h ce 16 0 (s.updQp qpn (fun q => { q with nakMem := n :: q.nakMem }))

/-! ### What comes before the opcode (R145, R150-R152, R410) -/

/-- How an arriving ERT packet is taken. -/
inductive Gate where
  | take
  | stop (s : State)

/-- The tests on every ERT packet; `isNak` says that it is a NAK. -/
def rxGate (p : ErtPkt) (isNak : Bool) (s : State) : Gate :=
  let n := p.hdr.dstQpn.toNat
  let nd := 64 * ((Tab.get s.qps n).bind (·.needle)).getD 0
  if !running s then .stop (countUnnamed s)
  else if !p.csumOk then .stop (count 522 (nd + 2) s)
  else if p.hdr.ver ≠ 1 || 7 < p.hdr.tc.toNat || 14 ≤ p.hdr.op.toNat then .stop (count 522 (nd + 4) s)
  else
    match Tab.get s.qps n with
    | none => .stop (count 522 1024 s)
    | some q =>
      if q.st == .reset || q.st == .init then .stop (count 522 1024 s)
      else if q.mode != .ert || p.dport != s.ertPort || !q.remoteAddrs.contains p.src then .stop (count 522 (nd + 3) s)
      else if q.st == .error || (q.st == .draining && q.abort) then
        if isNak then .stop (count 522 1024 s)
        else if (q.lastErrNak.map (fun t => decide (s.ticks < t + 40000))).getD false then .stop s
        else .stop (sendNak n p.hdr p.ce 39 0 (s.updQp n (fun q => { q with lastErrNak := some s.ticks })))
      else .take

/-- Classes of a PSN (R158). -/
inductive PsnClass where
  | repeatNak
  | new
  | duplicate
  | outside
  deriving DecidableEq, Repr

/-- Classify a PSN (R158). -/
def classify (q : Qp) (psn : BitVec 32) : PsnClass :=
  let fwd := (psn - q.base).toNat
  let back := (q.base - psn).toNat
  if q.nakMem.any (fun n => n.psn == psn) then .repeatNak
  else if fwd < 1024 then (if q.accepted.contains psn then .duplicate else .new)
  else if 1 ≤ back ∧ back ≤ 64512 then .duplicate
  else .outside

/-- The NAK of an entry of the NAK memory, as it was sent (R158, R172). -/
def storedNak (qpn : Nat) (m : NakMem) (s : State) : State :=
  let h : ErtHdr := { ctlHdr (s.qp qpn) 0 m.tc.toNat m.path.toNat 0 m.psn m.msgId 0 m.stamp with dstQpn := BitVec.ofNat 17 qpn }
  sendNak qpn h m.ce 16 0 s

/-- Take a PSN-consuming packet: the gate, classification, and `k` for a NEW one (R158). A copy of a packet that
is held for a page is discarded (R173). -/
def rxNew (p : ErtPkt) (k : Nat → Qp → State → State) (s : State) : State :=
  match rxGate p false s with
  | .stop s => s
  | .take =>
    let n := p.hdr.dstQpn.toNat
    let q := s.qp n
    match classify q p.hdr.psn with
    | .repeatNak => (q.nakMem.find? (fun m => m.psn == p.hdr.psn)).elim s (fun m => storedNak n m s)
    | .duplicate =>
      sendAck n (count (s.ctx q.ctx).slice 18 (s.updQp n (fun q => { q with echo := (p.hdr.path, p.hdr.tc, p.hdr.stamp) })))
    | .outside => count 522 (64 * q.needle.getD 0 + 5) s
    | .new => if q.held.any (fun h => h.1.hdr.psn == p.hdr.psn) then countUnnamed s else k n q (touchQp n s)

/-! ### Trackers (R160, R192, R201) -/

/-- The open tracker of a message: of a response, or of the peer's own sequence. -/
def findTracker (s : State) (qpn : Nat) (id : BitVec 24) (resp : Bool) : Option (Nat × Tracker) :=
  s.trackers.find? (fun e => e.2.qpn == qpn && e.2.msgId == id &&
    (match e.2.use with | .readResp .. => resp | .atomicResp .. => resp | .roce => false | _ => !resp))

/-- Refuse for want of a tracker (R201). -/
def busyNak (qpn : Nat) (p : ErtPkt) (s : State) : State :=
  let s := s.updQp qpn (fun q => { q with busyNaks := q.busyNaks + 1 })
  let k := (s.qp qpn).busyNaks
  let delay := min 256 (8 * 2 ^ min (k - 1) 5) + qpn % 8
  sendNak qpn p.hdr p.ce 1 delay (count (s.ctx (s.qp qpn).ctx).slice 19 s)

/-- Open a tracker for an arriving message (R160); a window it names counts it (R47). -/
def rxTracker (t : Tracker) (s : State) : Option (Nat × State) :=
  match openTracker t s with
  | none => none
  | some (i, s) => some (i, if t.window = 0 then s else s.updWin (winIndex t.window) (fun w => { w with trackers := w.trackers + 1 }))

/-- Account bytes in a tracker (R160): a packet of the message accounted ends a reclaim (R196). -/
def account (i off len : Nat) (failed : Bool) (s : State) : State :=
  updTracker i (fun t => { t with
    accounted := t.accounted + len
    failed := t.failed || failed
    reclaimed := false
    ranges := if len = 0 then t.ranges else (off, len) :: t.ranges }) s

/-- Learn a message's length: grants begin at its grant base (R192). -/
def learnLen (i len : Nat) (s : State) : State :=
  let u := unschedU s
  updTracker i (fun t => if t.msgLen.isSome then t else { t with msgLen := some len, granted := min u len }) s

/-! ### Completion of a message (R160, R162) -/

/-- Note a complete message of the peer's sequence; where its action needs the tracker no longer, it closes. -/
def completeMsg (i : Nat) (keep : Bool) (s : State) : State :=
  match Tab.get s.trackers i with
  | none => s
  | some t =>
    let d : DoneMsg :=
      { id := t.msgId, op := t.op, tracker := if keep then some i else none, imm := t.imm, rxSeq := t.rxSeq,
        len := t.msgLen.getD 0, failed := t.failed, act := t.act, window := t.window, hdr := t.req,
        info := BitVec.ofNat 32 (t.aux.getD 0 0) }
    let s := s.updQp t.qpn (fun q => { q with complete := q.complete ++ [d] })
    if keep then s else pumpWork (closeTracker i s)

/-- Whether all bytes of a tracker's message are accounted (R160). -/
def trackerFull (t : Tracker) : Bool := t.msgLen == some t.accounted

/-! ### Placement (R161, R172, R173) -/

/-- RETRY_DELAY of PAGE_NOT_READY in µs (R173). -/
def pageDelay (s : State) (since : Nat) : Nat := min 1024 (max 16 ((s.ticks - since) * 16 / 10000 / 2))

/-- When the pending-fault entry of the page that a requester waits for was allocated (R173); now where it has none yet. -/
def faultSince (s : State) (purp : XPurp) : Nat :=
  match s.xlt.latched.find? (fun l => l.j.purp == purp) with
  | some l => (((faultOf s l.ctx l.panel l.page).bind (Tab.get s.xlt.faults)).map (·.since)).getD s.ticks
  | none => ((s.xlt.faults.find? (fun e => e.2.joiners.any (fun j => j.purp == purp))).map (·.2.since)).getD s.ticks

/-- Refuse a packet whose page is not resident (R173). -/
def pageNak (qpn : Nat) (p : ErtPkt) (s : State) : State :=
  sendNak qpn p.hdr p.ce 2 (pageDelay s (faultSince s (.place qpn p.hdr.psn))) (count (s.ctx (s.qp qpn).ctx).slice 21 s)

/-- Whether a requester's translation raised or joined a fault, or waits in its stream's latch while the table is full; and
whether its stream's latch holds a fault on another page instead (R132, R133). -/
def faulted (s : State) (purp : XPurp) : Bool :=
  s.xlt.faults.any (fun e => e.2.joiners.any (fun j => j.purp == purp)) || s.xlt.latched.any (fun l => l.full && l.j.purp == purp)
def latchedUp (s : State) (purp : XPurp) : Bool := s.xlt.latched.any (fun l => !l.full && l.j.purp == purp)

/-- What waits in a latch for a requester is given up. -/
def unlatch (purp : XPurp) (s : State) : State :=
  s.updXlt (fun x => { x with latched := x.latched.filter (fun l => l.full || l.j.purp != purp) })

/-- Packets that a needle holds for a page that is not resident (R173): those of a RoCEv2 QP wait behind the first. -/
def heldBy (s : State) (needle : Option Nat) : Nat :=
  (s.qps.map (fun e =>
    if e.2.needle == needle then
      (e.2.held.filter (fun h => faulted s (.place e.1 h.1.hdr.psn))).length + (if faulted s (.roce e.1) then e.2.roce.held.length else 0)
    else 0)).foldl (· + ·) 0

/-- Hold a packet until its translation is known; at a non-present page, as R173 states. -/
def holdPacket (qpn : Nat) (p : ErtPkt) (s : State) : State :=
  let purp := XPurp.place qpn p.hdr.psn
  let full := decide (64 ≤ heldBy s (s.qp qpn).needle)
  if latchedUp s purp || (faulted s purp && full) then unlatch purp (pageNak qpn p s)
  else s.updQp qpn (fun q => { q with held := q.held ++ [(p, s.ticks)] })

/-- Whether a QP takes part in the transport: neither in ERROR nor draining under an abort (R144, R145). -/
def qpTakes (q : Qp) : Bool := q.st == .active || q.st == .held || (q.st == .draining && !q.abort)

/-- A packet's writes have ended (R161, R172): accounting, then an ACK or a NAK. -/
def placeEnd (qpn : Nat) (h : ErtHdr) (ce : Bool) (tr off len : Nat) (failed : Bool) (s : State) : State :=
  let q := s.qp qpn
  let s := account tr off len failed s
  let s := if failed then placementFailed qpn h ce (s.updQp qpn (fun q => q.report h ce))
    else reportPsn qpn h ce (countBy (s.ctx q.ctx).slice 15 len s)
  s

/-- What the failure of a placement means for the requester of a READ_RESP: its extent fails, with CAUSE and SOURCE (R113).
Nothing for any other message. -/
def respCause (tr : Nat) (c : Nat × Nat) (s : State) : State :=
  match Tab.get s.trackers tr with
  | some t => (match t.use with | .readResp sq idx ext => extCause sq idx ext c.1 c.2 s | _ => s)
  | none => s

/-- Write a packet's bytes, at translated places: pieces of CVA and data. The packet is accepted first. -/
def placeIssue (qpn : Nat) (p : ErtPkt) (tr off len ctx : Nat) (ps : List (Ext × Nat × List Byte)) (s : State) : State :=
  let s := countRx qpn (s.updQp qpn (fun q => q.accept p.hdr.psn))
  let r := ps.foldl (fun (r : Nat × Nat × State) x =>
    let w := extWrite ctx x.1 x.2.1 x.2.2 (fun _ _ => .place qpn p.hdr.psn) r.2.2
    (r.1 + w.1, if w.2.1 || r.2.1 ≠ 0 then r.2.1 else lostCause w.2.2 (x.1.memAt x.2.1).addr,
      holdUse (.place qpn p.hdr.psn) ctx x.1 w.2.2)) (0, 0, s)
  let s := if r.2.1 = 0 then r.2.2 else respCause tr (r.2.1, 0x3F) r.2.2
  if r.1 = 0 then placeEnd qpn p.hdr p.ce tr off len (r.2.1 ≠ 0) s
  else
    let e : Placing :=
      { psn := p.hdr.psn, tracker := tr, age := ((Tab.get s.trackers tr).map (·.seen)).getD 0, off := off, len := len,
        outstanding := r.1, failed := r.2.1 ≠ 0, hdr := p.hdr, ce := p.ce }
    s.updQp qpn (fun q => { q with placing := q.placing ++ [e] })

/-- What a placement does about an address that fails. -/
inductive OnFail where
  | bounds
  | target
  deriving DecidableEq, Repr

/-- Translate pieces of CVA and data. -/
def xlatePieces (purp : XPurp) (st : Stream) (a : Acc) : List (Nat × List Byte) → State →
    XRange × List (Ext × Nat × List Byte) × State
  | [], s => (.ok [] [], [], s)
  | (cva, d) :: t, s =>
    match xlateRange purp st { a with cva := cva, len := d.length } [] (xfuel d.length) 0 d.length s with
    | (.ok ps _, s) =>
      match xlatePieces purp st a t s with
      | (.ok a2 b2, l, s) => (.ok a2 b2, ps.map (fun p => (p.2.1, cva + p.1, slice d p.1 p.2.2)) ++ l, s)
      | r => r
    | (r, s) => (r, [], s)

/-- Place a NEW packet's bytes (R161, R172, R173): `len` wire-stream bytes at message offset `off` are accounted
in tracker `tr`. -/
def place (qpn : Nat) (p : ErtPkt) (tr off len ctx : Nat) (remote : Option Nat) (onFail : OnFail)
    (pieces : List (Nat × List Byte)) (s : State) : State :=
  let purp := XPurp.place qpn p.hdr.psn
  let a : Acc := { ctx := ctx, cva := 0, kind := .write, remote := remote }
  match xlatePieces purp (.qp qpn) a pieces s with
  | (.wait, _, s) => holdPacket qpn p s
  | (.fail r, _, s) =>
    let s := forgetSeen purp s
    let soft : Bool := match r with | .chartFailed _ => true | .faultFailed => true | _ => onFail == .target
    if soft then
      placeEnd qpn p.hdr p.ce tr off len true
        (respCause tr (trCause r) (countRx qpn (s.updQp qpn (fun q => q.accept p.hdr.psn))))
    else fatalNak qpn p 34 s
  | (.ok _ _, ps, s) => placeIssue qpn p tr off len ctx ps (forgetSeen purp s)

/-- Account a poisoned packet without placing it (R161). -/
def poisoned (qpn : Nat) (p : ErtPkt) (tr off len : Nat) (s : State) : State :=
  reportPsn qpn p.hdr p.ce (account tr off len true (countRx qpn (s.updQp qpn (fun q => q.accept p.hdr.psn))))

/-! ### The checks of a window (R46, R159) -/

/-- The slice and context of a window. -/
def winCtx (s : State) (w : Win) : Nat := (s.moOf w.mo).ctx

/-- CVA of a window offset. -/
def winCva (s : State) (w : Win) (off : Nat) : Nat := (s.moOf w.mo).base + w.off + off

/-- The panel right and window right of a kind of request: REMOTE_READ, REMOTE_WRITE, REMOTE_ATOMIC (R41, R45);
for a signal the MARKER access (R110). -/
inductive ReqKind where
  | read
  | write
  | atomic
  | signal
  deriving DecidableEq, Repr

def ReqKind.winRight : ReqKind → Nat
  | .read => 0
  | .write => 1
  | .atomic => 2
  | .signal => 3

/-- The access that a request makes at a window offset. -/
def reqAcc (s : State) (k : ReqKind) (w : Win) (off len : Nat) : Acc :=
  { ctx := winCtx s w, cva := winCva s w off, len := len,
    kind := match k with | .read => .read | .write => .write | .atomic => .atomic | .signal => .marker,
    remote := match k with | .read => some 2 | .write => some 3 | .atomic => some 4 | .signal => none }

/-- Whether a window's object lies in a REMOTE_WINDOW panel (R159). -/
def winRemote (s : State) (w : Win) : Bool :=
  let o := s.moOf w.mo
  ((s.ctx o.ctx).panel o.panel).targetCode == 2

/-- Bounds of a range in a window (R159). -/
def inWindow (w : Win) (off len : Nat) : Bool := decide (off + len ≤ w.len)

/-- The NAK code of the first check of R159 that a request fails, past the first. `pinned` is the window of an open
tracker: a later packet of its message is checked against the generation that the tracker has pinned, and only its bounds
again. What the chart cache does not hold, the placement's own translation tests (`place`, `acceptRequest`). -/
def winCheck (s : State) (qpn : Nat) (h : BitVec 32) (k : ReqKind) (ranges : List (Nat × Nat)) (pinned : Option (BitVec 32)) :
    Option Nat :=
  let w := s.win (winIndex h)
  if pinned.isSome then
    (if pinned != some h then some 32 else if ranges.all (fun r => inWindow w r.1 r.2) then none else some 34)
  else if winGen h = 0 || w.gen != winGen h || w.st != .valid then some 32
  else
    let q := s.qp qpn
    if (s.ctx q.ctx).slice != (s.ctx (winCtx s w)).slice || (w.allowedQp ≠ 0 && w.allowedQp != qpn) then some 35
    else if !w.rights.getLsbD k.winRight then some 33
    else if !ranges.all (fun r => inWindow w r.1 r.2) || winRemote s w then some 34
    else if ranges.any (fun r => r.2 ≠ 0 && (match translate s (.prefetch) (reqAcc s k w r.1 r.2) with | .fail _ => true | _ => false)) then some 34
    else if (s.ctx (winCtx s w)).st != .active then some 36
    else none

/-- Decode a payload where the message is packed (R250): a poisoned packet too carries whole blocks (R251; DEDUCED, log 122). -/
def rxPayload (p : ErtPkt) : Option (List Byte × Bool) :=
  if fPly p.hdr.flags && !p.payload.isEmpty then plyUnpack p.payload else some (p.payload, false)

/-- Header fields that no request carries (R152): ECE, and IMM without LAST. -/
def flagsLegal (h : ErtHdr) : Bool := !fEce h.flags && (!fImm h.flags || fLast h.flags)

/-! ### WRITE (R159, R160) -/

/-- Take the message fields that a WRITE packet brings (R155, R160). -/
def writeLearn (i : Nat) (h : ErtHdr) (len : Nat) (s : State) : State :=
  let off := h.offsetLen.toNat
  let s := if fFirst h.flags then
      updTracker i (fun t => { t with winOff := some off }) (learnLen i (if fLast h.flags then len else h.imm.toNat) s)
    else s
  updTracker i (fun t => { t with
    act := t.act || fAct h.flags
    imm := if fImm h.flags then some h.imm else t.imm }) s

/-- A message whose bytes are all accounted is complete. -/
def completeIfFull (i : Nat) (s : State) : State :=
  match Tab.get s.trackers i with
  | some t => if trackerFull t then completeMsg i false s else s
  | none => s

/-- The ranges that the checks of a WRITE packet cover: its own, and the message's where it is the first (R159). -/
def writeRanges (h : ErtHdr) (len : Nat) : List (Nat × Nat) :=
  let off := h.offsetLen.toNat
  [(off, len)] ++ (if fFirst h.flags then [(off, if fLast h.flags then len else h.imm.toNat)] else [])

/-- The tracker of a packet's message: the open one, or a new one as `t` (R160). -/
def trackerFor (n : Nat) (p : ErtPkt) (t : Tracker) (s : State) : Option (Nat × State) :=
  match findTracker s n p.hdr.msgId false with
  | some (i, _) => some (i, s)
  | none => rxTracker t s

/-- A tracker for a packet's message of the peer's sequence. -/
def newTracker (n : Nat) (p : ErtPkt) (op : BitVec 4) (use : TrkUse) (s : State) : Tracker :=
  { qpn := n, msgId := p.hdr.msgId, op := op, use := use, shared := false, slice := (s.ctx (s.qp n).ctx).slice, tc := p.hdr.tc.toNat }

/-- A WRITE packet that passed its checks is placed in its window. -/
def writeInto (n : Nat) (p : ErtPkt) (i : Nat) (data : List Byte) (s : State) : State :=
  let h := p.hdr
  let len := data.length
  let off := h.offsetLen.toNat
  let s := writeLearn i h len s
  let w := s.win (winIndex h.window)
  completeIfFull i (
    if h.poison then poisoned n p i off len s
    else place n p i off len (winCtx s w) (some 3) .bounds (if len = 0 then [] else [(winCva s w off, data)]) s)

/-- A NEW WRITE packet. -/
def rxWrite (p : ErtPkt) (s : State) : State :=
  rxNew p (fun n _ s =>
    let h := p.hdr
    match rxPayload p with
    | none => fatalNak n p 38 s
    | some (data, short) =>
      if !flagsLegal h || (short && !fLast h.flags) then fatalNak n p 38 s
      else
        match winCheck s n h.window .write (writeRanges h data.length) ((findTracker s n h.msgId false).map (·.2.window)) with
        | some code => fatalNak n p code s
        | none =>
          match trackerFor n p { newTracker n p 0 .window s with window := h.window } s with
          | none => busyNak n p s
          | some (i, s) => writeInto n p i data s) s

/-! ### SEND (R163) -/

/-- The receive slot of a QP's message: its CVA, and its size. -/
def rxSlot (s : State) (q : Qp) (seq : BitVec 32) : Nat × Nat :=
  let z := 2 ^ q.rxLog2
  ((s.moOf q.rxMo).base + q.rxOff + seq.toNat % max 1 (s.cq q.rxCq).size * z, z)

/-- Whether a receive slot is free (R163). -/
def rxSlotFree (s : State) (q : Qp) (seq : BitVec 32) : Bool :=
  let c := s.cq q.rxCq
  decide (((BitVec.ofNat 24 seq.toNat) - c.c).toNat < c.size)

/-- The message offset of a packet that carries MSG_LEN where it is FIRST or LAST (R155). -/
def otherOff (h : ErtHdr) (len : Nat) : Nat :=
  if fFirst h.flags then 0 else if fLast h.flags then h.offsetLen.toNat - len else h.offsetLen.toNat

/-- MSG_LEN where a packet carries it (R155). -/
def pktLen (h : ErtHdr) : Option Nat := if fFirst h.flags || fLast h.flags then some h.offsetLen.toNat else none

/-- A SEND packet that passed its checks is placed in its receive slot. -/
def sendInto (n : Nat) (p : ErtPkt) (i : Nat) (data : List Byte) (s : State) : State :=
  let h := p.hdr
  let q := s.qp n
  let len := data.length
  let off := otherOff h len
  let s := match pktLen h with | some l => learnLen i l s | none => s
  let s := updTracker i (fun t => { t with act := true, imm := if fImm h.flags then some h.imm else t.imm }) s
  completeIfFull i (
    if h.poison then poisoned n p i off len s
    else place n p i off len q.ctx none .target (if len = 0 then [] else [((rxSlot s q h.window).1 + off, data)]) s)

/-- A NEW SEND packet. -/
def rxSendPkt (p : ErtPkt) (s : State) : State :=
  rxNew p (fun n q s =>
    let h := p.hdr
    match rxPayload p with
    | none => fatalNak n p 38 s
    | some (data, short) =>
      let len := data.length
      let off := otherOff h len
      let ml := pktLen h
      if !flagsLegal h || (short && !fLast h.flags) || (fLast h.flags && decide (h.offsetLen.toNat < len)) then fatalNak n p 38 s
      else
        let slot := rxSlot s q h.window
        if q.rxMo = 0 || decide (slot.2 < (ml.getD 0)) || decide (slot.2 < off + len) then fatalNak n p 37 s
        else if !rxSlotFree s q h.window then sendNak n h p.ce 3 8 s
        else
          match trackerFor n p { newTracker n p 1 .ring s with rxSeq := h.window } s with
          | none => busyNak n p s
          | some (i, s) => sendInto n p i data s) s

/-! ### READ_REQ and ATOMIC (R154, R159, R165, R174, R252) -/

/-- The tracker of a request that executes at its delivery. -/
def requestTracker (n : Nat) (p : ErtPkt) (range : Nat × Nat) (s : State) : Tracker :=
  { newTracker n p p.hdr.op .window s with
    window := p.hdr.window, winOff := some range.1, msgLen := some p.payload.length, accounted := p.payload.length, act := true
    ply := fPly p.hdr.flags, req := p.payload, aux := [p.hdr.imm.toNat], granted := p.payload.length }

/-- Accept a request that executes at its delivery: its tracker holds it until the execution ends (R160, R165). The
translation of its range must allow the access (R159): a page that is not resident holds the request (R173); a chart read
that fails, and a fault resolved FAIL, leave it to its execution, which translates anew (DEDUCED, log 124). -/
def acceptRequest (n : Nat) (p : ErtPkt) (kind : ReqKind) (range : Nat × Nat) (s : State) : State :=
  let h := p.hdr
  let purp := XPurp.place n h.psn
  match winCheck s n h.window kind [range] none with
  | some code => fatalNak n p code s
  | none =>
    let a := reqAcc s kind (s.win (winIndex h.window)) range.1 range.2
    let go (s : State) : State :=
      match rxTracker (requestTracker n p range s) s with
      | none => busyNak n p s
      | some (i, s) => completeMsg i true (consume n p s)
    match xlateRange purp (.qp n) a [] (xfuel range.2) 0 range.2 s with
    | (.wait, s) => holdPacket n p s
    | (.ok _ _, s) => go (forgetSeen purp s)
    | (.fail r, s) =>
      let s := forgetSeen purp s
      match r with
      | .chartFailed _ => go s
      | .faultFailed => go s
      | _ => fatalNak n p 34 s

/-- Whether a READ_REQ packet is malformed (R154, R252). -/
def readReqBad (p : ErtPkt) : Bool :=
  let h := p.hdr
  let q0 := beWord p.payload 0
  let q1 := beWord p.payload 1
  let fmt := fld h.imm 3 0
  let plyBad := fPly h.flags && ((plyFmt fmt).isNone || fld h.imm 31 4 ≠ 0 || q1 % unitBytes fmt ≠ 0)
  p.payload.length ≠ 16 || h.offsetLen.toNat ≠ 16 || !(fFirst h.flags && fLast h.flags) || fImm h.flags || fEce h.flags ||
    2 ^ 48 ≤ q0 || 2 ^ 48 ≤ q1 || q1 = 0 || h.poison || plyBad

/-- A NEW READ_REQ packet. -/
def rxReadReq (p : ErtPkt) (s : State) : State :=
  rxNew p (fun n _ s =>
    if readReqBad p then fatalNak n p 38 s else acceptRequest n p .read (beWord p.payload 0, beWord p.payload 1) s) s

/-- Size of an atomic's target (R154). -/
def aopBytes (aop : Nat) : Nat := if aop = 3 || aop = 4 then 16 else 8
/-- Operand words of an atomic (R154). -/
def aopWords (aop : Nat) : Nat := match aop with | 2 => 2 | 3 => 4 | _ => 1

/-- AOP and offset of an ATOMIC packet (R154). -/
def pktAop (p : ErtPkt) : Nat := bits (beWord p.payload 0) 55 48
def pktAopOff (p : ErtPkt) : Nat := bits (beWord p.payload 0) 47 0

/-- Whether an ATOMIC packet is malformed (R154, R174). -/
def atomicBad (p : ErtPkt) : Bool :=
  let h := p.hdr
  let aop := pktAop p
  aop = 0 || 4 < aop || bits (beWord p.payload 0) 63 56 ≠ 0 || p.payload.length ≠ 8 + 8 * aopWords aop ||
    h.offsetLen.toNat ≠ p.payload.length || !(fFirst h.flags && fLast h.flags) || fImm h.flags || fEce h.flags || fPly h.flags ||
    h.poison || pktAopOff p % aopBytes aop ≠ 0

/-- A NEW ATOMIC packet. -/
def rxAtomic (p : ErtPkt) (s : State) : State :=
  rxNew p (fun n _ s =>
    if atomicBad p then fatalNak n p 38 s
    else acceptRequest n p (if pktAop p = 4 then .signal else .atomic) (pktAopOff p, aopBytes (pktAop p)) s) s

/-! ### READ_RESP and ATOMIC_RESP (R160, R165, R171) -/

/-- Fail a requester's extent while its response goes on: the extent ends with the response. -/
def respFail (sq idx ext cause : Nat) (s : State) : State := extCause sq idx ext cause 0x3F s

/-- A response is complete: its tracker closes and its extent ends. -/
def respDone (i sq idx ext : Nat) (s : State) : State :=
  let s := closeTracker i s
  match s.op sq idx with
  | none => s
  | some o =>
    if extEnded (o.ext ext) || (o.ext ext).st != .sending then pumpWork s
    else pumpWork (extEnd sq idx ext ((o.ext ext).cause = 0) s)

/-- The bytes of a response's stream that can be converted now: whole units of the input format, out of the bytes
held and the bytes that arrive (R243). Answers what to write, as (input offset, bytes), and what is held. -/
def wholeUnits (unit off : Nat) (data : List Byte) (store : List (Nat × List Byte)) (total : Nat) :
    List (Nat × List Byte) × List (Nat × List Byte) :=
  let all := insertPiece (off, data) store
  let byte (k : Nat) : Option Byte := (all.find? (fun p => decide (p.1 ≤ k) && decide (k < p.1 + p.2.length))).map (fun p => p.2.getD (k - p.1) 0)
  let us := (List.range (ceilDiv (off + data.length) unit - off / unit)).map (fun k => off / unit + k)
  let have_ (u : Nat) : Option (List Byte) :=
    let n := min unit (total - u * unit)
    let bs := (List.range n).filterMap (fun j => byte (u * unit + j))
    if bs.length = n then some bs else none
  let done := us.filterMap (fun u => (have_ u).map (fun b => (u * unit, b)))
  let ends := [us.headD 0, us.getLastD 0].eraseDups
  let keep := (ends.filter (fun u => (have_ u).isNone)).filterMap (fun u =>
    let lo := max off (u * unit)
    let hi := min (off + data.length) ((u + 1) * unit)
    if lo < hi then some (lo, slice data (lo - off) (hi - lo)) else none)
  let old := store.filter (fun p => !done.any (fun d => decide (d.1 ≤ p.1) && decide (p.1 < d.1 + unit)))
  (done, keep.foldl (fun l p => insertPiece p l) old)

/-- The input bytes that a requester converts as one: a unit of the input format, or the 256 elements of an output tile
(R232, R243). -/
def convUnit (g : Gauge) : Nat := if isMx g.outF && !isMx g.inF then 256 * elemBytes g.inF else unitBytes g.inF

/-- A READ_RESP packet that passed its checks: its bytes, converted where the formats differ (R243), go to the
operation's destination. Bytes of a unit that is not whole yet are held from the packet's acceptance on. -/
def respInto (n : Nat) (p : ErtPkt) (i sq idx ext : Nat) (o : Op) (t : Tracker) (data : List Byte) (s : State) : State :=
  let g := o.gauge
  let len := data.length
  let off := otherOff p.hdr len
  let s :=
    if p.hdr.poison then respFail sq idx ext caPoisonReceived (poisoned n p i off len s)
    else
      let r := extIn g (o.ext ext)
      let dst := o.dst.2 + extOut g r.1
      if g.inF = g.outF then place n p i off len o.ctx none .target [(dst + off, data)] s
      else
        let w := wholeUnits (convUnit g) off data t.store (t.msgLen.getD 0)
        let outs := w.1.map (fun u =>
          (dst + extOut g u.1, convertBytes g.inF g.outF g.stoch g.sat (s.ctx o.ctx).seed 0 (fmtElems g.inF (r.1 + u.1)) u.2))
        let s := place n p i off len o.ctx none .target outs s
        if classify (s.qp n) p.hdr.psn == .new then s else updTracker i (fun t => { t with store := w.2 }) s
  match Tab.get s.trackers i with
  | some t => if trackerFull t then respDone i sq idx ext s else s
  | none => s

/-- A NEW READ_RESP packet. -/
def rxReadResp (p : ErtPkt) (s : State) : State :=
  rxNew p (fun n q s =>
    let h := p.hdr
    match findTracker s n h.msgId true with
    | none => count 522 (64 * q.needle.getD 0 + 9) (consume n p s)
    | some (i, t) =>
      match t.use, rxPayload p with
      | .readResp sq idx ext, some (data, short) =>
        match s.op sq idx with
        | none => count 522 (64 * q.needle.getD 0 + 9) (consume n p s)
        | some o =>
          let len := data.length
          let off := otherOff h len
          let total := t.msgLen.getD 0
          if !flagsLegal h || (short && !fLast h.flags) || ((fFirst h.flags || fLast h.flags) && h.offsetLen.toNat ≠ total) ||
              total < off + len then fatalNak n p 38 s
          else
            respInto n p i sq idx ext o t data s
      | _, _ => fatalNak n p 38 s) s

/-- The answer of a remote atomic to its operation (R171, R175): a 128-bit old value is written at RESULT_CVA. -/
def atomicAnswer (p : ErtPkt) (sq idx : Nat) (s : State) : State :=
  let st := bits (beWord p.payload 0) 7 0
  let old := BitVec.ofNat 64 (beWord p.payload 1)
  match s.op sq idx with
  | none => s
  | some o =>
    let s := if st = 0 && o.opcode ≠ 0x30 then s.updOp sq idx (fun o => { o with result := if o.length = 16 then 0 else old }) else s
    let s :=
      if st = 1 then s.updOp sq idx (fun o => { o with stop := some (stUnsupportedTarget, 0) })
      else if st = 2 then s.updOp sq idx (fun o => { o with stop := some (stMarkerRange, 0) })
      else if st = 3 then extCause sq idx 0 caAtomicTarget 0x3F s
      else s
    if st = 0 && o.opcode = 0x19 && o.length = 16 then
      let bs := leBytes 8 (beWord p.payload 1) ++ leBytes 8 (beWord p.payload 2)
      extWriteOut sq idx 0 (updExt sq idx 0 (fun e => { e with st := .ready, got := [(0, bs)] }) s)
    else pumpWork (extEnd sq idx 0 (st = 0) s)

/-- A NEW ATOMIC_RESP packet (R171, R175). -/
def rxAtomicResp (p : ErtPkt) (s : State) : State :=
  rxNew p (fun n q s =>
    match findTracker s n p.hdr.msgId true with
    | some (i, t) =>
      match t.use with
      | .atomicResp sq idx => atomicAnswer p sq idx (closeTracker i (consume n p s))
      | _ => count 522 (64 * q.needle.getD 0 + 9) (consume n p s)
    | none => count 522 (64 * q.needle.getD 0 + 9) (consume n p s)) s

end Sys2Proof.Machine
end

