-- ==== Sys2Proof/Machine/Responder.lean ====
section
/-! DEFINITION. What delivery does (R162-R165, R174): trigger tags, receive completions, and the execution of read
and atomic requests at their responder. -/

namespace Sys2Proof.Machine

/-! ### Receive completions (R163) -/

/-- A receive completion record without PHASE. -/
def recvImage (epoch gen : BitVec 8) (qpn len : Nat) (failed : Bool) (imm : Option (BitVec 32)) (id : BitVec 24) : Nat :=
  (if failed then stPartial else stGood) + 0x12 * 2 ^ 8 + epoch.toNat * 2 ^ 48 + gen.toNat * 2 ^ 56 + len * 2 ^ 64 +
    (imm.getD 0).toNat * 2 ^ 128 + qpn * 2 ^ 160 + b2n imm.isSome * 2 ^ 177 + id.toNat * 2 ^ 192

/-- Post a QP's receive completion; `tag` is the trigger tag that is offered once it is written (R184). -/
def postRecv (qpn len : Nat) (failed : Bool) (imm : Option (BitVec 32)) (id : BitVec 24) (tag : Option (BitVec 32)) (s : State) : State :=
  let q := s.qp qpn
  let c := s.ctx q.ctx
  let g := (s.slice c.slice).gen
  let r : CqRec :=
    { image := recvImage c.epoch g qpn len failed imm id, qp := true, num := qpn, ticks := s.ticks, epoch := c.epoch, gen := g,
      tag := tag.map (fun t => (qpn, t)) }
  postRecord q.rxCq q.ctx r (touchQp qpn s)

/-! ### Execution of READ_REQ (R165) -/

/-- The bytes of a failed translation's page, or all that is left where no page is concerned. -/
def failSpan (s : State) (a : Acc) (len : Nat) : Nat :=
  match panelAt (s.ctx a.ctx) a.cva with
  | none => len
  | some (_, p) => if p.mode = 0 then len else min len (2 ^ p.shift - (a.cva - p.base) % 2 ^ p.shift)

/-- Translate a range piece by piece: (offset, extent or none where it fails, length); none while a piece waits. -/
def xlateParts (purp : XPurp) (st : Stream) (a : Acc) : Nat → Nat → Nat → State → Option (List (Nat × Option Ext × Nat)) × State
  | 0, _, _, s => (some [], s)
  | fuel + 1, off, len, s =>
    if len = 0 then (some [], s)
    else
      let b := { a with cva := a.cva + off, len := len }
      match translateOr purp st b s with
      | (.wait, s) => (none, s)
      | (.ok e, s) =>
        let n := min len e.len
        match xlateParts purp st a fuel (off + n) (len - n) s with
        | (some ps, s) => (some ((off, some e, n) :: ps), s)
        | r => r
      | (.fail _, s) =>
        let n := failSpan s b len
        match xlateParts purp st a fuel (off + n) (len - n) s with
        | (some ps, s) => (some ((off, none, n) :: ps), s)
        | r => r

/-- The READ_RESP of a gathered request (R155, R165, R195): bad bytes travel as POISON. -/
def readRespond (i : Nat) (s : State) : State :=
  match Tab.get s.trackers i with
  | none => s
  | some t =>
    let q := s.qp t.qpn
    let data := joinPieces t.store
    let ply := if t.ply then some (t.aux.getD 0 0 % 16) else none
    let ps := cutStream q.payloadMax ply data t.ranges
    let m : Msg :=
      { id := t.msgId, resp := true, op := 3, tc := t.tc, len := data.length, pkts := otherPkts ps data.length, ply := t.ply,
        granted := min (unschedU s) data.length, owner := .responder i }
    pumpWork (sendMsg t.qpn m (closeTracker i s))

/-- A responder's read returns, or failed: the bytes that it does not bring are bad, and travel as POISON (R165). -/
def rxReadDone (i off : Nat) (a : Answer) (s : State) : State :=
  match Tab.get s.trackers i with
  | none => s
  | some t =>
    if !t.executing then s
    else
      let n := (Tab.getD s.trackers i t).aux.getD 1 0
      let s := updTracker i (fun t => { t with
        aux := t.aux.set 1 (n - 1)
        store := match a with
          | .data bs => insertPiece (off, bs) t.store
          | .poison k _ => insertPiece (off, zeros k) t.store
          | .failed _ _ k => insertPiece (off, zeros k) t.store
        ranges := match a with | .data _ => t.ranges | .poison k _ => (off, k) :: t.ranges | .failed _ _ k => (off, k) :: t.ranges }) s
      if n ≤ 1 then readRespond i s else s

/-- Execute a READ_REQ: its range is read from the window; what does not translate, or cannot be read, is bad. -/
def execRead (i : Nat) (t : Tracker) (s : State) : State :=
  let w := s.win (winIndex t.window)
  let len := beWord t.req 1
  let a := reqAcc s .read w (t.winOff.getD 0) len
  match xlateParts (.exec t.qpn i) (.qp t.qpn) a (len / 33554432 + 3) 0 len s with
  | (none, s) => s
  | (some ps, s) =>
    let s := forgetSeen (.exec t.qpn i) s
    let s := updTracker i (fun t => { t with executing := true, ranges := [], aux := [t.aux.getD 0 0, 0] }) s
    let r := ps.foldl (fun (r : Nat × State) p =>
      match p.2.1 with
      | none => (r.1, updTracker i (fun t => { t with store := insertPiece (p.1, zeros p.2.2) t.store, ranges := (p.1, p.2.2) :: t.ranges }) r.2)
      | some e =>
        let rd := extRead a.ctx e (a.cva + p.1) p.2.2 (fun off => .rxRead t.qpn i (p.1 + off)) r.2
        if rd.2.1 then (r.1 + rd.1, rd.2.2)
        else
          (r.1 + rd.1, updTracker i (fun t => { t with store := insertPiece (p.1, zeros p.2.2) t.store, ranges := (p.1, p.2.2) :: t.ranges }) rd.2.2))
      (0, s)
    let s := updTracker i (fun t => { t with aux := t.aux.set 1 r.1 }) r.2
    if r.1 = 0 then readRespond i s else s

/-! ### Execution of ATOMIC (R174, R175) -/

/-- Answer an ATOMIC: RSTATUS and the words of the old value; its tracker closes. -/
def atomicRespond (i rstatus : Nat) (old : List Nat) (s : State) : State :=
  match Tab.get s.trackers i with
  | none => s
  | some t =>
    let p := payloadWords (rstatus :: old)
    let m : Msg :=
      { id := t.msgId, resp := true, op := 5, tc := t.tc, len := p.length, owner := .responder i,
        pkts := [{ off := 0, len := p.length, offLen := p.length, payload := p }] }
    pumpWork (sendMsg t.qpn m (closeTracker i s))

/-- RSTATUS of an atomic that failed at its target (R174): 1 where the host's completer refused it, 3 at device memory. -/
def atomicRefused (a : Answer) : Nat :=
  match a with
  | .data _ => 0
  | .poison _ c => if c = caHostFailed then 1 else 3
  | .failed c _ _ => if c = caHostFailed then 1 else 3

/-- An atomic on memory answers with its old bytes, or refuses. -/
def rxAtomicDone (i : Nat) (a : Answer) (s : State) : State :=
  match Tab.get s.trackers i with
  | none => s
  | some t =>
    if !t.executing then s
    else
      let aop := bits (beWord t.req 0) 55 48
      let blank := if aop = 3 then [0, 0] else [0]
      match a with
      | .data bs => atomicRespond i 0 (if aop = 3 then [ofLe (bs.take 8), ofLe ((bs.drop 8).take 8)] else [ofLe (bs.take 8)]) s
      | _ => atomicRespond i (atomicRefused a) blank s

/-- Execute an ATOMIC at its target, under the die link's AOP code (R340). -/
def execAtomicReq (i : Nat) (t : Tracker) (s : State) : State :=
  let w := s.win (winIndex t.window)
  let q0 := beWord t.req 0
  let aop := bits q0 55 48
  let off := bits q0 47 0
  let op (k : Nat) : Nat := beWord t.req (k + 1)
  let blank := if aop = 4 then [] else if aop = 3 then [0, 0] else [0]
  let a := reqAcc s (if aop = 4 then .signal else .atomic) w off (aopBytes aop)
  match translateOr (.exec t.qpn i) (.qp t.qpn) a s with
  | (.wait, s) => s
  | (.fail _, s) => atomicRespond i 3 blank (forgetSeen (.exec t.qpn i) s)
  | (.ok e, s) =>
    let s := updTracker i (fun t => { t with executing := true }) (forgetSeen (.exec t.qpn i) s)
    let m := e.memAt a.cva
    if e.target != .hbm && e.target != .host then atomicRespond i 1 blank s
    else if aop = 4 then
      let r : MarkRef := { mo := w.mo, off := w.off + off, key := markerKey s a.ctx m.host m.addr }
      let x := applySignal r (BitVec.ofNat 64 (op 0)) s
      atomicRespond i (if x.1 == .rejected then 2 else 0) [] x.2
    else
      let z := aopBytes aop
      let oa : BitVec 128 := BitVec.ofNat 128 (if aop = 3 then op 0 + op 1 * 2 ^ 64 else op 0)
      let ob : BitVec 128 := BitVec.ofNat 128 (if aop = 3 then op 2 + op 3 * 2 ^ 64 else if aop = 2 then op 1 else 0)
      let dop := if aop = 3 then 7 else if aop = 2 then 6 else 1
      if e.target == .hbm then
        match memAtomic a.ctx m.addr z dop oa ob (.rxAtomic t.qpn i) s with
        | some s => holdUse (.rxAtomic t.qpn i) a.ctx e s
        | none => atomicRespond i 3 blank s
      else
        let sl := (s.ctx a.ctx).slice
        let l := (s.slice sl).link
        if !(s.link l).atomicEn then atomicRespond i 1 blank s
        else
          let rq : HostReq :=
            { purp := .rxAtomic t.qpn i, addr := m.addr, len := z, slice := some sl, since := s.ticks, aop := some (dop, oa, ob) }
          holdUse (.rxAtomic t.qpn i) a.ctx e (hostRequest l rq s)

/-- Execute a delivered request (R165). -/
def execRequest (i : Nat) (s : State) : State :=
  match Tab.get s.trackers i with
  | none => s
  | some t => if t.executing then s else if t.op.toNat = 2 then execRead i t s else execAtomicReq i t s

end Sys2Proof.Machine
end

