-- ==== Sys2Proof/Machine/Purl.lean ====
section
/-! DEFINITION. Collectives (09): the progress of chunks, slots and credits, the packets of opcodes 11-13, restarts,
and group formation. -/

namespace Sys2Proof.Machine

/-! ### Looking up -/

/-- Change a chunk of a started collective. -/
def updChunk (grp seq c : Nat) (f : Chunk → Chunk) (s : State) : State :=
  s.updGroup grp (fun g => { g with colls := Tab.adj g.colls seq (fun k => { k with chunks := Tab.upd k.chunks c {} f }) })

/-- A started collective with its descriptor. -/
def State.coll (s : State) (grp seq : Nat) : Option (Coll × Op) :=
  (Tab.get (s.group grp).colls seq).bind (fun k => (s.op k.sq k.idx).map (fun o => (k, o)))

def Coll.chunk (k : Coll) (c : Nat) : Chunk := Tab.getD k.chunks c {}

/-- The rank of a QP in a group. -/
def rankOf (g : Group) (qpn : Nat) : Option Nat := g.members.findIdx? (fun m => m == some qpn)

/-- The QP to a rank. -/
def rankQp (g : Group) (r : Nat) : Option Nat := (g.members[r]?).join

/-- N. -/
def Group.n (g : Group) : Nat := g.members.length

/-- A reduction through the aggregation point (R288). -/
def viaSwitch (g : Group) (o : Op) : Bool := g.switch && pcReduces o

/-- A chunk's parent and children at this member; none through the aggregation point. -/
def treeOf (g : Group) (o : Op) (c : Nat) : Option Nat × List Nat :=
  if viaSwitch g o then (none, []) else pcTree o g.n g.fanin c g.rank

/-- Whether a credit (SEQ × 2^20 + chunk + 1) covers a chunk (R277). -/
def creditCovers (v seq c : Nat) : Bool :=
  let cs := (v - 1) / 2 ^ 20
  let d := (cs + 2 ^ 20 - seq) % 2 ^ 20
  decide (v ≠ 0) && (if d = 0 then decide (c ≤ (v - 1) % 2 ^ 20) else decide (d < 2 ^ 19))

/-- Whether a rank has credited this member for a chunk. -/
def hasCredit (g : Group) (r seq c : Nat) : Bool := creditCovers (Tab.getD g.credit r 0) seq c

/-! ### Slots (R276, R277) -/

/-- The slots in use, with the group of each and whether it is a reserved one. -/
def slotsUsed (s : State) : List (Nat × Nat × Bool) :=
  s.groups.flatMap (fun g => g.2.colls.flatMap (fun k => k.2.chunks.filterMap (fun c => c.2.slot.map (fun x => (x.1, g.1, x.2)))))

/-- Slots that EXACT groups reserve. -/
def slotsReserved (s : State) : Nat :=
  (s.groups.map (fun g => if g.2.st != .free && !g.2.switch then g.2.rsv else 0)).foldl (· + ·) 0

/-- A slot for a chunk of a group: a reserved one, else a shared one, in a quadrant in service. -/
def takeSlot (s : State) (grp : Nat) : Option (Nat × Bool) :=
  let used := slotsUsed s
  let mine (rsv : Bool) : Nat := (used.filter (fun u => u.2.1 == grp && u.2.2 == rsv)).length
  let shared := (used.filter (fun u => !u.2.2)).length
  let number := (List.range 144).find? (fun k => unitOk s (24 + k / 36) 0 && !used.any (fun u => u.1 == k))
  match number with
  | none => none
  | some k =>
    if mine true < (s.group grp).rsv then some (k, true)
    else if shared < 144 - slotsReserved s && mine false < 36 then some (k, false)
    else none

/-! ### Sending -/

/-- Send a PURL_DATA or PURL_RESULT message (R273, R274). -/
def purlSend (qpn op grp seq tc : Nat) (info : BitVec 32) (ply : Option Nat) (data : List Byte) (poison : Bool) (s : State) : State :=
  let q := s.qp qpn
  let bad := if poison then [(0, data.length)] else []
  let ps := (otherPkts (cutStream q.payloadMax ply data bad) data.length).map (fun p => { p with imm := info })
  let m : Msg :=
    { id := 0, op := BitVec.ofNat 4 op, tc := tc, window := BitVec.ofNat 32 (grp * 2 ^ 20 + seq % 2 ^ 20), len := data.length,
      pkts := ps, ply := ply.isSome, owner := .purl grp seq }
  sendMsg qpn m s

/-- Note a chunk's failure (R279, R287): its work extent fails with the first cause. -/
def chunkFail (grp seq c cause : Nat) (s : State) : State :=
  updChunk grp seq c (fun x => { x with failed := true, cause := if x.cause = 0 then cause else x.cause }) s

/-! ### The work extents (R279) -/

/-- Chunks in one group: G. -/
def pcGroupSize (o : Op) (n : Nat) : Nat := max 1 (ceilDiv (pcChunks o n) 16)

/-- Input bytes of a chunk at this member. -/
def pcInBytes (o : Op) (g : Group) (c : Nat) : Nat :=
  if pcHasInput o g.n c g.rank then fmtBytes o.gauge.inF (pcRange o g.n c).2.2 else 0

/-- The work extents of a collective: groups of chunks. -/
def pcWork (o : Op) (g : Group) : List WorkExt :=
  let k := pcChunks o g.n
  let z := pcGroupSize o g.n
  (List.range (ceilDiv k z)).map (fun i =>
    { off := i, len := ((List.range (min ((i + 1) * z) k - i * z)).map (fun j => pcInBytes o g (i * z + j))).foldl (· + ·) 0 })

/-- Whether a chunk's work at this member has ended (R279). -/
def chunkDone (g : Group) (o : Op) (c : Nat) (x : Chunk) : Bool :=
  let t := treeOf g o c
  let out := pcHasOutput o g.n c g.rank
  (if viaSwitch g o then x.upAcked
    else if pcReduces o then (match t.1 with | some _ => x.upAcked | none => x.outDone || x.failed) else true) &&
  (if out then x.outDone || x.failed else t.1.isNone || x.outGot) &&
  t.2.all (fun k => x.ackDown.contains k)

/-- Bring a collective's extents up to date; it is finished once every chunk's work has ended. -/
def collSettle (grp seq : Nat) (s : State) : State :=
  match s.coll grp seq with
  | none => s
  | some (k, o) =>
    let g := s.group grp
    let n := pcChunks o g.n
    let z := pcGroupSize o g.n
    let ended (c : Nat) : Bool := chunkDone g o c (k.chunk c)
    let work := o.work.zipIdx.map (fun e =>
      let cs := (List.range (min ((e.2 + 1) * z) n - e.2 * z)).map (fun j => e.2 * z + j)
      if cs.all ended then { e.1 with st := if cs.any (fun c => (k.chunk c).failed) then .failed else .landed } else e.1)
    let bad := (List.range n).find? (fun c => (k.chunk c).failed && ended c)
    s.updOp k.sq k.idx (fun o => { o with
      work := work, finished := work.all extEnded
      detail := match bad with
        | some c => if o.detail = 0 then partialDetail (k.chunk c).cause (c / z) 0x3F else o.detail
        | none => o.detail })

/-! ### A chunk's steps (R278) -/

/-- Read a chunk's own input. -/
def chunkRead (grp seq c : Nat) (o : Op) (sq : Nat) (s : State) : State :=
  let g := s.group grp
  let f := o.gauge.inF
  let len := fmtBytes f (pcRange o g.n c).2.2
  let cva := o.src.2 + fmtBytes f (pcInFirst o g.n c)
  let purp := XPurp.purl grp seq c
  match xlateRange purp (.sq (sq % 65536)) { ctx := o.ctx, cva := cva, len := len, kind := .read } (o.stored 2) (xfuel len) 0 len s with
  | (.wait, s) => s
  | (.fail r, s) =>
    updChunk grp seq c (fun x => { x with
      reading := true, got := [(0, zeros len)], poison := true, cause := causeFrom (trCause r).1 (trCause r).2 }) (forgetSeen purp s)
  | (.ok ps _, s) =>
    let s := updChunk grp seq c (fun x => { x with reading := true }) (forgetSeen purp s)
    let n := ((s.coll grp seq).map (fun k => (k.1.chunk c).restarts)).getD 0
    let r := ps.foldl (fun (r : Nat × State) p =>
      let rd := extRead o.ctx p.2.1 (cva + p.1) p.2.2 (fun off => .purlIn grp seq c n (p.1 + off)) r.2
      let s := holdUse (.purlIn grp seq c n p.1) o.ctx p.2.1 rd.2.2
      (r.1 + rd.1, if rd.2.1 then s else updChunk grp seq c (fun x => { x with
        got := insertPiece (p.1, zeros p.2.2) x.got, poison := true, cause := lostCause s (p.2.1.memAt (cva + p.1)).addr }) s)) (0, s)
    updChunk grp seq c (fun x => { x with reads := r.1 }) r.2

/-- Fold a member's own input into a chunk's rows (R267). -/
def chunkFoldOwn (o : Op) (x : Chunk) : Chunk :=
  let xs := decodeStream o.gauge.inF (joinPieces x.got)
  let rows := if x.rows.isEmpty then xs.map (fun _ => {}) else x.rows
  { x with rows := (rows.zip xs).map (fun p => p.1.fold (pcRed o) p.2), ownIn := true, got := [] }

/-- Write bytes to a chunk's output region. -/
def chunkWrite (grp seq c : Nat) (o : Op) (sq : Nat) (data : List Byte) (s : State) : State :=
  let g := s.group grp
  let cva := o.dst.2 + (pcOut o g.n c).1
  let purp := XPurp.purl grp seq c
  match xlateRange purp (.sq (sq % 65536)) { ctx := o.ctx, cva := cva, len := data.length, kind := .write } (o.stored 3)
      (xfuel data.length) 0 data.length s with
  | (.wait, s) => s
  | (.fail r, s) => chunkFail grp seq c (causeFrom (trCause r).1 (trCause r).2) (updChunk grp seq c (fun x => { x with outGot := true }) (forgetSeen purp s))
  | (.ok ps _, s) =>
    let s := updChunk grp seq c (fun x => { x with outGot := true }) (forgetSeen purp s)
    let r := ps.foldl (fun (r : Nat × Bool × State) p =>
      let w := extWrite o.ctx p.2.1 (cva + p.1) (slice data p.1 p.2.2) (fun _ _ => .purlOut grp seq c) r.2.2
      (r.1 + w.1, r.2.1 && w.2.1, holdUse (.purlOut grp seq c) o.ctx p.2.1 w.2.2)) (0, true, s)
    let s := if r.2.1 then r.2.2 else chunkFail grp seq c caDiePortLost r.2.2
    updChunk grp seq c (fun x => { x with outLeft := r.1, outDone := r.1 == 0 && r.2.1 }) s

/-- Read a chunk's output back for its children (R278). -/
def chunkReadBack (grp seq c : Nat) (o : Op) (sq : Nat) (s : State) : State :=
  let g := s.group grp
  let r0 := pcOut o g.n c
  let cva := o.dst.2 + r0.1
  let purp := XPurp.purl grp seq c
  let lost (cause : Nat) (s : State) : State :=
    chunkFail grp seq c cause (updChunk grp seq c (fun x => { x with backReading := true, down := some (zeros r0.2) }) s)
  match xlateRange purp (.sq (sq % 65536)) { ctx := o.ctx, cva := cva, len := r0.2, kind := .read } [] (xfuel r0.2) 0 r0.2 s with
  | (.wait, s) => s
  | (.fail r, s) => lost (causeFrom (trCause r).1 (trCause r).2) (forgetSeen purp s)
  | (.ok ps _, s) =>
    let s := updChunk grp seq c (fun x => { x with backReading := true, got := [] }) (forgetSeen purp s)
    let r := ps.foldl (fun (r : Nat × Bool × State) p =>
      let rd := extRead o.ctx p.2.1 (cva + p.1) p.2.2 (fun off => .purlBack grp seq c (p.1 + off)) r.2.2
      (r.1 + rd.1, r.2.1 && rd.2.1, holdUse (.purlBack grp seq c p.1) o.ctx p.2.1 rd.2.2)) (0, true, s)
    let s := updChunk grp seq c (fun x => { x with reads := r.1 }) r.2.2
    if !r.2.1 then lost caDiePortLost s
    else if r.1 = 0 then updChunk grp seq c (fun x => { x with down := some [] }) s else s

/-- Whether every earlier partial to the same parent has gone (R277: in (SEQ, c) order). -/
def partialsBefore (g : Group) (s : State) (seq c parent : Nat) : Bool :=
  g.colls.all (fun k =>
    match s.op k.2.sq k.2.idx with
    | none => true
    | some o =>
      let older := decide (0 < (seq + 2 ^ 20 - k.1) % 2 ^ 20) && decide ((seq + 2 ^ 20 - k.1) % 2 ^ 20 < 2 ^ 19)
      if !pcReduces o || o.finished || !(k.1 == seq || older) then true
      else (List.range (if k.1 = seq then c else pcChunks o g.n)).all (fun d =>
        (treeOf g o d).1 != some parent || (k.2.chunk d).sentUp))

/-- Serve a chunk's children (R278): RESULT read back from the own output, or DONE. -/
def chunkServe (grp seq c : Nat) (s : State) : State :=
  match s.coll grp seq with
  | none => s
  | some (k, o) =>
    let g := s.group grp
    let x := k.chunk c
    let kids := (treeOf g o c).2
    let reduces := pcReduces o
    let dataOut := !(pcOp o == 1 || pcOp o == 2)
    let ready (r : Nat) : Bool := !x.sentDown.contains r && (if reduces then x.folded.contains r else hasCredit g r seq c)
    let todo := kids.filter ready
    if todo.isEmpty then s
    else
      let info := purlInfo c 0 (if dataOut then 0 else 1) (pcOp o) (pcRed o)
      let tc := dTc (o.w 0)
      if !dataOut then
        todo.foldl (fun s r => match rankQp g r with
          | some n => updChunk grp seq c (fun x => { x with sentDown := r :: x.sentDown }) (purlSend n 12 grp seq tc info none [] false s)
          | none => s) s
      else
        let len := (pcOut o g.n c).2
        let send (data : List Byte) (s : State) : State :=
          let ply := if o.gauge.ply then some o.gauge.outF else none
          todo.foldl (fun s r => match rankQp g r with
            | some n => updChunk grp seq c (fun x => { x with sentDown := r :: x.sentDown }) (purlSend n 12 grp seq tc info ply data x.failed s)
            | none => s) s
        match x.down with
        | some d => send d s
        | none =>
          if x.failed then send (zeros len) s
          else if x.backReading then s
          else chunkReadBack grp seq c o k.sq s

/-- Take a chunk's next steps (R278). -/
def purlPump (grp seq c : Nat) (s : State) : State :=
  match s.coll grp seq with
  | none => s
  | some (k, o) =>
    let g := s.group grp
    if o.stop.isSome || g.st != .active || !running s then s
    else
      let t := treeOf g o c
      let sw := viaSwitch g o
      let out := pcHasOutput o g.n c g.rank
      let x := k.chunk c
      -- 1. the own input
      let mayRead := pcHasInput o g.n c g.rank && !x.reading && !x.ownIn &&
        (if !pcReduces o || sw then true
          else if t.2.isEmpty then (match t.1 with | some p => hasCredit g p seq c | none => true)
          else x.slot.isSome)
      let s := if mayRead then chunkRead grp seq c o k.sq s else s
      let fold (s : State) : State :=
        match s.coll grp seq with
        | some (k, _) =>
          let x := k.chunk c
          if x.reading && !x.ownIn && x.reads = 0 then
            if pcReduces o && !sw then updChunk grp seq c (chunkFoldOwn o) s else updChunk grp seq c (fun x => { x with ownIn := true }) s
          else s
        | none => s
      let s := fold s
      match s.coll grp seq with
      | none => s
      | some (k, _) =>
        let x := k.chunk c
        let complete := x.ownIn && t.2.all (fun r => x.folded.contains r)
        let first := pcInFirst o g.n c
        let seed := (s.ctx o.ctx).seed
        let gg := o.gauge
        -- 2. the partial, the contribution, or the result
        let s :=
          if sw then
            if x.ownIn && !x.sentUp then
              let data := convertBytes gg.inF g.wireFmt gg.stoch gg.sat seed 0 first (joinPieces x.got)
              let s := updChunk grp seq c (fun x => { x with sentUp := true, got := [] }) s
              purlSend g.aggQpn 11 grp seq (dTc (o.w 0)) (purlInfo c 0 1 (pcOp o) (pcRed o)) none data x.poison s
            else s
          else if pcReduces o then
            match t.1 with
            | some p =>
              if complete && !x.sentUp && hasCredit g p seq c && partialsBefore g s seq c p then
                match rankQp g p with
                | some n =>
                  let data := (x.rows.map (partEncode g.wide gg.inF (pcRed o))).flatten
                  let s := updChunk grp seq c (fun x => { x with sentUp := true }) s
                  purlSend n 11 grp seq (dTc (o.w 0)) (purlInfo c x.upAttempt 0 (pcOp o) (pcRed o)) none data x.poison s
                | none => s
              else s
            | none =>
              if complete && !x.outGot && !x.failed then
                if x.poison then chunkFail grp seq c (if x.cause = 0 then caPoisonReceived else x.cause) s
                else chunkWrite grp seq c o k.sq (purlRound gg seed first (x.rows.map (LongRow.result (pcRed o) (if pcRed o = 3 then g.n else 1)))) s
              else s
          else if t.1.isNone && x.ownIn && !x.outGot && !x.failed then
            if x.poison then chunkFail grp seq c (if x.cause = 0 then caSourcePoison else x.cause) s
            else chunkWrite grp seq c o k.sq (convertBytes gg.inF gg.outF gg.stoch gg.sat seed 0 first (joinPieces x.got)) s
          else s
        -- 3. the children, and the slot
        match s.coll grp seq with
        | none => s
        | some (k, _) =>
          let x := k.chunk c
          let arrived := if out then x.outDone || x.failed else x.outGot
          let s := if arrived then chunkServe grp seq c s else s
          let free := if t.1.isNone then x.outDone || x.failed else x.upAcked
          let s := if free then updChunk grp seq c (fun x => { x with slot := none }) s else s
          collSettle grp seq s

/-- Take the next steps of every chunk of a collective. -/
def purlPumpAll (grp seq : Nat) (s : State) : State :=
  match s.coll grp seq with
  | none => s
  | some (_, o) => (List.range (pcChunks o (s.group grp).n)).foldl (fun s c => purlPump grp seq c s) s

/-- Take the next steps of every collective of a group. -/
def purlPumpGroup (grp : Nat) (s : State) : State :=
  ((s.group grp).colls.map (·.1)).foldl (fun s q => purlPumpAll grp q s) s

/-- Send CREDIT for a chunk to a rank (R277). -/
def sendCredit (grp seq c r : Nat) (o : Op) (s : State) : State :=
  match rankQp (s.group grp) r with
  | some n => purlCtl n grp seq (purlInfo c 0 1 (pcOp o) (pcRed o)) [] s
  | none => s

/-- The parents of a member in a collective's trees. -/
def pcParents (g : Group) (o : Op) : List Nat :=
  ((List.range (pcChunks o g.n)).filterMap (fun c => (treeOf g o c).1)).eraseDups

/-- A collective starts (R261, R277): a gather or broadcast credits every chunk at once. -/
def collStart (sq idx : Nat) (s : State) : State :=
  match s.op sq idx with
  | none => s
  | some o =>
    let grp := pcGroup o
    let seq := pcSeq o
    let g := s.group grp
    let k := pcChunks o g.n
    let chunks : Tab Chunk := if pcReduces o then [] else (List.range k).map (fun c => (c, { credited := true }))
    let s := s.updGroup grp (fun g => { g with nextSeq := g.nextSeq + 1, colls := Tab.put g.colls seq { sq := sq, idx := idx, chunks := chunks } })
    let s := s.updOp sq idx (fun o => { o with stage := .running, work := pcWork o g, finished := k == 0 })
    let s := if pcReduces o || k = 0 then s else (pcParents g o).foldl (fun s r => sendCredit grp seq (k - 1) r o s) s
    purlPumpAll grp seq s

/-! ### Slot assignment and restarts (R277, R283, R284) -/

/-- Started collectives of a group, oldest SEQ first. -/
def collOrder (g : Group) : List Nat :=
  let age (q : Nat) : Nat := (g.nextSeq.toNat + 2 ^ 20 - q) % 2 ^ 20
  (g.colls.map (·.1)).foldl (fun acc q => (acc.takeWhile (fun p => age q ≤ age p)) ++ q :: acc.dropWhile (fun p => age q ≤ age p)) []

/-- A chunk whose accumulation or whose partial is not yet through: it needs its slot (R283). -/
def chunkUnfinished (g : Group) (o : Op) (c : Nat) (x : Chunk) : Bool :=
  if (treeOf g o c).1.isSome then !x.upAcked else !(x.outGot || x.failed)

/-- The next chunk to take a slot: a restarted one first, else the next in (SEQ, c) order. -/
def nextSlotChunk (s : State) (grp : Nat) : Option (Nat × Nat × Bool) :=
  let g := s.group grp
  let look (again : Bool) (q : Nat) : Option (Nat × Nat × Bool) :=
    match s.coll grp q with
    | none => none
    | some (k, o) =>
      if !pcReduces o || viaSwitch g o || o.stop.isSome then none
      else
        ((List.range (pcChunks o g.n)).find? (fun c =>
          let x := k.chunk c
          !(treeOf g o c).2.isEmpty && x.slot.isNone && x.credited == again && (!again || chunkUnfinished g o c x))).map (fun c => (q, c, again))
  match (collOrder g).findSome? (look true) with
  | some r => some r
  | none => (collOrder g).findSome? (look false)

/-- Assign the next slot (R277): CREDIT to every child, or RESTART where the chunk restarts (R283). -/
def slotGive (grp : Nat) (s : State) : Option State :=
  match nextSlotChunk s grp, takeSlot s grp with
  | some (seq, c, again), some slot =>
    match s.coll grp seq with
    | none => none
    | some (_, o) =>
      let g := s.group grp
      let s := updChunk grp seq c (fun x => { x with slot := some slot, credited := true }) s
      let s := (treeOf g o c).2.foldl (fun s r =>
        if again then
          match rankQp g r, (s.coll grp seq).map (fun k => (k.1.chunk c).attempt) with
          | some n, some at_ => purlCtl n grp seq (purlInfo c at_ 2 (pcOp o) (pcRed o)) [] s
          | _, _ => s
        else sendCredit grp seq c r o s) s
      some (purlPump grp seq c s)
  | _, _ => none

/-- Assign slots while there are some. -/
def slotsGive : Nat → Nat → State → State
  | 0, _, s => s
  | fuel + 1, grp, s => match slotGive grp s with | some s => slotsGive fuel grp s | none => s

/-- A chunk's accumulation restarts (R283). -/
def chunkRestart (grp seq c : Nat) (s : State) : State :=
  match s.coll grp seq with
  | none => s
  | some (k, _) =>
    if 8 ≤ (k.chunk c).restarts then groupFail grp 2 (s.group grp).rank false s
    else updChunk grp seq c (fun x => { x with
      slot := none, rows := [], poison := false, reads := 0, reading := false, got := [], ownIn := false, folded := []
      attempt := (x.attempt + 1) % 16, restarts := x.restarts + 1 }) s

/-- The slots that satisfy a test are lost: unfinished chunks restart, the others release theirs (R283, R284). -/
def slotsLost (lost : Nat → Bool) (s : State) : State :=
  s.groups.foldl (fun s g => g.2.colls.foldl (fun s k => k.2.chunks.foldl (fun s c =>
    match c.2.slot with
    | some (n, _) =>
      if !lost n then s
      else
        match s.coll g.1 k.1 with
        | some (_, o) => if chunkUnfinished g.2 o c.1 c.2 then chunkRestart g.1 k.1 c.1 s
          else updChunk g.1 k.1 c.1 (fun x => { x with slot := none }) s
        | none => s
    | none => s) s) s) s

/-! ### Group formation (R257, R258) -/

/-- Send a HELLO to a rank. -/
def sendHello (grp r : Nat) (ask : Bool) (s : State) : State :=
  let g := s.group grp
  match rankQp g r with
  | some n => purlCtl n grp 0 (purlInfo 0 0 0 0 0) (payloadWords [g.fprint.toNat, g.rank + b2n ask * 2 ^ 16]) s
  | none => s

/-- The ranks a member has not heard from. -/
def unheard (g : Group) : List Nat := (List.range g.n).filter (fun r => r != g.rank && !g.heard.contains r)

/-- A HELLO arrives (R257, R258). -/
def helloIn (grp r : Nat) (p : List Byte) (s : State) : State :=
  let g := s.group grp
  let f := beWord p 0
  let q1 := beWord p 1
  let good := f == g.fprint.toNat && bits q1 9 0 == r
  let s :=
    if g.st == .forming then
      if !good then groupFail grp 4 r false s
      else
        let s := s.updGroup grp (fun g => { g with heard := if g.heard.contains r then g.heard else r :: g.heard })
        if (unheard (s.group grp)).isEmpty then setGroup grp (fun g => { g with st := .active }) s else s
    else if good then s else countUnnamed s
  let st := (s.group grp).st
  if bits q1 16 16 = 1 && (st == .forming || st == .active) then sendHello grp r false s else s

/-! ### Arriving packets (R275) -/

/-- What a message of the tree or the aggregation point must be. -/
def purlExpect (g : Group) (o : Op) (c op kind : Nat) : Nat :=
  let cnt := (pcRange o g.n c).2.2
  if op = 11 then cnt * partBytes g.wide o.gauge.inF
  else if kind = 1 then 0
  else if viaSwitch g o then fmtBytes g.wireFmt cnt
  else (pcOut o g.n c).2

/-- A message of a collective is complete at this member: a partial is folded in, a result is here (R278). -/
def purlRecvDone (i : Nat) (s : State) : State :=
  match Tab.get s.trackers i with
  | none => s
  | some t =>
    if !trackerFull t then s
    else
      let grp := t.aux.getD 0 0
      let seq := t.aux.getD 1 0
      let c := t.aux.getD 2 0
      let kind := t.aux.getD 3 0
      let s := closeTracker i s
      -- every message of the peer's sequence is delivered in its order (R162)
      let s := s.updQp t.qpn (fun q => { q with complete := q.complete ++ [{ id := t.msgId, op := t.op }] })
      match s.coll grp seq with
      | none => pumpWork s
      | some (k, o) =>
        let g := s.group grp
        let s :=
          if t.op.toNat = 11 then
            match rankOf g t.qpn with
            | some r => if t.aux.getD 4 0 = (k.chunk c).attempt then
                updChunk grp seq c (fun x => { x with folded := r :: x.folded, poison := x.poison || t.failed }) s else s
            | none => s
          else if kind = 1 then updChunk grp seq c (fun x => { x with outGot := true }) s
          else if t.failed then
            chunkFail grp seq c caPoisonReceived (updChunk grp seq c (fun x => { x with outGot := true }) s)
          else if viaSwitch g o then
            let gg := o.gauge
            let first := pcInFirst o g.n c
            let raw := joinPieces t.store
            let data :=
              if pcRed o ≠ 3 && g.wireFmt = gg.outF then raw
              else purlRound { gg with outF := gg.outF } (s.ctx o.ctx).seed first
                ((decodeStream g.wireFmt raw).map (fun x => if pcRed o = 3 then numDiv x g.n else x))
            chunkWrite grp seq c o k.sq data s
          else updChunk grp seq c (fun x => { x with outGot := true, outDone := true }) s
        pumpWork (purlPump grp seq c s)

/-- Fold a packet's partial elements into a chunk (R267). -/
def foldPart (grp seq c off : Nat) (g : Group) (o : Op) (data : List Byte) (s : State) : State :=
  let z := partBytes g.wide o.gauge.inF
  let xs := (runs z data).map (partDecode g.wide o.gauge.inF)
  updChunk grp seq c (fun x =>
    let rows := if x.rows.isEmpty then List.replicate (pcRange o g.n c).2.2 {} else x.rows
    { x with rows := rows.zipIdx.map (fun p =>
        match (if off / z ≤ p.2 then xs[p.2 - off / z]? else none) with | some v => p.1.fold (pcRed o) v | none => p.1) }) s

/-- Take a member's loss on a mismatch (R275, R285). -/
def purlMismatch (grp seq r : Nat) (s : State) : State :=
  let s := s.updGroup grp (fun g => { g with colls := Tab.adj g.colls seq (fun k => { k with mismatch := true }) })
  groupFail grp 3 r false s

/-- A consumed single-packet message of the peer's sequence that claims no tracker is complete (R162). -/
def consumeWhole (n : Nat) (p : ErtPkt) (s : State) : State :=
  (consume n p s).updQp n (fun q => { q with complete := q.complete ++ [{ id := p.hdr.msgId, op := p.hdr.op }] })

/-- Account a packet that is discarded, in its message's tracker (R160, R275). -/
def consumeStale (n : Nat) (p : ErtPkt) (s : State) : State :=
  match findTracker s n p.hdr.msgId false with
  | some (i, _) => purlRecvDone i (consume n p (account i (otherOff p.hdr p.payload.length) p.payload.length false s))
  | none =>
    if fFirst p.hdr.flags && fLast p.hdr.flags then consumeWhole n p s
    else
      -- a message of several packets needs its tracker to be known complete
      let t : Tracker :=
        { qpn := n, msgId := p.hdr.msgId, op := p.hdr.op, use := .purl, shared := false, slice := (s.ctx (s.qp n).ctx).slice,
          tc := p.hdr.tc.toNat, aux := [4096] }
      match rxTracker t s with
      | none => busyNak n p s
      | some (i, s) =>
        let s := if fFirst p.hdr.flags || fLast p.hdr.flags then learnLen i p.hdr.offsetLen.toNat s else s
        purlRecvDone i (consume n p (account i (otherOff p.hdr p.payload.length) p.payload.length false s))

/-- Whether a collective of a group is over at this member: its SEQ lies behind NEXT_SEQ and it is not among the
started ones. -/
def collOver (g : Group) (seq : Nat) : Bool :=
  let d := (g.nextSeq.toNat + 2 ^ 20 - seq) % 2 ^ 20
  decide (0 < d) && decide (d ≤ 2 ^ 19) && (Tab.get g.colls seq).isNone

/-- What the checks of a PURL_DATA or PURL_RESULT packet come to (R275, R276, R284): it is for work that is over, malformed,
of a collective that differs, or taken. -/
inductive PurlJudge where
  | stale
  | fatal
  | mismatch (rank : Nat)
  | take (data : List Byte)
  deriving DecidableEq, Repr

/-- A result that a switch aggregator sends (R273). -/
def fromSwitch (s : State) (n : Nat) (p : ErtPkt) : Bool :=
  let g := s.group (fld p.hdr.window 31 20)
  g.switch && n == g.aggQpn && p.hdr.op.toNat == 12 && fld p.hdr.imm 26 24 == 0

/-- The checks of a PURL_DATA or PURL_RESULT packet (R275). -/
def purlJudge (s : State) (n : Nat) (p : ErtPkt) : PurlJudge :=
  let h := p.hdr
  let op := h.op.toNat
  let grp := fld h.window 31 20
  let seq := fld h.window 19 0
  let c := fld h.imm 19 0
  let attempt := fld h.imm 23 20
  let kind := fld h.imm 26 24
  let cop := fld h.imm 29 27
  let g := s.group grp
  let agg := fromSwitch s n p
  let rank := rankOf g n
  let field := 1 < kind || 4 < cop || (attempt ≠ 0 && !(op == 11 && kind == 0)) || fImm h.flags || fEce h.flags || (op == 11 && kind == 1)
  if g.st == .free || g.st == .draining || g.st == .failed then .stale
  else if field || (rank.isNone && !agg) then .fatal
  else if g.st != .active || collOver g seq then .stale
  else
    match s.coll grp seq with
    | none => .fatal
    | some (k, o) =>
      let x := k.chunk c
      let t := treeOf g o c
      let good :=
        decide (c < pcChunks o g.n) &&
        (if op = 11 then (match rank with | some r => t.2.contains r | none => false) && x.credited
         else if agg && viaSwitch g o then pcHasOutput o g.n c g.rank
         else t.1.isSome && t.1 == rank && (if pcReduces o then x.sentUp else x.credited))
      let want := purlExpect g o c op kind
      let lenBad := (fFirst h.flags || fLast h.flags) && h.offsetLen.toNat ≠ want
      let kindBad := op = 12 && !agg && (kind = 1) != (pcOp o == 1 || pcOp o == 2)
      if !good then .fatal
      else if op = 11 && attempt ≠ x.attempt then .stale
      else if cop ≠ pcOp o || fld h.imm 31 30 ≠ pcRed o || lenBad || kindBad then .mismatch (rank.getD 0x3FF)
      else
        match rxPayload p with
        | none => .fatal
        | some (data, short) =>
          if (short && !fLast h.flags) || want < otherOff h data.length + data.length then .fatal else .take data

/-- The tracker of a Purl message. -/
def purlTracker (n : Nat) (p : ErtPkt) (s : State) : Tracker :=
  let h := p.hdr
  { newTracker n p h.op .purl s with
    ply := fPly h.flags, aux := [fld h.window 31 20, fld h.window 19 0, fld h.imm 19 0, fld h.imm 26 24, fld h.imm 23 20] }

/-- A Purl packet that passed its checks: a partial is folded in, a switch's result is gathered, a result is placed. -/
def purlInto (n : Nat) (p : ErtPkt) (i : Nat) (o : Op) (data : List Byte) (s : State) : State :=
  let h := p.hdr
  let op := h.op.toNat
  let grp := fld h.window 31 20
  let seq := fld h.window 19 0
  let c := fld h.imm 19 0
  let g := s.group grp
  let len := data.length
  let off := otherOff h len
  let s := if fFirst h.flags || fLast h.flags then learnLen i (purlExpect g o c op (fld h.imm 26 24)) s else s
  if h.poison then purlRecvDone i (poisoned n p i off len s)
  else if op = 11 then
    purlRecvDone i (consume n p (account i off len false (foldPart grp seq c off g o data s)))
  else if fromSwitch s n p then
    let s := updTracker i (fun t => { t with store := insertPiece (off, data) t.store }) s
    purlRecvDone i (consume n p (account i off len false s))
  else
    let dst := o.dst.2 + (pcOut o g.n c).1
    purlRecvDone i (place n p i off len o.ctx none .target (if len = 0 then [] else [(dst + off, data)]) s)

/-- A NEW PURL_DATA or PURL_RESULT packet (R275). -/
def rxPurlData (p : ErtPkt) (s : State) : State :=
  rxNew p (fun n _ s =>
    let grp := fld p.hdr.window 31 20
    let seq := fld p.hdr.window 19 0
    match purlJudge s n p, s.coll grp seq with
    | .stale, _ => consumeStale n p (countUnnamed s)
    | .mismatch r, _ => purlMismatch grp seq r (consumeStale n p s)
    | .take data, some (_, o) =>
      (match trackerFor n p (purlTracker n p s) s with
        | none => busyNak n p s
        | some (i, s) => purlInto n p i o data s)
    | _, _ => fatalNak n p 38 s) s

/-- A PURL_CTRL message's effect, once it is accepted (R257, R277, R283, R285). -/
def purlCtlIn (n grp seq kind c attempt : Nat) (payload : List Byte) (s : State) : State :=
  let g := s.group grp
  match rankOf g n with
  | none => s
  | some r =>
    match kind with
    | 0 => purlPumpGroup grp (helloIn grp r payload s)
    | 1 =>
      let v := seq * 2 ^ 20 + c + 1
      let old := Tab.getD g.credit r 0
      let s := if old ≠ 0 && creditCovers old seq c then s else s.updGroup grp (fun g => { g with credit := Tab.put g.credit r v })
      purlPumpGroup grp s
    | 2 =>
      match s.coll grp seq with
      | none => s
      | some (k, o) =>
        if (treeOf g o c).1 != some r || !pcReduces o then s
        else
          let x := k.chunk c
          let s := updChunk grp seq c (fun x => { x with upAttempt := attempt, upAcked := false }) s
          let s :=
            if !x.sentUp then s
            else if (treeOf g o c).2.isEmpty || x.slot.isSome then updChunk grp seq c (fun x => { x with sentUp := false }) s
            else chunkRestart grp seq c (updChunk grp seq c (fun x => { x with sentUp := false }) s)
          purlPump grp seq c s
    | _ => if g.st == .active then groupFail grp (bits (beWord payload 0) 15 12) (bits (beWord payload 0) 9 0) true s else s

/-- Whether a PURL_CTRL packet is malformed (R275). -/
def ctlBad (p : ErtPkt) : Bool :=
  let h := p.hdr
  let kind := fld h.imm 26 24
  let cop := fld h.imm 29 27
  let size := match kind with | 0 => 16 | 3 => 8 | _ => 0
  3 < kind || 4 < cop || (fld h.imm 23 20 ≠ 0 && kind ≠ 2) || ((kind == 0 || kind == 3) && fld h.imm 19 0 ≠ 0) ||
    (kind == 0 && (cop ≠ 0 || fld h.imm 31 30 ≠ 0 || fld h.window 19 0 ≠ 0)) || fImm h.flags || fEce h.flags ||
    !(fFirst h.flags && fLast h.flags) || p.payload.length ≠ size || h.offsetLen.toNat ≠ size || h.poison

/-- Whether a group takes no packets any more (R258, R284). -/
def groupOver (g : Group) : Bool := g.st == .free || g.st == .draining || g.st == .failed

/-- A NEW PURL_CTRL packet of the kind that its command names (R275). -/
def rxPurlCtl (p : ErtPkt) (s : State) : State :=
  rxNew p (fun n _ s =>
    let h := p.hdr
    let grp := fld h.window 31 20
    let g := s.group grp
    if groupOver g then consumeWhole n p (countUnnamed s)
    else if ctlBad p || (rankOf g n).isNone then fatalNak n p 38 s
    else purlCtlIn n grp (fld h.window 19 0) (fld h.imm 26 24) (fld h.imm 19 0) (fld h.imm 23 20) p.payload (consumeWhole n p s)) s

/-! ### Answers (R278) -/

/-- A read of a chunk's input, or of its output, returns; one that an earlier run of a restarted chunk asked for is dropped. -/
def purlReadDone (grp seq c off : Nat) (back : Bool) (restart : Nat) (a : Answer) (s : State) : State :=
  match s.coll grp seq with
  | none => s
  | some (k, o) =>
    let x := k.chunk c
    if (!back && x.restarts ≠ restart) || x.reads = 0 || (back && !x.backReading) || (!back && (!x.reading || x.ownIn)) then s
    else
      let s := updChunk grp seq c (fun x =>
        let x := { x with reads := x.reads - 1 }
        match a with
        | .data bs => { x with got := insertPiece (off, bs) x.got }
        | .poison n cause => { x with got := insertPiece (off, zeros n) x.got, poison := true, cause := if x.cause = 0 then cause else x.cause, failed := x.failed || back }
        | .failed cause src _ => { x with poison := true, cause := if x.cause = 0 then causeFrom cause src else x.cause, failed := x.failed || back }) s
      let s :=
        if back && x.reads ≤ 1 then
          updChunk grp seq c (fun x => { x with down := some (slice (joinPieces x.got) 0 (pcOut o (s.group grp).n c).2), got := [] }) s
        else if !back && x.reads ≤ 1 then
          -- what could not be read stands as zeros in a poisoned chunk
          updChunk grp seq c (fun x => if x.poison then { x with got := [(0, zeros (fmtBytes o.gauge.inF (pcRange o (s.group grp).n c).2.2))] } else x) s
        else s
      purlPump grp seq c s

/-- A write of a chunk's output is acknowledged, or refused. -/
def purlWriteDone (grp seq c cause : Nat) (s : State) : State :=
  match s.coll grp seq with
  | none => s
  | some (k, _) =>
    let x := k.chunk c
    if x.outLeft = 0 then s
    else
      let s := if cause = 0 then s else chunkFail grp seq c cause s
      let s := updChunk grp seq c (fun x => { x with outLeft := x.outLeft - 1, outDone := x.outLeft ≤ 1 && !x.failed }) s
      purlPump grp seq c s

/-- A Purl message of this member is acknowledged (R279). -/
def purlMsgDone (qpn grp seq : Nat) (m : Msg) (s : State) : State :=
  let info := (m.pkts.headD { off := 0, len := 0, offLen := 0, payload := [] }).imm
  let c := fld info 19 0
  let attempt := fld info 23 20
  match s.coll grp seq with
  | none => s
  | some (k, _) =>
    let g := s.group grp
    let s :=
      match m.op.toNat with
      | 11 => if attempt = (k.chunk c).upAttempt then updChunk grp seq c (fun x => { x with upAcked := true }) s else s
      | 12 => match rankOf g qpn with
        | some r => updChunk grp seq c (fun x => { x with ackDown := if x.ackDown.contains r then x.ackDown else r :: x.ackDown }) s
        | none => s
      | _ => s
    if m.op.toNat = 13 then s else purlPump grp seq c s

/-- A collective leaves its group once its completion is formed. -/
def collEnd (sq idx : Nat) (o : Op) (s : State) : State :=
  s.updGroup (pcGroup o) (fun g => { g with colls := g.colls.filter (fun k => !(k.2.sq == sq && k.2.idx == idx)) })

end Sys2Proof.Machine
end

