-- ==== Sys2Proof/Machine/Roce.lean ====
section
/-! DEFINITION. The receive side of RoCEv2 (R182, R183, R204-R206): requests in order, responses, retries, congestion
notification, priority flow control, connection-management datagrams, and discarded frames. -/

namespace Sys2Proof.Machine

/-! ### Priority flow control (R206) -/

/-- The class charged with a RoCEv2 packet (R187). -/
def roceClass (s : State) (dscp : BitVec 6) : Nat := ((List.range 8).find? (fun t => tcDscpOf s t == dscp.toNat)).getD 7

/-- Send a PFC frame on a logical port (R206). -/
def sendPfc (lp : Nat) (pause : Bool) (s : State) : State :=
  let s := s.updLport lp (fun l => { l with pauseSent := pause })
  egressPut lp { kind := .control, tc := 7, bytes := 64, frame := .pfc s.pfcPrio pause } (if pause then count 523 2 s else s)

/-- The logical ports that share a port's receive buffer. -/
def bufferLps (n : Nat) : List Nat := (List.range 8).map (8 * n + ·)

/-- Bytes of RoCEv2 TC7 in a port's receive buffer. -/
def portFill (s : State) (n : Nat) : Nat := ((bufferLps n).map (fun l => (s.lport l).roceFill)).foldl (· + ·) 0

/-- The receive buffer of a port for RoCEv2 TC7 fills or drains: pause at XOFF, resume at XON, on each of its sub-ports that is
up (R206). -/
def rxFill (lp : Nat) (f : Nat → Nat) (s : State) : State :=
  let s := s.updLport lp (fun l => { l with roceFill := f l.roceFill })
  let n := lpPort lp
  if !pfcOn s n then s
  else
    let x := portFill s n
    let tell (pause : Bool) (s : State) : State :=
      ((bufferLps n).filter (fun l => lportUp s l && (s.lport l).pauseSent != pause)).foldl (fun s l => sendPfc l pause s) s
    if s.xoff * 1024 ≤ x then tell true s else if x ≤ s.xon * 1024 then tell false s else s

/-- What a packet takes of its port's receive buffer: TC7 packets on a port with priority flow control. -/
def roceFillOf (s : State) (p : RocePkt) : Option (Nat × Nat) :=
  if pfcOn s (lpPort p.lport) && roceClass s p.dscp == 7 && !p.payload.isEmpty then some (p.lport, p.payload.length) else none

/-- Whether a port's 1 MiB receive buffer has no room for a packet (R203, R206). -/
def roceNoRoom (s : State) (p : RocePkt) : Bool :=
  match roceFillOf s p with | some (lp, n) => decide (2 ^ 20 < portFill s (lpPort lp) + n) | none => false

/-- Take room in the receive buffer. -/
def fillIn (f : Option (Nat × Nat)) (s : State) : State := match f with | some (lp, n) => rxFill lp (· + n) s | none => s
/-- Give it back. -/
def fillOut (f : Option (Nat × Nat)) (s : State) : State := match f with | some (lp, n) => rxFill lp (· - n) s | none => s

/-! ### Answers of the responder (R182) -/

/-- Send a response packet of a QP, in the class of the packet that it answers (R185, R187). -/
def roceReply (qpn tc : Nat) (k : RoceKind) (psn : BitVec 24) (s : State) : State :=
  roceQueue qpn tc (rocePkt s (s.qp qpn) tc k psn []) s

/-- Change the RoCEv2 side of a QP. -/
def updRoce (qpn : Nat) (f : RoceSt → RoceSt) (s : State) : State := s.updQp qpn (fun q => q.updRoce f)

/-- Refuse a request fatally: the standard's NAK, and the receiving QP enters ERROR (R176). -/
def roceFatal (qpn tc : Nat) (k : RoceKind) (psn : BitVec 24) (s : State) : State := qpError qpn 6 none (roceReply qpn tc k psn s)

/-- The invalid-request and remote-access-error NAKs, with their syndromes (the RoCEv2 standard's; PRESUMED, log 19). -/
def nakInv : RoceKind := .nakInvalid 0x61
def nakAcc : RoceKind := .nakAccess 0x62

/-- Answer Receiver Not Ready: timer code 1, 10 µs, is the smallest that covers 8 µs (R182; PRESUMED, log 19). -/
def sendRnr (qpn tc : Nat) (psn : BitVec 24) (s : State) : State := roceReply qpn tc (.rnrNak 1) psn s

/-- Post a RoCEv2 receive completion (R163, R182); its immediate is offered as a trigger tag once the record is written (R184).
MSG_ID holds the message number (log 23). -/
def rocePost (qpn : Nat) (w : RoceWork) (s : State) : State :=
  match w.post with
  | some (len, imm) => postRecv qpn len false imm w.msn imm s
  | none => s

/-- The READ responses of a gathered request. -/
def readResps (s : State) (q : Qp) (w : RoceWork) : List RocePkt :=
  let data := joinPieces w.got
  let n := max 1 (ceilDiv data.length q.payloadMax)
  (List.range n).map (fun k =>
    rocePkt s q w.tc (.readResp (k + 1 == n)) (w.psn + BitVec.ofNat 24 k) ((data.drop (k * q.payloadMax)).take q.payloadMax))

/-- Finish the oldest request of a QP whose work is done: its completion and its answer. For a request that fails at memory (a
target error, poison, a fault resolved with FAIL) the spec gives RoCEv2 no answer: the model sends the remote-access-error NAK
and the QP enters ERROR (DESIGN CHOICE, log 131). -/
def roceFinish (qpn : Nat) (w : RoceWork) (s : State) : State :=
  let s := fillOut w.fill s
  if w.failed then roceFatal qpn w.tc nakAcc w.psn s
  else
    match w.kind with
    | .readReq => (readResps s (s.qp qpn) w).foldl (fun s p => roceQueue qpn w.tc p s) s
    | .fetchAdd => roceQueue qpn w.tc { rocePkt s (s.qp qpn) w.tc .atomicAck w.psn [] with swapAdd := w.old } s
    | .cmpSwap => roceQueue qpn w.tc { rocePkt s (s.qp qpn) w.tc .atomicAck w.psn [] with swapAdd := w.old } s
    | _ => roceReply qpn w.tc .ack w.psn (rocePost qpn w (countBy (s.ctx (s.qp qpn).ctx).slice 15 w.len s))

/-- Change a request of a QP by its PSN. -/
def updWork (qpn : Nat) (psn : BitVec 24) (f : RoceWork → RoceWork) (s : State) : State :=
  updRoce qpn (fun r => { r with work := r.work.map (fun w => if w.psn == psn then f w else w) }) s

/-- Begin a READ (R182): its range is read from the window. -/
def roceRead (qpn : Nat) (p : RocePkt) (s : State) : State :=
  let w := s.win (winIndex p.rkey)
  let len := p.dmaLen.toNat
  let a := reqAcc s .read w p.va.toNat len
  match xlateParts (.roce qpn) (.qp qpn) a (len / 33554432 + 3) 0 len s with
  | (none, s) => s
  | (some ps, s) =>
    let s := updWork qpn p.psn (fun w => { w with pkt := none }) (forgetSeen (.roce qpn) s)
    let r := ps.foldl (fun (r : Nat × Bool × State) x =>
      match x.2.1 with
      | none => (r.1, false, r.2.2)
      | some e =>
        let d := extRead a.ctx e (a.cva + x.1) x.2.2 (fun off => .roceRead qpn p.psn (x.1 + off) x.2.2) r.2.2
        (r.1 + d.1, r.2.1 && d.2.1, d.2.2)) (0, true, s)
    updWork qpn p.psn (fun w => { w with left := r.1, failed := w.failed || !r.2.1 }) r.2.2

/-- Begin an atomic (R182): at device memory by the die link, at host memory where AtomicOps are enabled. Where they are not,
RoCEv2 has no answer UNSUPPORTED_ON_TARGET (R25) and the spec names none: the request fails as `roceFinish` says (DESIGN
CHOICE, log 130). -/
def roceAtomic (qpn : Nat) (p : RocePkt) (s : State) : State :=
  let w := s.win (winIndex p.rkey)
  let a := reqAcc s .atomic w p.va.toNat 8
  let bad (s : State) : State := updWork qpn p.psn (fun w => { w with pkt := none, failed := true }) s
  match translateOr (.roce qpn) (.qp qpn) a s with
  | (.wait, s) => s
  | (.fail _, s) => bad (forgetSeen (.roce qpn) s)
  | (.ok e, s) =>
    let s := forgetSeen (.roce qpn) s
    let add := match p.kind with | .fetchAdd => true | _ => false
    let dop := if add then 1 else 6
    let oa := if add then p.swapAdd.setWidth 128 else p.compare.setWidth 128
    let ob := if add then 0 else p.swapAdd.setWidth 128
    let pp := Purpose.roceAtomic qpn p.psn
    let m := e.memAt a.cva
    let go (s : State) : State := updWork qpn p.psn (fun w => { w with pkt := none, left := 1 }) s
    match e.target with
    | .hbm =>
      match memAtomic a.ctx m.addr 8 dop oa ob pp s with
      | some s => holdUse pp a.ctx e (go s)
      | none => bad s
    | .host =>
      let sl := (s.ctx a.ctx).slice
      let l := (s.slice sl).link
      if !(s.link l).atomicEn then bad s
      else
        holdUse pp a.ctx e (hostRequest l
          { purp := pp, addr := m.addr, len := 8, slice := some sl, since := s.ticks, aop := some (dop, oa, ob) } (go s))
    | _ => bad s

/-- Go on with a QP's requests in order, as many as `fuel`: finish what is done, begin what has come to the front. -/
def roceGoOn : Nat → Nat → State → State
  | 0, _, s => s
  | fuel + 1, qpn, s =>
    match (s.qp qpn).roce.work with
    | [] => s
    | w :: rest =>
      match w.pkt with
      | some p =>
        let s := match p.kind with | .readReq => roceRead qpn p s | _ => roceAtomic qpn p s
        if ((s.qp qpn).roce.work.head?.map (fun x => x.pkt.isNone && x.left == 0)).getD false then roceGoOn fuel qpn s else s
      | none =>
        if w.left ≠ 0 then s
        else
          let keep (r : RoceSt) : List (BitVec 24 × Word) :=
            match w.kind with
            | .fetchAdd => ((w.psn, w.old) :: r.atoms).take 16
            | .cmpSwap => ((w.psn, w.old) :: r.atoms).take 16
            | _ => r.atoms
          roceGoOn fuel qpn (roceFinish qpn w (updRoce qpn (fun r => { r with work := rest, atoms := keep r }) s))

/-- Go on with all of a QP's requests. -/
def roceFlush (qpn : Nat) (s : State) : State := roceGoOn (2 * (s.qp qpn).roce.work.length + 1) qpn s

/-! ### Requests in order (R182) -/

/-- Accept a request: PSN, message number and the entry of its work. -/
def roceAccept (qpn : Nat) (span : Nat) (last : Bool) (w : RoceWork) (f : RoceSt → RoceSt) (s : State) : State :=
  countRx qpn (updRoce qpn (fun r =>
    let m := if last then r.msn + 1 else r.msn
    f { r with expect := r.expect + BitVec.ofNat 24 span, nakSent := false, msn := m, work := r.work ++ [{ w with msn := m }] }) s)

/-- Hold a request until its translation is known, or answer RNR at once where R173 would not hold it. -/
def roceHold (qpn : Nat) (p : RocePkt) (s : State) : State :=
  let purp := XPurp.roce qpn
  if latchedUp s purp || (faulted s purp && decide (64 ≤ heldBy s (s.qp qpn).needle)) then
    sendRnr qpn (roceClass s p.dscp) p.psn (fillOut (roceFillOf s p) (unlatch purp s))
  else updRoce qpn (fun r => { r with held := r.held ++ [(p, s.ticks)] }) s

/-- Place the bytes of a request and accept it. -/
def rocePlace (qpn : Nat) (p : RocePkt) (ctx : Nat) (remote : Option Nat) (cva : Nat) (last : Bool)
    (post : Option (Nat × Option (BitVec 32))) (f : RoceSt → RoceSt) (s : State) : State :=
  let purp := XPurp.roce qpn
  let a : Acc := { ctx := ctx, cva := 0, kind := .write, remote := remote }
  let fill := roceFillOf s p
  match xlatePieces purp (.qp qpn) a (if p.payload.isEmpty then [] else [(cva, p.payload)]) s with
  | (.wait, _, s) => roceHold qpn p s
  | (.fail _, _, s) => roceFatal qpn (roceClass s p.dscp) nakAcc p.psn (fillOut fill (forgetSeen purp s))
  | (.ok _ _, ps, s) =>
    let pp := Purpose.rocePlace qpn p.psn
    let s := roceAccept qpn 1 last
      { psn := p.psn, kind := p.kind, tc := roceClass s p.dscp, len := p.payload.length, post := post, fill := fill } f
      (forgetSeen purp s)
    let r := ps.foldl (fun (r : Nat × Bool × State) x =>
      let w := extWrite ctx x.1 x.2.1 x.2.2 (fun _ _ => pp) r.2.2
      (r.1 + w.1, r.2.1 && w.2.1, holdUse pp ctx x.1 w.2.2)) (0, true, s)
    roceFlush qpn (updWork qpn p.psn (fun w => { w with left := r.1, failed := !r.2.1 }) r.2.2)

/-- A request without bytes of its own: its translation is tried first, so that a page that is not resident holds
it; then it waits its turn. -/
def roceQueueReq (qpn : Nat) (p : RocePkt) (k : ReqKind) (len span : Nat) (s : State) : State :=
  let w := s.win (winIndex p.rkey)
  match winCheck s qpn p.rkey k [(p.va.toNat, len)] none with
  | some _ => roceFatal qpn (roceClass s p.dscp) nakAcc p.psn s
  | none =>
    match xlateParts (.roce qpn) (.qp qpn) (reqAcc s k w p.va.toNat len) (len / 33554432 + 3) 0 len s with
    | (none, s) => roceHold qpn p s
    | (some _, s) =>
      roceFlush qpn (roceAccept qpn span true { psn := p.psn, kind := p.kind, tc := roceClass s p.dscp, pkt := some p, len := len } id
        (forgetSeen (.roce qpn) s))

/-- A request at the expected PSN (R182). A SEND with RX_MO 0 or longer than its slot, and a WRITE with immediate with RX_MO 0,
for which the spec gives RoCEv2 no answer, get the invalid-request NAK (DESIGN CHOICE, log 132). -/
def roceNext (qpn : Nat) (p : RocePkt) (s : State) : State :=
  let q := s.qp qpn
  let r := q.roce
  let n := p.payload.length
  let fill := roceFillOf s p
  let tc := roceClass s p.dscp
  let inv : State := roceFatal qpn tc nakInv p.psn (fillOut fill s)
  let rnr : State := sendRnr qpn tc p.psn (fillOut fill s)
  let free := rxSlotFree s q (BitVec.ofNat 32 r.ringNext)
  match p.kind with
  | .send last imm =>
    let slot := r.inSend.getD (r.ringNext, 0)
    let room := rxSlot s q (BitVec.ofNat 32 slot.1)
    if r.inWrite.isSome || q.rxMo = 0 || decide (room.2 < slot.2 + n) then inv
    else if r.inSend.isNone && !free then rnr
    else
      rocePlace qpn p q.ctx none (room.1 + slot.2) last
        (if last then some (slot.2 + n, if imm then some p.imm else none) else none)
        (fun r => { r with
          inSend := if last then none else some (slot.1, slot.2 + n)
          ringNext := if slot.2 = 0 && r.inSend.isNone then r.ringNext + 1 else r.ringNext }) s
  | .write first last imm =>
    if r.inSend.isSome || (first == r.inWrite.isSome) || (imm && q.rxMo = 0) then inv
    else if imm && !free then rnr
    else
      let x := if first then (p.rkey, p.va.toNat, 0) else r.inWrite.getD (0, 0, 0)
      let ranges := [(x.2.1, n)] ++ (if first then [(p.va.toNat, p.dmaLen.toNat)] else [])
      match winCheck s qpn x.1 .write ranges none with
      | some _ => roceFatal qpn tc nakAcc p.psn (fillOut fill s)
      | none =>
        let w := s.win (winIndex x.1)
        rocePlace qpn p (winCtx s w) (some 3) (winCva s w x.2.1) last
          (if last && imm then some (x.2.2 + n, some p.imm) else none)
          (fun r => { r with
            inWrite := if last then none else some (x.1, x.2.1 + n, x.2.2 + n)
            ringNext := if imm then r.ringNext + 1 else r.ringNext }) s
  | .readReq => roceQueueReq qpn p .read p.dmaLen.toNat (max 1 (ceilDiv p.dmaLen.toNat q.payloadMax)) s
  | .fetchAdd => if p.va.toNat % 8 ≠ 0 then inv else roceQueueReq qpn p .atomic 8 1 s
  | .cmpSwap => if p.va.toNat % 8 ≠ 0 then inv else roceQueueReq qpn p .atomic 8 1 s
  | _ => inv

/-- A request packet in the standard's order: expected, a duplicate, or after a gap. -/
def roceTake (qpn : Nat) (p : RocePkt) (s : State) : State :=
  let r := (s.qp qpn).roce
  let d := (p.psn - r.expect).toNat
  let tc := roceClass s p.dscp
  if d = 0 then roceNext qpn p s
  else
    let s := fillOut (roceFillOf s p) s
    if d < 2 ^ 23 then
      if r.nakSent then s
      else roceReply qpn tc .nakSequence r.expect (updRoce qpn (fun r => { r with nakSent := true }) s)
    else
      let s := count (s.ctx (s.qp qpn).ctx).slice 18 s
      match p.kind with
      | .readReq =>
        match winCheck s qpn p.rkey .read [(p.va.toNat, p.dmaLen.toNat)] none with
        | some _ => roceFatal qpn tc nakAcc p.psn s
        | none =>
          if r.work.any (fun w => w.psn == p.psn) then s
          else roceFlush qpn (updRoce qpn (fun r => { r with
            work := r.work ++ [{ psn := p.psn, kind := p.kind, tc := tc, pkt := some p, len := p.dmaLen.toNat }] }) s)
      | .fetchAdd | .cmpSwap =>
        match r.atoms.find? (fun a => a.1 == p.psn) with
        | some a => roceQueue qpn tc { rocePkt s (s.qp qpn) tc .atomicAck p.psn [] with swapAdd := a.2 } s
        | none => s
      | _ => if r.work.isEmpty then roceReply qpn tc .ack (r.expect - 1) s else s

/-- Give up the packets that a QP holds: an RNR NAK names the first of them, and all come again (R182). -/
def roceUnhold (qpn : Nat) (s : State) : State :=
  match (s.qp qpn).roce.held with
  | [] => s
  | (p, t) :: rest =>
    let s := ((p, t) :: rest).foldl (fun s h => fillOut (roceFillOf s h.1) s) s
    sendRnr qpn (roceClass s p.dscp) p.psn (forgetSeen (.roce qpn) (updRoce qpn (fun r => { r with held := [] }) s))

/-- A request packet: it queues behind packets that are held; where the needle's 64 places for held packets are taken, the held
ones are given up at once with it, since an RNR NAK of a later PSN would acknowledge them (R173, R182; DESIGN CHOICE, log 129). -/
def roceRequest (qpn : Nat) (p : RocePkt) (s : State) : State :=
  let s := fillIn (roceFillOf s p) s
  if (s.qp qpn).roce.held.isEmpty then roceTake qpn p s
  else if 64 ≤ heldBy s (s.qp qpn).needle then roceUnhold qpn (fillOut (roceFillOf s p) s)
  else updRoce qpn (fun r => { r with held := r.held ++ [(p, s.ticks)] }) s

/-- The translation of a held request has moved on: held packets are taken again in order, until one is held anew. -/
def roceResume (qpn : Nat) (s : State) : State :=
  let hs := (s.qp qpn).roce.held
  let s := updRoce qpn (fun r => { r with held := [] }) s
  let s := hs.foldl (fun s h =>
    if (s.qp qpn).roce.held.isEmpty then roceTake qpn h.1 s
    else updRoce qpn (fun r => { r with held := r.held ++ [h] }) s) s
  roceFlush qpn s

/-- A held RoCEv2 packet has waited 8 µs for its page: RNR NAK; what queued behind it is dropped and comes again
(R182). -/
def rocePageHeld (qpn : Nat) (psn : BitVec 24) (s : State) : State :=
  match (s.qp qpn).roce.held with
  | [] => s
  | (p, _) :: _ => if p.psn != psn || !faulted s (.roce qpn) || !running s then s else roceUnhold qpn s

/-- Placement, READ or atomic answers of a request's memory. -/
def roceAnswer (qpn : Nat) (psn : BitVec 24) (off : Nat) (a : Answer) (s : State) : State :=
  let s := updWork qpn psn (fun w =>
    let w := { w with left := w.left - 1 }
    match a with
    | .data bs =>
      (match w.kind with
        | .readReq => { w with got := insertPiece (off, bs) w.got }
        | .fetchAdd => { w with old := BitVec.ofNat 64 (ofLe (bs.take 8)) }
        | .cmpSwap => { w with old := BitVec.ofNat 64 (ofLe (bs.take 8)) }
        | _ => w)
    | _ => { w with failed := true }) s
  pumpWork (roceFlush qpn s)

/-! ### Responses at the requester (R182) -/

/-- The last PSN of a request. -/
def roceLast (o : RoceOut) : BitVec 24 := o.pkt.psn + BitVec.ofNat 24 (o.span - 1)

/-- Whether a request is answered by data rather than by an ACK. -/
def roceWantsData (o : RoceOut) : Bool :=
  match o.pkt.kind with | .readReq => true | .fetchAdd => true | .cmpSwap => true | _ => false

/-- Complete up to `fuel` unacknowledged requests that an ACK of a PSN covers. -/
def roceAckGo : Nat → Nat → BitVec 24 → State → State
  | 0, _, _, s => s
  | fuel + 1, qpn, psn, s =>
    match (s.qp qpn).roce.unacked with
    | [] => s
    | o :: rest =>
      if roceWantsData o || decide (2 ^ 23 ≤ (psn - roceLast o).toNat) then s
      else
        let s := updRoce qpn (fun r => { r with unacked := rest, retries := 0, rnrRetries := 0, sndUna := roceLast o + 1 }) s
        let s := match o.owner with | some (a, b, e) => extMsgDone a b e s | none => s
        roceAckGo fuel qpn psn s

/-- Complete the unacknowledged requests that an ACK of a PSN covers. -/
def roceAckTo (qpn : Nat) (psn : BitVec 24) (s : State) : State := roceAckGo (s.qp qpn).roce.unacked.length qpn psn s

/-- The operation that owns the oldest unacknowledged packet. -/
def roceOwner (q : Qp) : Option (Nat × Nat) :=
  ((q.roce.unacked ++ q.roce.queue).findSome? (·.owner)).map (fun k => (k.1, k.2.1))

/-- Send every unacknowledged packet again: go-back-N. -/
def roceGoBack (qpn : Nat) (s : State) : State :=
  pumpRoce qpn (updRoce qpn (fun r => { r with queue := r.unacked ++ r.queue, unacked := [], rnrWait := false }) s)

/-- One retry, or ERROR with ROCE_RETRY where none is left; 7 is unlimited (R182). -/
def roceRetry (qpn : Nat) (s : State) : State :=
  let q := s.qp qpn
  if q.roce.maxRetry ≠ 7 && q.roce.maxRetry ≤ q.roce.retries then
    qpError qpn 9 ((roceOwner q).map (fun k => (k.1, k.2, stTransport, 9))) s
  else roceGoBack qpn (updRoce qpn (fun r => { r with retries := r.retries + 1 }) s)

/-- The request that a response's PSN belongs to. -/
def roceFor (q : Qp) (psn : BitVec 24) : Option RoceOut :=
  q.roce.unacked.find? (fun o => roceWantsData o && decide ((psn - o.pkt.psn).toNat < o.span))

/-- A request was answered. -/
def roceAnswered (qpn : Nat) (o : RoceOut) (s : State) : State :=
  updRoce qpn (fun r => { r with unacked := r.unacked.erase o, retries := 0, rnrRetries := 0, sndUna := roceLast o + 1 }) s

/-- A READ response arrives: its bytes gather in the extent, whose next READ is sent once this one is whole, and which is
written out once all are (R182). -/
def roceReadResp (qpn : Nat) (p : RocePkt) (s : State) : State :=
  let s := roceAckTo qpn (p.psn - 1) s
  match roceFor (s.qp qpn) p.psn with
  | some o =>
    match o.owner with
    | none => s
    | some (a, b, e) =>
      let k := (p.psn - o.pkt.psn).toNat
      match s.op a b with
      | none => roceAnswered qpn o s
      | some op =>
        let x := op.ext e
        let from_ := o.pkt.va.toNat - op.remoteOff - x.off
        let off := from_ + k * (s.qp qpn).payloadMax
        let have_ := (x.got.filter (fun g => decide (from_ ≤ g.1 ∧ g.1 < from_ + o.pkt.dmaLen.toNat))).length
        if x.st != .sending then roceAnswered qpn o s
        else if x.got.any (fun g => g.1 == off) then s
        else
          let s := updExt a b e (fun x => { x with got := insertPiece (off, p.payload) x.got }) s
          if have_ + 1 < o.span then s
          else if 1 < x.msgsLeft then
            roceAsk a b e (updExt a b e (fun x => { x with msgsLeft := x.msgsLeft - 1 }) (roceAnswered qpn o s))
          else
            let s := updExt a b e (fun x => { x with st := .ready, msgsLeft := 0 }) (roceAnswered qpn o s)
            pumpWork (extWriteOut a b e s)
  | none => countUnnamed s

/-- An atomic's response arrives. -/
def roceAtomicAck (qpn : Nat) (p : RocePkt) (s : State) : State :=
  let s := roceAckTo qpn (p.psn - 1) s
  match roceFor (s.qp qpn) p.psn with
  | some o =>
    let s := roceAnswered qpn o s
    match o.owner with
    | none => s
    | some (a, b, e) =>
      let live := ((s.op a b).map (fun op => (op.ext e).st == .sending)).getD false
      if live then pumpWork (extEnd a b e true (s.updOp a b (fun op => { op with result := p.swapAdd }))) else s
  | none => countUnnamed s

/-- A fatal NAK of the peer: the QP enters ERROR with cause ROCE_PEER (R176, R177). -/
def rocePeerNak (qpn : Nat) (psn : BitVec 24) (syndrome : BitVec 8) (s : State) : State :=
  let q := s.qp qpn
  let own := (q.roce.unacked.filter (fun o => decide ((roceLast o - psn).toNat < 2 ^ 23))).findSome? (·.owner)
  qpError qpn 10 (own.map (fun k => (k.1, k.2.1, stProtection, 0x7F + syndrome.toNat * 256))) s

/-- A response packet. -/
def roceResponse (qpn : Nat) (p : RocePkt) (s : State) : State :=
  let s := countRx qpn s
  let after (s : State) : State := pumpWork (pumpRoce qpn s)
  match p.kind with
  | .ack => after (roceAckTo qpn p.psn s)
  | .readResp _ => after (roceReadResp qpn p s)
  | .atomicAck => after (roceAtomicAck qpn p s)
  | .nakSequence => roceRetry qpn (roceAckTo qpn (p.psn - 1) s)
  | .nakAccess y => rocePeerNak qpn p.psn y s
  | .nakInvalid y => rocePeerNak qpn p.psn y s
  | .rnrNak _ => updRoce qpn (fun r => { r with rnrWait := true }) (roceAckTo qpn (p.psn - 1) s)
  | _ => s

/-! ### Arrival -/

/-- The tests on every RoCEv2 packet (R145, R182, R203); `k` takes it. -/
def roceGate (p : RocePkt) (k : Nat → State → State) (s : State) : State :=
  let n := p.dstQp.toNat - 0x20000
  let s := count 524 (32 * p.lport + 1) s
  if !running s then countUnnamed s
  else if roceNoRoom s p then count 524 (32 * p.lport + 17) s
  else
    match (if 0x20000 ≤ p.dstQp.toNat then Tab.get s.qps n else none) with
    | none => if p.icrcOk then count 522 1024 s else count 522 2 s
    | some q =>
      let nd := 64 * q.needle.getD 0
      if !p.icrcOk then count 522 (nd + 2) s
      else if q.st == .reset || q.st == .init then count 522 1024 s
      else if q.mode != .roce || !q.remoteAddrs.contains p.src then count 522 (nd + 3) s
      else if q.st == .error || (q.st == .draining && q.abort) then countUnnamed s
      else k n s

/-- Answer a marked data packet with a CNP, at most once in 50 µs for a QP (R204). -/
def sendCnp (qpn : Nat) (p : RocePkt) (s : State) : State :=
  let q := s.qp qpn
  let early := match q.roce.lastCnpOut with | some t => decide (s.ticks < t + 31250) | none => false
  if !p.ce || p.payload.isEmpty || early then s
  else
    let tc := roceClass s p.dscp
    let lp := pathPort q 0
    let v := roceVlan s (lpPort lp) tc
    let bytes := 14 + (if v.isSome then 4 else 0) + (if q.ipv4 then 20 else 40) + 8 + 12 + 16 + 4 + 4
    let s := updRoce qpn (fun r => { r with lastCnpOut := some s.ticks }) (count 523 1 s)
    let fr := Frame.cnp (netHdr s lp q.ipv4 (pathDst q 0) tc q.sportBase 4791 v) q.remoteQpn
    egressPut lp { kind := .cnp, tc := tc, bytes := bytes, frame := fr } s

/-- Whether a packet is a request. -/
def roceIsReq (k : RoceKind) : Bool :=
  match k with
  | .send _ _ => true
  | .write _ _ _ => true
  | .readReq => true
  | .fetchAdd => true
  | .cmpSwap => true
  | .other => true
  | _ => false

/-- ROCE_PACKET (R182, R204). -/
def execRocePacket (p : RocePkt) (s : State) : Host.Outcome State Fault Refusal :=
  done (roceGate p (fun n s =>
    let s := sendCnp n p s
    if roceIsReq p.kind then roceRequest n p s else roceResponse n p s) s)

/-- Rc stays between 1/1,000 of the port rate and the port rate (R205). -/
def clampRc (x : Rat) : Rat := max (1 / 1000) (min 1 x)

/-- CNP (R205): at most once in 50 µs for a QP. -/
def execCnp (p : RocePkt) (s : State) : Host.Outcome State Fault Refusal :=
  done (roceGate p (fun n s =>
    let early := match (s.qp n).roce.lastCnpIn with | some t => decide (s.ticks < t + 31250) | none => false
    if early then s
    else updRoce n (fun r => { r with
      rt := r.rc, rc := clampRc (r.rc * (1 - r.alpha / 2)), alpha := r.alpha * 255 / 256 + 1 / 256,
      stageT := 0, stageB := 0, bytes := 0, lastCnpIn := some s.ticks }) s) s)

/-- DCQCN_ALPHA_TIMER (R205). -/
def execDcqcnAlphaTimer (qpn : Nat) (s : State) : Host.Outcome State Fault Refusal :=
  done (if running s && (s.qp qpn).mode == .roce then updRoce qpn (fun r => { r with alpha := r.alpha * 255 / 256 }) s else s)

/-- One increase event of the rate (R205): fast recovery in stages 1-5, then additive, and hyper once both counts
have reached stage 6. -/
def RoceSt.increase (r : RoceSt) (byTimer : Bool) : RoceSt :=
  let t := if byTimer then r.stageT + 1 else r.stageT
  let b := if byTimer then r.stageB else r.stageB + 1
  let rt : Rat := if max t b ≤ 5 then r.rt else if 6 ≤ min t b then r.rt + 1 / 20 else r.rt + 1 / 200
  { r with stageT := t, stageB := b, rt := rt, rc := clampRc ((r.rc + rt) / 2) }

/-- DCQCN_INCREASE_TIMER (R205): the 300 µs timer; or the byte counter, which has its event once for each 10 MiB sent. -/
def execDcqcnIncreaseTimer (qpn : Nat) (byTimer : Bool) (s : State) : Host.Outcome State Fault Refusal :=
  let r := (s.qp qpn).roce
  done (
    if !(running s && (s.qp qpn).mode == .roce && (byTimer || decide (10485760 ≤ r.bytes))) then s
    else updRoce qpn (fun r => { r.increase byTimer with bytes := if byTimer then r.bytes else r.bytes - 10485760 }) s)

/-- A QP whose own retry timers run: not HELD, not at an end (R144). -/
def roceLive (s : State) (q : Qp) : Bool :=
  q.mode == .roce && (q.st == .active || (q.st == .draining && !q.abort)) && running s

/-- ROCE_ACK_TIMEOUT (R182). -/
def execRoceAckTimeout (qpn : Nat) (s : State) : Host.Outcome State Fault Refusal :=
  let q := s.qp qpn
  done (if roceLive s q && !q.roce.unacked.isEmpty && !q.roce.rnrWait then roceRetry qpn s else s)

/-- RNR_TIMER_EXPIRY (R182). -/
def execRnrTimerExpiry (qpn : Nat) (s : State) : Host.Outcome State Fault Refusal :=
  let q := s.qp qpn
  done (
    if !(roceLive s q && q.roce.rnrWait) then s
    else if q.roce.maxRnr ≠ 7 && q.roce.maxRnr ≤ q.roce.rnrRetries then
      qpError qpn 9 ((roceOwner q).map (fun k => (k.1, k.2, stTransport, 9))) s
    else roceGoBack qpn (updRoce qpn (fun r => { r with rnrRetries := r.rnrRetries + 1 }) s))

/-- QP_DRAIN_TIMEOUT (R144): a drain of 2 s becomes an abort. -/
def execQpDrainTimeout (qpn : Nat) (s : State) : Host.Outcome State Fault Refusal :=
  let q := s.qp qpn
  done (if running s && q.st == .draining && !q.abort then qpDrain qpn true s else s)

/-- Whether a QP holds nothing that keeps it (R144): no started operation, no open tracker, nothing being placed. -/
def qpIdle (s : State) (qpn : Nat) : Bool :=
  (opsWhere s (fun o => o.qpn == some qpn && o.stage == .running)).isEmpty &&
    !(s.trackers.any (fun e => e.2.qpn == qpn && e.2.use != .roce)) && (s.qp qpn).placing.isEmpty && (s.qp qpn).roce.work.isEmpty

/-- QP_FREED (R144, R202). -/
def execQpFreed (qpn : Nat) (s : State) : Host.Outcome State Fault Refusal :=
  let q := s.qp qpn
  done (
    if running s && q.st == .draining && qpIdle s qpn then
      let s := (Tab.keysWhere s.trackers (fun _ t => t.qpn == qpn)).foldl (fun s k => closeTracker k s) s
      let s := match q.needle with
        | some n => { s with counters := Tab.upd s.counters (522 * 8192 + 64 * n + 7) 0 (· - 1) }
        | none => s
      pumpWork { s with qps := Tab.del s.qps qpn }
    else s)

/-- CM_DATAGRAM (R183, R383): queued to the slice of the lowest RoCEv2 QP that names the source, else to the
manager's queue. -/
def execCmDatagram (lport : Nat) (src : BitVec 128) (data : List Byte) (s : State) : Host.Outcome State Fault Refusal :=
  let s := count 524 (32 * lport + 1) s
  done (
    if !running s then countUnnamed s
    else
      let k := match s.qps.find? (fun e => e.2.mode == .roce && e.2.remoteAddrs.contains src) with
        | some e => (s.ctx e.2.ctx).slice
        | none => 512
      let l := Tab.getD s.cm k []
      let d : Datagram := { lport := lport, src := src, data := data }
      if l.length < 64 then { s with cm := Tab.put s.cm k (l ++ [d]) }
      else count 528 2 { s with cm := Tab.put s.cm k (l.drop 1 ++ [d]) })

/-- RX_FRAME_DISCARD (R203, R321-R323). -/
def execRxFrameDiscard (lport : Nat) (why : FrameFault) (s : State) : Host.Outcome State Fault Refusal :=
  done (match why with
    | .fcsOrSize => count 524 (32 * lport + 2) s
    | .vlan => count 524 (32 * lport + 3) s
    | .macOrIp => count 524 (32 * lport + 4) s
    | .pausedFrame => count 524 (32 * lport + 5) s
    | .bufferFull tc => count 524 (32 * lport + 10 + tc % 8) s)

/-- PFC_FRAME (R206): it concerns a port with priority flow control, and PRIO. -/
def execPfcFrame (port prio : Nat) (pause : Bool) (s : State) : Host.Outcome State Fault Refusal :=
  let s := count 524 (32 * port + 1) s
  done (
    if !pfcOn s (lpPort port) then countUnnamed s
    else if prio ≠ s.pfcPrio then count 523 4 s
    else (if pause then count 523 3 s else s).updLport port (fun l => { l with paused := pause }))

end Sys2Proof.Machine
end

