-- ==== Sys2Proof/Machine/Skein.lean ====
section
/-! DEFINITION. Skeins (07): the sender's layers and END, the receiver's opcode 10 packets, and the skein status
record. -/

namespace Sys2Proof.Machine

/-! ### The descriptor (R208, R209) -/

def skBlockLog2 (o : Op) : Nat := fld (o.w 9) 60 56
def skBlock (o : Op) : Nat := 2 ^ skBlockLog2 o
def skSrcStride (o : Op) : Nat := fld (o.w 9) 47 0
def skDstStride (o : Op) : Nat := fld (o.w 10) 47 0
def skNBlk (o : Op) : Nat := fld (o.w 10) 59 48 + 1
def skTrigMo (o : Op) : BitVec 32 := dLo (o.w 11)
def skTrigOff (o : Op) : Nat := fld (o.w 11) 63 32 * 16
def skStatusOff (o : Op) : Nat := fld (o.w 13) 47 0
def skTag (o : Op) : Nat := fld (o.w 13) 63 48
def skDmarkWin (o : Op) : BitVec 32 := dLo (o.w 14)
def skDmarkOff (o : Op) : Nat := fld (o.w 14) 63 32
def skDmarkBase (o : Op) : Nat := fld (o.w 15) 62 0

/-- DBS (R209). -/
def skDbs (o : Op) : Nat :=
  let g := o.gauge
  if g.inF = g.outF then skBlock o else fmtBytes g.outF (fmtElems g.inF (skBlock o))

/-- LAYER_BYTES (R209). -/
def skLayerBytes (o : Op) : Nat := skNBlk o * skDbs o

/-- SKEIN_HDR (R215). -/
def skHeader (o : Op) (layerBytes layer : Nat) : List Byte :=
  payloadWords [layerBytes + layer * 2 ^ 48 + (skNLayers o - 1) * 2 ^ 56, skStatusOff o + skTag o * 2 ^ 48,
    (skDmarkWin o).toNat + skDmarkOff o * 2 ^ 32, skDmarkBase o]

/-! ### Layers at the sender (R212-R217, R222) -/

def Op.layer (o : Op) (l : Nat) : Layer := Tab.getD o.skein.layers l {}
def layerOpen (y : Layer) : Bool := y.st == .xlate || y.st == .reading || y.st == .sending
def layerClosed (y : Layer) : Bool := y.st == .landed || y.st == .failed

/-- Change a layer. -/
def updLayer (sq idx l : Nat) (f : Layer → Layer) (s : State) : State :=
  s.updOp sq idx (fun o => { o with skein := { o.skein with layers := Tab.upd o.skein.layers l {} f } })

/-- The skein's control record in the stash changes (R211). -/
def skTouch (o : Op) (s : State) : State := match o.skein.slot with | some n => touchSkein n s | none => s

/-- The packets of a layer (R215, R216) where they are known before its bytes are read: not of a packed one. -/
def skTotal (o : Op) (q : Qp) : Option Nat :=
  if o.gauge.ply then none else some (2 + skNBlk o * max 1 (ceilDiv (skDbs o) q.payloadMax))

/-- A header packet of a skein (R215). -/
def skHdrOut (info : BitVec 32) (payload : List Byte) : PktOut := { off := 0, len := 0, offLen := 0, imm := info, payload := payload }

/-- Layers in one group: G (R222). -/
def skGroup (o : Op) : Nat := ceilDiv (skNLayers o) 16

/-- The work extents of a `SKEIN`: groups of layers (R222). -/
def skWork (o : Op) : List WorkExt :=
  let g := skGroup o
  let z := skNBlk o * skBlock o
  (List.range (ceilDiv (skNLayers o) g)).map (fun i =>
    { off := i * g * z, len := (min ((i + 1) * g) (skNLayers o) - i * g) * z })

/-- A group lands when all its layers have, and fails when they have all closed otherwise. -/
def skSettle (sq idx : Nat) (s : State) : State :=
  s.updOp sq idx (fun o =>
    let g := skGroup o
    let work := o.work.zipIdx.map (fun e =>
      let ls := (List.range (min ((e.2 + 1) * g) (skNLayers o) - e.2 * g)).map (fun k => o.layer (e.2 * g + k))
      if ls.all (fun y => y.st == .landed) then { e.1 with st := .landed }
      else if ls.all layerClosed then { e.1 with st := .failed } else e.1)
    { o with work := work })

/-- Note that a layer fails, with the operation's first cause (R224, R403). -/
def layerFail (sq idx l cause : Nat) (s : State) : State :=
  let s := updLayer sq idx l (fun y => { y with failed := true, cause := if y.cause = 0 then cause else y.cause }) s
  s.updOp sq idx (fun o => if o.detail ≠ 0 then o else { o with detail := partialDetail cause (l / skGroup o) 0x3F })

/-- Send END once every layer has closed, or none further can open (R214, R224). -/
def skEnd (sq idx : Nat) (s : State) : State :=
  match s.op sq idx with
  | none => s
  | some o =>
    let k := o.skein
    let ls := (List.range (skNLayers o)).map o.layer
    if o.done || o.stage != .running || o.stop.isSome || k.ending.isSome || ls.any layerOpen ||
        !(ls.all layerClosed || k.trigFail.isSome) then s
    else
      match o.qpn with
      | none => s
      | some qpn =>
        let err := if k.trigFail.isSome then 2 else if ls.any (fun y => y.st == .failed) then 1 else 0
        let info := (if k.openedAny then 2 else 3) + err * 2 ^ 8
        let s := s.updOp sq idx (fun o => { o with skein := { o.skein with ending := some (s.qp qpn).nextMsg, endErr := err } })
        let m : Msg :=
          { id := 0, op := 10, tc := dTc (o.w 0), window := dWindow (o.w 5), len := 0, act := true,
            owner := .skein sq idx 256, pkts := [skHdrOut (BitVec.ofNat 32 info) (skHeader o 0 0)] }
        sendMsg qpn m (skTouch o s)

/-- A layer's or END's message is complete at the sender (R222, R224); a skein whose source markers' original has retired
ends STALE_HANDLE (R56). -/
def skMsgDone (sq idx part : Nat) (s : State) : State :=
  match s.op sq idx with
  | none => s
  | some o =>
    if part = 256 then
      let k := o.skein
      let r : Nat × Nat :=
        match k.trigFail with
        | some st => if k.stale then (stStaleHandle, 0x58) else (stMarkerError, st.toNat)
        | none => if k.endErr = 1 then (stPartial, o.detail) else (stGood, 0)
      s.updOp sq idx (fun o => { o with
        finished := true, upstream := k.trigFail.isSome,
        stop := if o.stop.isSome then o.stop else if r.1 = stGood then none else some r })
    else if layerOpen (o.layer part) then
      let s := updLayer sq idx part (fun y => { y with st := if y.failed then .failed else .landed, got := [] }) (skTouch o s)
      skEnd sq idx (skSettle sq idx s)
    else s

/-- The data packets of a gathered layer (R216): each block on its own, in order, with its destination offset. -/
def skPackets (s : State) (o : Op) (q : Qp) (l : Nat) (y : Layer) (info : BitVec 32) : List PktOut :=
  let g := o.gauge
  let bs := skBlock o
  let data := joinPieces y.got
  (List.range (skNBlk o)).flatMap (fun b =>
    let first := fmtElems g.inF ((l * skNBlk o + b) * bs)
    let src := slice data (b * bs) bs
    let out := convertBytes g.inF g.outF g.stoch g.sat (s.ctx o.ctx).seed 0 first src
    let bad := badOut g (y.bad.filterMap (fun r =>
      if overlaps r.1 r.2 (b * bs) bs then some (max r.1 (b * bs) - b * bs, min (r.1 + r.2) ((b + 1) * bs) - max r.1 (b * bs)) else none))
    let dst := o.skein.map.getD b 0 + l * skDstStride o
    (cutStream q.payloadMax (if g.ply then some g.outF else none) out bad).map (fun p =>
      { p with off := b * skDbs o + p.off, offLen := dst + p.off, imm := info }))

/-- Send a gathered layer's data packets and its LAST header packet (R215); the FIRST one too where it has waited for them. -/
def skSendLayer (sq idx l : Nat) (s : State) : State :=
  match s.op sq idx with
  | none => s
  | some o =>
    match o.qpn with
    | none => s
    | some qpn =>
      let q := s.qp qpn
      let y := o.layer l
      let ps := skPackets s o q l y y.info
      let hdr := skHdrOut y.info (skHeader o (skLayerBytes o) l)
      let s := if ps.any (·.bad) then layerFail sq idx l (if y.cause = 0 then caSourcePoison else y.cause) s else s
      let s := updLayer sq idx l (fun y => { y with st := .sending, got := [] }) s
      let s := s.updQp qpn (fun q => { q with msgs := q.msgs.map (fun m =>
        if m.owner == .skein sq idx l then { m with pkts := [hdr] ++ ps ++ [hdr], more := false } else m) })
      pumpQp 1048576 qpn s

/-- Translate and read an open layer's blocks (R211, R216): a block that cannot be read is bad. -/
def skReadLayer (sq idx l : Nat) (s : State) : State :=
  match s.op sq idx with
  | none => s
  | some o =>
    let y := o.layer l
    if y.st != .xlate || o.stop.isSome then s
    else
      let bs := skBlock o
      let purp := XPurp.skein sq idx
      -- translate every block; none waits
      let t := (List.range (skNBlk o)).foldl (fun (r : Option (List (Nat × Nat × Nat × Option Ext × Nat)) × State) b =>
        match r with
        | (none, s) => (none, s)
        | (some acc, s) =>
          let cva := o.skein.list.getD b 0 + l * skSrcStride o
          match xlateParts purp (opStream sq o) { ctx := o.ctx, cva := cva, len := bs, kind := .read } 4 0 bs s with
          | (none, s) => (none, s)
          | (some ps, s) => (some (acc ++ ps.map (fun p => (b, cva, p.1, p.2.1, p.2.2))), s)) (some [], s)
      match t with
      | (none, s) => s
      | (some ps, s) =>
        let s := updLayer sq idx l (fun y => { y with st := .reading }) (forgetSeen purp s)
        let r := ps.foldl (fun (r : Nat × State) p =>
          let at_ := p.1 * bs + p.2.2.1
          let miss (cause : Nat) (s : State) : State := updLayer sq idx l (fun y => { y with
            got := insertPiece (at_, zeros p.2.2.2.2) y.got, bad := (at_, p.2.2.2.2) :: y.bad, cause := if y.cause = 0 then cause else y.cause }) s
          match p.2.2.2.1 with
          | none => (r.1, miss caTranslation r.2)
          | some e =>
            let u : TUse := { ctx := o.ctx, panel := e.panel, tgen := e.tgen }
            let rd := extRead o.ctx e (p.2.1 + p.2.2.1) p.2.2.2.2 (fun off => .skeinRead sq idx l (at_ + off)) r.2
            let s := addUse u (rd.2.2.updOp sq idx (fun o => { o with tuses := u :: o.tuses }))
            (r.1 + rd.1, if rd.2.1 then s else miss (lostCause s (e.memAt (p.2.1 + p.2.2.1)).addr) s)) (0, s)
        let s := updLayer sq idx l (fun y => { y with outstanding := r.1 }) r.2
        if r.1 = 0 then skSendLayer sq idx l s else s

/-- A layer's read returns (R222). -/
def skReadDone (sq idx l off : Nat) (a : Answer) (s : State) : State :=
  match s.op sq idx with
  | none => s
  | some o =>
    let y := o.layer l
    if y.st != .reading then s
    else
      let s := updLayer sq idx l (fun y =>
        let y := { y with outstanding := y.outstanding - 1 }
        match a with
        | .data bs => { y with got := insertPiece (off, bs) y.got }
        | .poison n c => { y with got := insertPiece (off, zeros n) y.got, bad := (off, n) :: y.bad, cause := if y.cause = 0 then c else y.cause }
        | .failed c src n => { y with
            got := insertPiece (off, zeros n) y.got, bad := (off, n) :: y.bad
            cause := if y.cause = 0 then (if src = 0x3F then c else causeFrom c src) else y.cause }) s
      if y.outstanding ≤ 1 then skSendLayer sq idx l s else s

/-- Go on with the layers of a skein that wait for a translation. -/
def skResume (sq idx : Nat) (s : State) : State :=
  match s.op sq idx with
  | none => s
  | some o => (o.skein.layers.filter (fun e => e.2.st == .xlate)).foldl (fun s e => skReadLayer sq idx e.1 s) s

/-- Open the lowest triggered layer while fewer than four are open (R214, R215). The packets of a message take consecutive
PSNs (R155): a packed layer, whose number of packets shows only once its bytes are packed, sends its FIRST packet then. -/
def skOpen (sq idx : Nat) (s : State) : State :=
  match s.op sq idx with
  | none => s
  | some o =>
    let k := o.skein
    let open_ := (k.layers.filter (fun e => layerOpen e.2)).length
    match o.qpn, k.layers.find? (fun e => e.2.st == .triggered) with
    | some qpn, some (l, _) =>
      if o.done || o.stage != .running || o.stop.isSome || k.trigFail.isSome || 4 ≤ open_ || !qpWorks (s.qp qpn) || !running s then s
      else
        let q := s.qp qpn
        let info : BitVec 32 := if k.openedAny then 0 else 1
        let s := updLayer sq idx l (fun y => { y with st := .xlate, msg := q.nextMsg, info := info }) (skTouch o s)
        let s := s.updOp sq idx (fun o => { o with skein := { o.skein with openedAny := true } })
        let m : Msg :=
          { id := 0, op := 10, tc := dTc (o.w 0), window := dWindow (o.w 5), len := skLayerBytes o, act := true, ply := o.gauge.ply,
            more := true, owner := .skein sq idx l, total := skTotal o q,
            pkts := if (skTotal o q).isSome then [skHdrOut info (skHeader o (skLayerBytes o) l)] else [] }
        skReadLayer sq idx l (sendMsg qpn m s)
    | _, _ => s

/-! ### The start of a `SKEIN` (R211-R213) -/

/-- The first entry of the list or map that fails its check: ERR_DETAIL. -/
def skEntryFail (s : State) (o : Op) (list map : List Nat) : Option Nat :=
  let mo := s.moOf (dLo (o.w 4))
  let badSrc (b : Nat) : Bool :=
    let cva := list.getD b 0
    cva % 64 ≠ 0 || !(List.range (skNLayers o)).all (fun l => inside (cva + l * skSrcStride o) (skBlock o) mo.base mo.len)
  let badDst (b : Nat) : Bool := map.getD b 0 % 64 ≠ 0
  match (List.range (skNBlk o)).find? badSrc with
  | some b => some b
  | none => ((List.range (skNBlk o)).find? badDst).map (· + 4096)

/-- The skein's state at its start: it takes a slot of the stash (R211), and layers without a source trigger are triggered at
once (R212). -/
def skBegin (sq idx slot : Nat) (list map : List Nat) (marks : List MarkRef) (s : State) : State :=
  let s := s.updOp sq idx (fun o =>
    let all : Tab Layer := (List.range (skNLayers o)).map (fun l => (l, { st := if skTrigMo o = 0 then .triggered else .idle }))
    let o := { o with
      stage := .running, work := skWork o, mwait := if skTrigMo o = 0 then 0 else skNLayers o
      skein := { o.skein with list := list, map := map, layers := all, marks := marks, slot := some slot } }
    (marks.map (·.key)).eraseDups.foldl (fun o k => o.wakeLayers k (markerAt s k)) o)
  skEnd sq idx (touchSkein slot (touchSkeinMap slot s))

/-! ### The receiver (R215, R218) -/

/-- The record, window and marker fields of a SKEIN_HDR. -/
structure SkHdr where
  bytes : Nat
  layer : Nat
  last : Nat
  status : Nat
  tag : Nat
  dwin : BitVec 32
  doff : Nat
  dbase : Nat
  deriving DecidableEq, Repr

def skParse (p : List Byte) : SkHdr :=
  let q (k : Nat) : Nat := beWord p k
  { bytes := bits (q 0) 47 0, layer := bits (q 0) 55 48, last := bits (q 0) 63 56, status := bits (q 1) 47 0,
    tag := bits (q 1) 63 48, dwin := BitVec.ofNat 32 (q 2), doff := bits (q 2) 63 32 * 16, dbase := bits (q 3) 62 0 }

/-- The NAK code of the first check a header packet fails (R159, R218): one whose message has an open tracker is held to the
window that the tracker has pinned. -/
def skHdrCheck (s : State) (qpn : Nat) (h : BitVec 32) (first : Option (List Byte)) (p : List Byte) (pin : Option (BitVec 32)) : Option Nat :=
  let w := s.win (winIndex h)
  let q := s.qp qpn
  let k := skParse p
  let pinned := pin.isSome
  if pinned && pin != some h then some 32
  else if !pinned && (winGen h = 0 || w.gen != winGen h || w.st != .valid) then some 32
  else if !pinned && ((s.ctx q.ctx).slice != (s.ctx (winCtx s w)).slice || (w.allowedQp ≠ 0 && w.allowedQp != qpn)) then some 35
  else if !pinned && winRemote s w then some 34
  else if !pinned && (s.ctx (winCtx s w)).st != .active then some 36
  else if k.last < k.layer || (match first with | some f => f != p | none => false) then some 38
  else if k.status % 64 ≠ 0 || !inWindow w k.status 64 then some 34
  else if !w.rights.getLsbD 1 then some 33
  else if k.dwin = 0 then none
  else winCheck s qpn k.dwin .signal [(k.doff, 16)] none

/-- A complete opcode 10 message: what its delivery needs. -/
def skComplete (i : Nat) (s : State) : State :=
  match Tab.get s.trackers i with
  | none => s
  | some t =>
    let w := s.win (winIndex t.window)
    let k := skParse t.req
    let dm := if k.dwin = 0 then none else
      let x := s.win (winIndex k.dwin)
      if x.gen == winGen k.dwin then some (x.mo, x.off + k.doff) else none
    let d : DoneMsg :=
      { id := t.msgId, op := t.op, failed := t.failed, act := true, window := t.window, hdr := t.req, len := t.msgLen.getD 0,
        info := BitVec.ofNat 32 (t.aux.getD 0 0), rec_ := some (winCtx s w, winCva s w k.status), dmark := dm }
    let s := s.updQp t.qpn (fun q => { q with complete := q.complete ++ [d] })
    pumpWork (closeTracker i s)

/-- Whether a SKEIN_DATA packet carries a header (R217). -/
def skHdrPkt (h : ErtHdr) : Bool := fFirst h.flags || fLast h.flags

/-- Whether a SKEIN_DATA message ends the skein, by its KIND (R217). -/
def skIsEnd (h : ErtHdr) : Bool := fld h.imm 7 0 == 2 || fld h.imm 7 0 == 3

/-- Whether a SKEIN_DATA packet is malformed (R217). -/
def skBad (p : ErtPkt) : Bool :=
  let h := p.hdr
  let err := fld h.imm 15 8
  let isEnd := skIsEnd h
  3 < fld h.imm 7 0 || (isEnd && 2 < err) || (!isEnd && err ≠ 0) || fImm h.flags || fEce h.flags || !fAct h.flags ||
    (isEnd && !(fFirst h.flags && fLast h.flags)) || (!isEnd && fFirst h.flags && fLast h.flags) ||
    (skHdrPkt h && (p.payload.length ≠ 32 || h.poison))

/-- The tracker of a skein's message: AHEAD is 64 × CHUNK (R217). -/
def skTracker (n : Nat) (p : ErtPkt) (s : State) : Tracker :=
  { newTracker n p 10 .skein s with window := p.hdr.window, act := true, ahead := some 64 }

/-- Whether a layer's or END's message is complete: all its bytes accounted, and both its header packets there, since they
must agree (R160, R218; DEDUCED, log 125). `aux` holds SKEIN_INFO, and 1 for FIRST plus 2 for LAST. -/
def skWhole (t : Tracker) : Bool := trackerFull t && t.aux.getD 1 0 == 3

/-- Complete a skein's message that is whole. -/
def skIfWhole (i : Nat) (s : State) : State :=
  match Tab.get s.trackers i with
  | some t => if skWhole t then skComplete i s else s
  | none => s

/-- A skein's header packet that passed its checks. -/
def skHeaderInto (n : Nat) (p : ErtPkt) (i : Nat) (s : State) : State :=
  let s := learnLen i (if skIsEnd p.hdr then 0 else (skParse p.payload).bytes) s
  let s := updTracker i (fun t => { t with
    req := p.payload, reclaimed := false
    aux := [p.hdr.imm.toNat, t.aux.getD 1 0 ||| (b2n (fFirst p.hdr.flags) + 2 * b2n (fLast p.hdr.flags))] }) s
  skIfWhole i (consume n p s)

/-- A skein's blocks that passed their checks are placed in its window. -/
def skBlocksInto (n : Nat) (p : ErtPkt) (i : Nat) (data : List Byte) (s : State) : State :=
  let h := p.hdr
  let off := h.offsetLen.toNat
  let w := s.win (winIndex h.window)
  let s := if h.poison then poisoned n p i off data.length s
    else place n p i off data.length (winCtx s w) (some 3) .bounds (if data.isEmpty then [] else [(winCva s w off, data)]) s
  skIfWhole i s

/-- A placed packet's write is acknowledged, or refused with a cause (R161, R172). A QP that takes no part in the transport any
more reports nothing, and its trackers are gone; a tracker of the same number that serves another message is left alone. -/
def placeDone (qpn : Nat) (psn : BitVec 32) (cause : Nat) (s : State) : State :=
  match (s.qp qpn).placing.find? (fun e => e.psn == psn) with
  | none => s
  | some e =>
    let e' := { e with outstanding := e.outstanding - 1, failed := e.failed || cause ≠ 0 }
    let mine := (Tab.get s.trackers e.tracker).any (fun t => t.qpn == qpn && t.msgId == e.hdr.msgId && t.seen == e.age)
    let s := if cause = 0 || !mine then s else respCause e.tracker (cause, 0x3F) s
    if 0 < e'.outstanding then s.updQp qpn (fun q => { q with placing := q.placing.map (fun x => if x.psn == psn then e' else x) })
    else
      let s := s.updQp qpn (fun q => { q with placing := q.placing.filter (fun x => x.psn != psn) })
      if !qpTakes (s.qp qpn) then s
      else
        let s := placeEnd qpn e.hdr e.ce (if mine then e.tracker else 16384) e.off e.len e'.failed s
        match (if mine then Tab.get s.trackers e.tracker else none) with
        | some t =>
          if trackerFull t then
            match t.use with
            | .readResp sq idx ext => respDone e.tracker sq idx ext s
            | .window => completeMsg e.tracker false s
            | .ring => completeMsg e.tracker false s
            | .skein => skIfWhole e.tracker s
            | _ => s
          else s
        | none => s

/-- A NEW SKEIN_DATA packet. -/
def rxSkein (p : ErtPkt) (s : State) : State :=
  rxNew p (fun n _ s =>
    let h := p.hdr
    if skBad p then fatalNak n p 38 s
    else
      let ft := findTracker s n h.msgId false
      if skHdrPkt h then
        let prior := ft.bind (fun e => if e.2.req.isEmpty then none else some e.2.req)
        match skHdrCheck s n h.window prior p.payload (ft.map (·.2.window)) with
        | some code => fatalNak n p code s
        | none =>
          match trackerFor n p (skTracker n p s) s with
          | none => busyNak n p s
          | some (i, s) => skHeaderInto n p i s
      else
        match rxPayload p with
        | none => fatalNak n p 38 s
        | some (data, _) =>
          match winCheck s n h.window .write [(h.offsetLen.toNat, data.length)] (ft.map (·.2.window)) with
          | some code => fatalNak n p code s
          | none =>
            match trackerFor n p (skTracker n p s) s with
            | none => busyNak n p s
            | some (i, s) => skBlocksInto n p i data s) s

/-! ### The status record (R219-R221) -/

/-- A record with one field replaced. -/
def recSet (r : BitVec 512) (hi lo v : Nat) : BitVec 512 := setFld r hi lo v

/-- Consecutive ones of READY from layer 0. -/
def leadingOnes (r : BitVec 512) : Nat := ((List.range 256).find? (fun i => !r.getLsbD i)).getD 256

/-- A record with its reserved bits 0, as it is written (R6, R219). -/
def recClean (r : BitVec 512) : BitVec 512 :=
  [(319, 313), (351, 346), (383, 369), (447, 393), (511, 464)].foldl (fun r x => recSet r x.1 x.2 0) r

/-- The update of a record by one delivered message (R220): none where the message does not match it. -/
def skUpdate (rec_ : BitVec 512) (k : SkHdr) (kind err : Nat) (failed : Bool) : Option (BitVec 512) :=
  let opens := kind == 1 || kind == 3
  if !opens && (fld rec_ 345 344 ≠ 1 || fld rec_ 335 320 ≠ k.tag) then none
  else
    let r : BitVec 512 := if opens then recSet (recSet (recSet 0 335 320 k.tag) 343 336 k.last) 345 344 1 else rec_
    let r :=
      if kind == 0 || kind == 1 then
        if !failed then
          let r := recSet (recSet r k.layer k.layer 1) 303 256 (fld r 303 256 + k.bytes)
          recSet r 312 304 (leadingOnes r)
        else
          let r' := recSet r 392 384 (fld r 392 384 + 1)
          if r.getLsbD 368 then r' else recSet (recSet r' 367 360 k.layer) 368 368 1
      else recSet (recSet r 359 352 err) 345 344 (if err = 0 then 2 else 3)
    some (recClean (recSet r 463 448 (fld r 463 448 + 1)))

/-- Act on the destination marker once the record is written (R221). -/
def recMark (w : RecWrite) (s : State) : State :=
  match w.mark with
  | none => s
  | some r => if w.code = 0 then (applySignal r w.value s).2 else applyError r w.code w.detail s

/-- One step of a record's two writes (R221). -/
def recStep (n : Nat) (s : State) : State :=
  match Tab.get s.recWrites n with
  | none => s
  | some w =>
    if 1 < w.outstanding then { s with recWrites := Tab.put s.recWrites n { w with outstanding := w.outstanding - 1 } }
    else if w.second then recMark w { s with recWrites := Tab.del s.recWrites n }
    else
      let r := memWrite w.ctx { host := w.host, addr := w.addr + 56 } w.tail true (fun _ _ => .skeinRec n) s
      if r.1 = 0 then recMark w { r.2.2 with recWrites := Tab.del r.2.2.recWrites n }
      else { r.2.2 with recWrites := Tab.put r.2.2.recWrites n { w with second := true, outstanding := r.1 } }

/-- Deliver an opcode 10 message (R220). False where it waits: for a translation, or for the record's last write. -/
def skDeliver (qpn : Nat) (d : DoneMsg) (s : State) : Bool × State :=
  match d.rec_ with
  | none => (true, s)
  | some (ctx, cva) =>
    let purp := XPurp.skeinDeliver qpn d.id.toNat
    let k := skParse d.hdr
    let a : Acc := { ctx := ctx, cva := cva, len := 64, kind := .write, remote := some 3 }
    match translateOr purp (.qp qpn) a s with
    | (.wait, s) => (false, s)
    | (.fail _, s) => (true, countUnnamed (forgetSeen purp s))
    | (.ok e, s) =>
      let m := e.memAt cva
      let key := markerKey s ctx m.host m.addr
      if s.recWrites.any (fun w => w.2.key == key) then (false, s)
      else
        -- the destination marker's record, where the object that held it is still VALID
        let mk : TrWait × State := match d.dmark with
          | some (mo, off) =>
            if k.dwin ≠ 0 && moValid s mo then
              translateOr purp (.qp qpn) { ctx := (s.moOf mo).ctx, cva := (s.moOf mo).base + off, len := 16, kind := .marker } s
            else (.fail .faultFailed, s)
          | none => (.fail .faultFailed, s)
        match mk with
        | (.wait, s) => (false, s)
        | (mt, s) =>
          let s := forgetSeen purp s
          let mark : Option MarkRef := match mt, d.dmark with
            | .ok x, some (mo, off) =>
              let o := s.moOf mo
              let y := x.memAt (o.base + off)
              some { mo := mo, off := off, key := markerKey s o.ctx y.host y.addr }
            | _, _ => none
          let kind := fld d.info 7 0
          let err := fld d.info 15 8
          match skUpdate (Tab.getD s.skeinRecs key (Config.memSkeinRecord key)) k kind err d.failed with
          | none => (true, count (s.ctx (s.qp qpn).ctx).slice 24 s)
          | some r =>
            let s := { s with skeinRecs := Tab.put s.skeinRecs key r }
            let img := leBytes 64 r.toNat
            let isFail := fld r 345 344 == 3
            let w0 : RecWrite :=
              { key := key, ctx := ctx, host := m.host, addr := m.addr, tail := img.drop 56,
                mark := if isFail || kind ≠ 2 then mark else none,
                value := BitVec.ofNat 64 (k.dbase + fld r 312 304),
                code := if !isFail then 0 else if err = 1 then mePartial else meUpstream, detail := k.tag, outstanding := 0 }
            let n := gapFrom 0 (s.recWrites.map (·.1))
            let x := memWrite ctx m (img.take 56) true (fun _ _ => .skeinRec n) s
            let s := { x.2.2 with recWrites := Tab.put x.2.2.recWrites n { w0 with outstanding := x.1 } }
            (true, if x.1 = 0 then recStep n s else s)

end Sys2Proof.Machine
end

