-- ==== Sys2Proof/Machine/Transport.lean ====
section
/-! DEFINITION. The rest of ERT (05, 06): acknowledgements and refusals at the sender, tinks and paths, delivery,
timers, the grant engine, and the egress of a port. -/

namespace Sys2Proof.Machine

/-! ### Messages at the sender (R162, R170) -/

/-- Whether a delivered-through MSG_ID covers a message. -/
def deliveredCovers (delivered id : BitVec 24) : Bool := decide ((delivered - id).toNat < 2 ^ 23)

/-- Whether a message is complete at its sender (R162). -/
def msgComplete (q : Qp) (m : Msg) : Bool :=
  !m.more && m.cut == m.pkts.length && q.flight.all (fun f => !(f.msgId == m.id && f.resp == m.resp)) &&
    (!m.act || m.resp || deliveredCovers q.peerDelivered m.id)

/-- Tell a message's owner that it is complete. -/
def msgDone (qpn : Nat) (m : Msg) (s : State) : State :=
  match m.owner with
  | .extent sq idx ext => extMsgDone sq idx ext s
  | .responder _ => s
  | .skein sq idx part => skMsgDone sq idx part s
  | .purl grp seq => purlMsgDone qpn grp seq m s

/-- Complete every message that can be (R162). -/
def finishMsgs : Nat → Nat → State → State
  | 0, _, s => s
  | fuel + 1, qpn, s =>
    let q := s.qp qpn
    match q.msgs.find? (msgComplete q) with
    | none => s
    | some m => finishMsgs fuel qpn (msgDone qpn m (s.updQp qpn (fun q => { q with msgs := q.msgs.erase m })))

/-! ### ACK (R167, R168, R169, R198, R199) -/

/-- SND_UNA: the oldest PSN that is not acknowledged (R156): of a packet that was sent, or of one that its message's run of
PSNs holds for it (R155). -/
def oldestPsn (q : Qp) : BitVec 32 :=
  let open_ := q.flight.map (·.psn) ++ (q.msgs.filter (fun m => m.psn0.isSome && m.cut < m.size)).map (fun m => m.nextPsn q)
  open_.foldl (fun b p => if (p - q.sndUna).toNat < (b - q.sndUna).toNat then p else b) q.nextPsn

/-- srtt in ticks; 0 before the first sample. -/
def srttOf (q : Qp) : Rat := match q.rtt with | some r => r.1 | none => 0

/-- One round-trip sample (R167). -/
def Qp.rttSample (q : Qp) (x : Rat) : Qp :=
  match q.rtt with
  | none => { q with rtt := some (x, x / 2) }
  | some (m, v) => { q with rtt := some (m + (x - m) / 8, v + ((if x < m then m - x else x - m) - v) / 4) }

/-- on_ack (R198). -/
def Qp.tension (q : Qp) (s : State) (newCount ceCount : Nat) (ece : Bool) (rtt : Option Rat) : Qp :=
  let q := if newCount > 0 then { q with alpha := q.alpha + ((ceCount : Rat) / newCount - q.alpha) / 16 } else q
  let q := if ceCount > 0 || ece then { q with marked := true } else q
  let early := match q.lastAdjust with | some t => decide (((s.ticks - t : Nat) : Rat) < srttOf q) | none => false
  if early then q
  else
    let target := targetTicks s
    let r := rtt.getD 0
    let c :=
      if q.marked then q.cwnd * (1 - q.alpha / 2)
      else if target < r then q.cwnd * max (1 / 2) (1 - (4 / 5) * (r - target) / r)
      else q.cwnd + q.payloadMax
    { q with lastAdjust := some s.ticks, cwnd := max (q.payloadMax : Rat) (min (4 * 2 ^ 20) c), marked := false }

/-- The spray weight of an echoed path (R199). -/
def Qp.weigh (q : Qp) (s : State) (path : Nat) (ece : Bool) : Qp :=
  let p := q.path path
  if p.sick then q
  else if ece then
    let early := match p.halved with | some t => decide (((s.ticks - t : Nat) : Rat) < srttOf q) | none => false
    if early then q else q.updPath path (fun p => { p with weight := max 1 (p.weight / 2), halved := some s.ticks })
  else
    q.updPath path (fun (p : Path) =>
      if 15 ≤ p.clean then { p with clean := 0, weight := min 8 (p.weight + 1) } else { p with clean := p.clean + 1 })

/-- PSNs that an ACK acknowledges (R167). -/
def ackCovers (p : ErtPkt) (psn : BitVec 32) : Bool :=
  let start := BitVec.ofNat 32 p.hdr.offsetLen.toNat
  let d := (psn - start).toNat
  decide ((p.hdr.psn - psn).toNat - 1 < 2 ^ 31 - 1 ∧ p.hdr.psn ≠ psn) || (decide (d < 256) && (ofBe (p.payload.take 32)).testBit d)

/-- Treat flights as acknowledged: their paths' probation ends well, and other packets have seen an ACK. A path that is healthy
again starts with no losses: what becomes of those among its last 64 sends the spec leaves open (R169; DESIGN CHOICE, log
126). -/
def Qp.ackFlights (q : Qp) (gone : Flight → Bool) : Qp :=
  let hit := q.flight.filter gone
  let q := hit.foldl (fun q f =>
    if (q.path f.path).probation == some f.psn then
      q.updPath f.path (fun p => { p with probation := none, weight := 1, credit := 0, hold := 0, sends := [] })
    else q) q
  let left : List Flight := q.flight.filter (fun f => !gone f)
  let q := { q with flight := if hit.isEmpty then left else left.map (fun (f : Flight) => { f with otherAcked := true }) }
  { q with sndUna := oldestPsn q }

/-- What follows acknowledgements: messages complete, work goes on, new packets go. -/
def afterAck (qpn : Nat) (s : State) : State :=
  pumpQp 1024 qpn (pumpWork (pumpQp 1024 qpn (finishMsgs 1024 qpn s)))

/-- What a well-formed ACK does: packets are acknowledged, the round trip is sampled, and the window and the path's weight
react. -/
def takeAck (n : Nat) (p : ErtPkt) (s : State) : State :=
  let w := beWord p.payload 4
  let ece := fEce p.hdr.flags
  let back := (stamp s - p.hdr.stamp).toNat
  let fresh := match s.fc.reinitTimes.head? with | some t => decide (t + back ≤ s.ticks) | none => true
  let s := if fresh then histogram 2 back s else s
  let s := (touchQp n s).updQp n (fun q =>
    let q := q.ackFlights (fun f => ackCovers p f.psn)
    let q := if fresh then q.rttSample back else q
    let q := q.tension s (bits w 15 0) (bits w 31 16) ece (if fresh then some (back : Rat) else none)
    let q := q.weigh s p.hdr.path.toNat ece
    { q with peerDelivered := if deliveredCovers p.hdr.msgId q.peerDelivered then p.hdr.msgId else q.peerDelivered })
  afterAck n s

/-- An ACK arrives. -/
def rxAck (p : ErtPkt) (s : State) : State :=
  match rxGate p false s with
  | .stop s => s
  | .take => if p.payload.length ≠ 40 then countUnnamed s else takeAck p.hdr.dstQpn.toNat p s

/-! ### NAK (R170, R176, R177) -/

/-- The operation of a message. -/
def msgOp (m : Msg) : Option (Nat × Nat) :=
  match m.owner with
  | .extent a b _ => some (a, b)
  | .skein a b _ => some (a, b)
  | _ => none

/-- The message of a flight. -/
def flightMsg (q : Qp) (f : Flight) : Option Msg :=
  q.msgs.find? (fun m => m.id == f.msgId && m.resp == f.resp)

/-- The operation that owns a flight. -/
def flightOp (q : Qp) (f : Flight) : Option (Nat × Nat) := (flightMsg q f).bind msgOp

/-- A packet's work extent fails (R95, R170, R224). A Purl chunk fails only as R278 and R287 state. -/
def flightFail (qpn : Nat) (f : Flight) (s : State) : State :=
  let own : Option MsgOwner := (flightMsg (s.qp qpn) f).map (fun m => m.owner)
  match own with
  | some (.extent a b e) => extCause a b e caPeerPlacement 0x3F s
  | some (.skein a b l) => if l < 256 then layerFail a b l caPeerPlacement s else s
  | _ => s

/-- A NAK arrives. QP_ERROR answers any packet, a GRANT or an ACK too: its PSN need not be in flight (R170, R225). -/
def rxNak (p : ErtPkt) (s : State) : State :=
  match rxGate p true s with
  | .stop s => s
  | .take =>
    let n := p.hdr.dstQpn.toNat
    let q := s.qp n
    let code := bits (beWord p.payload 0) 7 0
    if code = 39 then qpError n 4 none s
    else
    match q.flight.find? (fun f => f.psn == p.hdr.psn) with
    | none => s
    | some f =>
      if code = 1 || code = 2 || code = 3 then
        let s := if code = 1 then count (s.ctx q.ctx).slice 20 s else s
        s.updQp n (fun q => { q with
          flight := q.flight.map (fun x => if x.psn == f.psn then { x with retryWait := true } else x)
          msgs := if code = 1 then q.msgs.map (fun m => if m.id == f.msgId && m.resp == f.resp then { m with busyHold := if m.busyHold.contains f.psn then m.busyHold else f.psn :: m.busyHold } else m) else q.msgs })
      else if code = 16 then
        let s := flightFail n f s
        afterAck n (s.updQp n (fun q => q.ackFlights (fun x => x.psn == f.psn)))
      else
        let own := (flightOp q f).map (fun k =>
          if code = 32 then (k.1, k.2, stStaleHandle, 0x2C)
          else (k.1, k.2, stProtection, 0x7F + (if 32 ≤ code ∧ code ≤ 38 then code else 38) * 256))
        qpError n 5 own s

/-! ### GRANT and CTRL (R180, R192) -/

/-- A GRANT arrives. -/
def rxGrant (p : ErtPkt) (s : State) : State :=
  match rxGate p false s with
  | .stop s => s
  | .take =>
    let n := p.hdr.dstQpn.toNat
    let q := s.qp n
    let w := beWord p.payload 0
    let upTo := bits w 47 0
    let resp := bits w 48 48 == 1
    if q.msgs.any (fun m => m.id == p.hdr.msgId && m.resp == resp) then
      pumpQp 1024 n (s.updQp n (fun q => { q with msgs := q.msgs.map (fun m =>
        if m.id == p.hdr.msgId && m.resp == resp then { m with granted := min m.len (max m.granted upTo) } else m) }))
    else count 522 (64 * q.needle.getD 0 + 6) s

/-- A packet on probation goes on another path: its old path still waits for the one packet of its probation (R169). -/
def Qp.leaveProbation (q : Qp) (x : Flight) (path : Nat) : Qp :=
  if x.path ≠ path && (q.path x.path).probation == some x.psn then
    q.updPath x.path (fun p => { p with probation := none, trial := true, weight := 1, credit := 1 })
  else q

/-- Re-send a packet (R168, R170, R180): with RETX, a new stamp, on the path chosen. -/
def resend (qpn : Nat) (psn : BitVec 32) (avoid : Option Nat) (f : Flight → Flight) (s : State) : State :=
  let q := s.qp qpn
  match q.flight.find? (fun x => x.psn == psn) with
  | none => s
  | some x =>
    let c := pickPath q avoid
    let y := f x
    let h := { x.hdr with path := BitVec.ofNat 6 c.1, flags := x.hdr.flags ||| 0x10#8, stamp := stamp s }
    let y := { y with sentAt := s.ticks, path := c.1, otherAcked := false, retryWait := false, hdr := h }
    let q2 := noteSend (c.2.leaveProbation x c.1) c.1 psn
    let s := s.updQp qpn (fun _ => { q2 with flight := q2.flight.map (fun z => if z.psn == psn then y else z) })
    ertQueue qpn c.1 h x.payload s

/-- Re-send every unacknowledged packet of a QP without counting it: `restart` says that its backoff restarts (R180), as it
does not at rehoming (R149, R168). -/
def resendAll (qpn : Nat) (restart : Bool) (s : State) : State :=
  let q := s.qp qpn
  let sl := (s.ctx q.ctx).slice
  q.flight.foldl (fun s f => resend qpn f.psn (some f.path) (fun x => { x with sends := if restart then 1 else x.sends }) (count sl 17 s)) s

/-- A QP starts send work of its own (R144). -/
def qpMaySend (s : State) (q : Qp) : Bool := (q.st == .active || (q.st == .draining && !q.abort)) && running s

/-- A CTRL packet arrives: RESUME makes every unacknowledged packet a tink at once. -/
def rxResume (p : ErtPkt) (s : State) : State :=
  match rxGate p false s with
  | .stop s => s
  | .take =>
    let n := p.hdr.dstQpn.toNat
    if bits (beWord p.payload 0) 7 0 ≠ 1 then countUnnamed s
    else if qpMaySend s (s.qp n) then resendAll n true s else s

/-! ### Tinks and paths (R168, R169) -/

/-- SICK_HOLD of a QP in ticks: 64 µs × 2^j. -/
def sickHoldTicks (q : Qp) : Nat := 40000 * 2 ^ q.sickHold

/-- A path becomes sick for a hold. -/
def Qp.sicken (q : Qp) (path hold now : Nat) : Qp :=
  q.updPath path (fun p => { p with sick := true, hold := hold, until_ := now + hold, trial := false, probation := none })

/-- Mark the newest send of a packet on a path as lost. -/
def markLost (psn : BitVec 32) : List (BitVec 32 × Bool) → List (BitVec 32 × Bool)
  | [] => []
  | e :: t => if e.1 == psn then (e.1, true) :: t else e :: markLost psn t

/-- Note the loss of a packet's previous send on its path (R169). -/
def Qp.loss (q : Qp) (f : Flight) (now : Nat) : Qp :=
  let p := q.path f.path
  if p.probation == some f.psn then q.sicken f.path (min (64 * sickHoldTicks q) (2 * max p.hold (sickHoldTicks q))) now
  else
    let sends := markLost f.psn p.sends
    let q := q.updPath f.path (fun p => { p with sends := sends })
    if !p.sick && 3 ≤ (sends.filter (·.2)).length then q.sicken f.path (sickHoldTicks q) now else q

/-- A packet's timeout passes: it is tinked (R168, R198). -/
def doTink (qpn : Nat) (psn : BitVec 32) (s : State) : State :=
  let q := s.qp qpn
  match q.flight.find? (fun f => f.psn == psn) with
  | none => s
  | some f =>
    if !qpMaySend s q || f.retryWait || q.mode != .ert then s
    else
      let sl := (s.ctx q.ctx).slice
      let counted := f.otherAcked
      let s := count sl (if counted then 16 else 17) s
      let s := s.updQp qpn (fun q => q.loss f s.ticks)
      if counted && 15 ≤ f.tinks then
        qpError qpn 1 ((flightOp q f).map (fun k => (k.1, k.2, stTransport, 1))) s
      else
        let s := if !counted then s else s.updQp qpn (fun q =>
          let early := match q.lastTinkCut with | some t => decide (((s.ticks - t : Nat) : Rat) < srttOf q) | none => false
          if early then q else { q with cwnd := max (q.payloadMax : Rat) (q.cwnd / 2), lastTinkCut := some s.ticks })
        resend qpn psn (some f.path) (fun x => { x with sends := x.sends + 1, tinks := x.tinks + b2n counted }) s

/-- 2 s pass without an acknowledgement (R168). -/
def noProgress (qpn : Nat) (s : State) : State :=
  let q := s.qp qpn
  if q.flight.isEmpty || !qpMaySend s q then s
  else
    let own := (q.flight.find? (fun f => f.psn == oldestPsn q)).bind (flightOp q)
    qpError qpn 2 (own.map (fun k => (k.1, k.2, stTransport, 2))) s

/-- A path's hold ends: it carries one packet on probation (R169). -/
def holdEnds (qpn path : Nat) (s : State) : State :=
  let p := (s.qp qpn).path path
  if running s && p.sick && !p.portDown then
    pumpQp 1024 qpn (s.updQp qpn (fun q => q.updPath path (fun p => { p with sick := false, trial := true, weight := 1, credit := 1 })))
  else s

/-- RETRY_DELAY of a refused packet has passed (R170, R201): its message is held no longer for it, and a packet that waits out
the delay is sent again. -/
def retryNow (qpn : Nat) (psn : BitVec 32) (s : State) : State :=
  let q := s.qp qpn
  if !qpMaySend s q then s
  else
    let s := s.updQp qpn (fun q => { q with msgs := q.msgs.map (fun m => { m with busyHold := m.busyHold.filter (· ≠ psn) }) })
    pumpQp 1024 qpn (
      if q.flight.any (fun f => f.psn == psn && f.retryWait) then resend qpn psn none (fun x => { x with sends := 1, tinks := 0 }) s
      else s)

/-! ### Delivery (R162-R165) -/

/-- Deliver the next message of a QP in MSG_ID order, if it is complete. -/
def deliverNext (qpn : Nat) (s : State) : State :=
  let q := s.qp qpn
  let live := (q.st == .active || q.st == .held || (q.st == .draining && !q.abort)) && running s
  match q.complete.find? (fun d => d.id == q.delivered + 1) with
  | none => s
  | some d =>
    if !live || q.mode != .ert then s
    else
      let r : Bool × State :=
        match d.op.toNat with
        | 0 => (true, match d.imm with | some t => if d.failed then s else offerTag qpn t s | none => s)
        | 1 =>
          let s := postRecv qpn d.len d.failed d.imm d.id none s
          (true, match d.imm with | some t => if d.failed then s else offerTag qpn t s | none => s)
        | 10 => skDeliver qpn d s
        | _ => (true, s)
      if !r.1 then r.2
      else
        let s := touchQp qpn (r.2.updQp qpn (fun q => { q with delivered := q.delivered + 1, complete := q.complete.erase d }))
        let s := if d.act then sendAck qpn s else s
        match d.tracker with
        | some i => execRequest i s
        | none => s

/-! ### Timers at the receiver -/

/-- 0.5 µs after the first placement not yet reported (R166). -/
def ackDue (qpn : Nat) (s : State) : State :=
  let q := s.qp qpn
  if 0 < q.sinceAck && q.mode == .ert && running s && (q.st == .active || q.st == .held || (q.st == .draining && !q.abort)) then sendAck qpn s else s

/-- A tracker received nothing for 2 s (R160). -/
def rxStall (i : Nat) (s : State) : State :=
  match Tab.get s.trackers i with
  | none => s
  | some t =>
    let waits := (t.op.toNat = 2 || t.op.toNat = 4) && (match t.use with | .window => true | _ => false)
    if waits || t.use == .roce || !running s then s else qpError t.qpn 3 none (closeTracker i s)

/-- A held packet's fault has lasted 8 µs (R173). -/
def pageHeld (qpn : Nat) (psn : BitVec 32) (s : State) : State :=
  let purp := XPurp.place qpn psn
  match (s.qp qpn).held.find? (fun h => h.1.hdr.psn == psn) with
  | none => s
  | some h =>
    if !faulted s purp || !running s then s
    else pageNak qpn h.1 (forgetSeen purp (s.updQp qpn (fun q => { q with held := q.held.erase h })))

/-! ### The grant engine (R193-R197) -/

/-- AHEAD of a message, in chunks of the present size (R187, R193, R217). -/
def aheadOf (s : State) (t : Tracker) : Nat := t.ahead.getD 2 * grantChunk s

/-- Eligible for grants (R193, R196). -/
def eligible (s : State) (t : Tracker) : Bool :=
  match t.msgLen with
  | none => false
  | some l => grantPaced t.op && !t.reclaimed && t.use != .roce && decide (t.granted < l) && decide (grantedAhead s t < aheadOf s t)

/-- The oldest eligible message of a slice and class. -/
def oldestEligible (s : State) (sl tc : Nat) : Option (Nat × Tracker) :=
  (s.trackers.filter (fun e => e.2.slice == sl && e.2.tc == tc && eligible s e.2)).foldl (fun b e =>
    match b with | none => some e | some x => if e.2.seen < x.2.seen then some e else some x) none

/-- Deficit round-robin over the classes (R193): the class to serve, its position and the deficits. -/
def drrClass (s : State) (busy : Nat → Bool) : Nat → Nat → Tab Int → Option (Nat × Tab Int)
  | 0, _, _ => none
  | fuel + 1, tc, d =>
    let anyW := (List.range 8).any (fun t => busy t && tcWeightOf s t != 0)
    let on (t : Nat) : Bool := busy t && (tcWeightOf s t != 0 || !anyW)
    if on tc && decide (0 < Tab.getD d tc 0) then some (tc, d)
    else
      let nx := (tc + 1) % 8
      let w : Int := if tcWeightOf s nx = 0 then 256 else tcWeightOf s nx * 256
      let d := if on tc then d else Tab.put d tc 0
      drrClass s busy fuel nx (if on nx then Tab.put d nx (Tab.getD d nx 0 + w) else d)

/-- The next in a cyclic order after `cur` that satisfies a test, below `n`. -/
def cyclicNext (n cur : Nat) (f : Nat → Bool) : Option Nat :=
  ((List.range n).map (fun k => (cur + 1 + k) % n)).find? f

/-- One grant, where there is one to give. -/
def grantOne (s : State) : Option State :=
  let out := outstanding s
  let e := s.grants
  if !(out < budget s && 0 < e.pace) then none
  else
    let owed := cyclicNext 512 e.nextOwed (fun sl =>
      decide (0 < Tab.getD e.guar sl 0) && s.trackers.any (fun t => t.2.slice == sl && eligible s t.2))
    let give (i : Nat) (t : Tracker) (s : State) : Nat × State :=
      let n := min (min (grantChunk s) (t.msgLen.getD 0 - t.granted)) (min (aheadOf s t - grantedAhead s t) (budget s - out))
      let t' := { t with granted := t.granted + n }
      let s := { s with trackers := Tab.put s.trackers i t', grants := { s.grants with pace := s.grants.pace - n } }
      (n, sendGrant t' s)
    match owed with
    | some sl =>
      match drrClass s (fun tc => (oldestEligible s sl tc).isSome) 8192 (Tab.getD e.owedTc sl 0) (Tab.getD e.owedDeficit sl []) with
      | none => none
      | some (tc, d) =>
        (oldestEligible s sl tc).map (fun x =>
          let r := give x.1 x.2 s
          { r.2 with grants := { r.2.grants with
              nextOwed := sl, guar := Tab.upd r.2.grants.guar sl 0 (· - r.1), owedTc := Tab.put r.2.grants.owedTc sl tc,
              owedDeficit := Tab.put r.2.grants.owedDeficit sl (Tab.put d tc (Tab.getD d tc 0 - r.1)) } })
    | none =>
      match drrClass s (fun tc => s.trackers.any (fun t => t.2.tc == tc && eligible s t.2)) 8192 e.nextTc e.deficit with
      | none => none
      | some (tc, d) =>
        let has (sl : Nat) : Bool := (oldestEligible s sl tc).isSome
        let cur := Tab.getD e.slices tc (511, 0)
        let pick := if has cur.1 && decide (0 < cur.2) then some cur
          else (cyclicNext 512 cur.1 has).map (fun sl => (sl, (grantChunk s : Int)))
        pick.bind (fun c => (oldestEligible s c.1 tc).map (fun x =>
          let r := give x.1 x.2 s
          { r.2 with grants := { r.2.grants with
              nextTc := tc, deficit := Tab.put d tc (Tab.getD d tc 0 - r.1), slices := Tab.put r.2.grants.slices tc (c.1, c.2 - r.1) } }))

/-- The grant engine's loop. -/
def grantLoop : Nat → State → State
  | 0, s => s
  | fuel + 1, s => match grantOne s with | some s => grantLoop fuel s | none => s

/-- The grant engine runs: its buckets refill by what the event brings, capped (R193, R194). -/
def grantRun (refill : Nat) (guarRefill : List (Nat × Nat)) (s : State) : State :=
  if !running s then s
  else
    let g := guarRefill.foldl (fun g e => if guarIn s e.1 = 0 then g else Tab.put g e.1 (min (2 * grantChunk s : Int) (Tab.getD g e.1 0 + e.2))) s.grants.guar
    grantLoop 65536 { s with grants := { s.grants with pace := min (budget s : Int) (s.grants.pace + refill), guar := g } }

/-! ### Egress (R188, R206, R328) -/

/-- A frame leaves a logical port for its next hop (R321): in native mode in DATA blocks, which the replay buffer keeps
(R326, R328). -/
def portSend (lp : Nat) (f : Frame) (s : State) : State :=
  let s := count 524 (32 * lp) s
  let bs := frameBytes lp (Tab.getD s.nextHop lp 0).toNat f
  if portMode s (lpPort lp) = 0 then nativeSend lp bs s else emit (.frame lp bs) s

/-- A sub-port can take one more frame: it is up, has a next hop, and holds fewer than 64 blocks (R321, R328). -/
def portReady (s : State) (lp : Nat) : Bool :=
  lportUp s lp && Tab.getD s.nextHop lp 0 != 0 && decide ((s.lport lp).replay.length < 64) && (s.lport lp).unsent.isEmpty

/-- The next entry of a class: where priority flow control has paused RoCEv2 on TC7, its ERT packets go on (R206). -/
def headOf (l : LPort) (tc : Nat) : Option TxEntry :=
  (Tab.getD l.egress tc []).find? (fun e => !(l.paused && (e.kind == .roce || e.kind == .cnp) && e.tc == 7))

/-- Deficit round-robin over the egress queues (R188). -/
def egressPick (s : State) (l : LPort) : Nat → Nat → Tab Nat → Option (Nat × TxEntry × Tab Nat)
  | 0, _, _ => none
  | fuel + 1, tc, d =>
    let anyW := (List.range 8).any (fun t => (headOf l t).isSome && tcWeightOf s t != 0)
    let on (t : Nat) : Option TxEntry := if tcWeightOf s t != 0 || !anyW then headOf l t else none
    match on tc with
    | some e =>
      if e.bytes ≤ Tab.getD d tc 0 then some (tc, e, Tab.put d tc (Tab.getD d tc 0 - e.bytes))
      else
        let nx := (tc + 1) % 8
        egressPick s l fuel nx (if (on nx).isSome then Tab.put d nx (Tab.getD d nx 0 + max 256 (tcWeightOf s nx * 256)) else Tab.put d nx 0)
    | none =>
      let nx := (tc + 1) % 8
      egressPick s l fuel nx (if (on nx).isSome then Tab.put (Tab.put d tc 0) nx (Tab.getD d nx 0 + max 256 (tcWeightOf s nx * 256)) else Tab.put d tc 0)

/-- A port chooses its next packet (R188). -/
def egressNext (lp refill : Nat) (s : State) : State :=
  if !portReady s lp then s
  else
    let s := s.updLport lp (fun l => { l with tokens := min 16384 (l.tokens + refill) })
    let l := s.lport lp
    match l.control with
    | c :: rest =>
      if c.bytes ≤ l.tokens then
        portSend lp c.frame (s.updLport lp (fun l => { l with control := rest, tokens := l.tokens - c.bytes }))
      else
        count 523 6 (s.updLport lp (fun l => { l with control := rest, egress := Tab.upd l.egress c.tc [] (· ++ [c]) }))
    | [] =>
      match egressPick s l 8192 l.nextTc l.deficit with
      | none => s
      | some (tc, e, d) =>
        portSend lp e.frame (s.updLport lp (fun l => { l with
          nextTc := tc, deficit := d, egress := Tab.put l.egress tc ((Tab.getD l.egress tc []).erase e) }))

/-! ### The commands of ERT -/

/-- Take a packet on the command of its opcode (opcodes 14 and 15 reach the discard of R153 on any command). -/
def rowOp (p : ErtPkt) (k : Nat) (f : State → State) (s : State) : State :=
  if p.hdr.op.toNat < 14 && p.hdr.op.toNat != k then s else f (count 524 (32 * p.lport + 1) s)

/-- Take a PURL_CTRL packet on the command of its KIND. -/
def rowKind (p : ErtPkt) (k : Nat) (s : State) : State :=
  let kind := fld p.hdr.imm 26 24
  rowOp p 13 (fun s => if kind = k || (k = 0 && 3 < kind) then rxPurlCtl p s else s) s

/-- WRITE (R155, R159-R161). -/
def execWrite (p : ErtPkt) (s : State) : Host.Outcome State Fault Refusal := done (rowOp p 0 (rxWrite p) s)
/-- RX_SEND (R163). -/
def execRxSend (p : ErtPkt) (s : State) : Host.Outcome State Fault Refusal := done (rowOp p 1 (rxSendPkt p) s)
/-- READ_REQ (R159, R165). -/
def execReadReq (p : ErtPkt) (s : State) : Host.Outcome State Fault Refusal := done (rowOp p 2 (rxReadReq p) s)
/-- READ_RESP (R160, R165). -/
def execReadResp (p : ErtPkt) (s : State) : Host.Outcome State Fault Refusal := done (rowOp p 3 (rxReadResp p) s)
/-- ATOMIC (R159, R174). -/
def execAtomic (p : ErtPkt) (s : State) : Host.Outcome State Fault Refusal := done (rowOp p 4 (rxAtomic p) s)
/-- ATOMIC_RESP (R171). -/
def execAtomicResp (p : ErtPkt) (s : State) : Host.Outcome State Fault Refusal := done (rowOp p 5 (rxAtomicResp p) s)
/-- ACK (R167). -/
def execAck (p : ErtPkt) (s : State) : Host.Outcome State Fault Refusal := done (rowOp p 6 (rxAck p) s)
/-- NAK (R170). -/
def execNak (p : ErtPkt) (s : State) : Host.Outcome State Fault Refusal := done (rowOp p 7 (rxNak p) s)
/-- GRANT (R192). -/
def execGrant (p : ErtPkt) (s : State) : Host.Outcome State Fault Refusal := done (rowOp p 8 (rxGrant p) s)
/-- RESUME (R180). -/
def execResume (p : ErtPkt) (s : State) : Host.Outcome State Fault Refusal := done (rowOp p 9 (rxResume p) s)
/-- SKEIN_DATA (R215-R218). -/
def execSkeinData (p : ErtPkt) (s : State) : Host.Outcome State Fault Refusal := done (rowOp p 10 (rxSkein p) s)
/-- PURL_DATA (R275). -/
def execPurlData (p : ErtPkt) (s : State) : Host.Outcome State Fault Refusal := done (rowOp p 11 (rxPurlData p) s)
/-- PURL_RESULT (R275). -/
def execPurlResult (p : ErtPkt) (s : State) : Host.Outcome State Fault Refusal := done (rowOp p 12 (rxPurlData p) s)
/-- HELLO (R257). -/
def execHello (p : ErtPkt) (s : State) : Host.Outcome State Fault Refusal := done (rowKind p 0 s)
/-- CREDIT (R277). -/
def execCredit (p : ErtPkt) (s : State) : Host.Outcome State Fault Refusal := done (rowKind p 1 s)
/-- PURL_RESTART (R283). -/
def execPurlRestart (p : ErtPkt) (s : State) : Host.Outcome State Fault Refusal := done (rowKind p 2 s)
/-- PURL_ABORT (R285). -/
def execPurlAbort (p : ErtPkt) (s : State) : Host.Outcome State Fault Refusal := done (rowKind p 3 s)
/-- DELIVER (R162). -/
def execDeliver (qpn : Nat) (s : State) : Host.Outcome State Fault Refusal := done (deliverNext qpn s)
/-- ACK_TIMER (R166). -/
def execAckTimer (qpn : Nat) (s : State) : Host.Outcome State Fault Refusal := done (ackDue qpn s)
/-- TINK (R168). -/
def execTink (qpn : Nat) (psn : BitVec 32) (s : State) : Host.Outcome State Fault Refusal := done (doTink qpn psn s)
/-- NO_PROGRESS_TIMEOUT (R168). -/
def execNoProgressTimeout (qpn : Nat) (s : State) : Host.Outcome State Fault Refusal := done (noProgress qpn s)
/-- RX_STALLED (R160). -/
def execRxStalled (tracker : Nat) (s : State) : Host.Outcome State Fault Refusal := done (rxStall tracker s)
/-- SICK_HOLD_EXPIRY (R169). -/
def execSickHoldExpiry (qpn path : Nat) (s : State) : Host.Outcome State Fault Refusal := done (holdEnds qpn path s)
/-- RETRY_DELAY_EXPIRY (R170). -/
def execRetryDelayExpiry (qpn : Nat) (psn : BitVec 32) (s : State) : Host.Outcome State Fault Refusal := done (retryNow qpn psn s)
/-- PAGE_HOLD_TIMEOUT (R173). -/
def execPageHoldTimeout (qpn : Nat) (psn : BitVec 32) (s : State) : Host.Outcome State Fault Refusal := 
  done (if (s.qp qpn).mode == .roce then rocePageHeld qpn (psn.setWidth 24) s else pageHeld qpn psn s)

/-- GRANT_RESEND (R196): a message's latest GRANT again. -/
def execGrantResend (tracker : Nat) (s : State) : Host.Outcome State Fault Refusal :=
  done (match Tab.get s.trackers tracker with
    | some t => if 0 < grantedAhead s t && grantPaced t.op && t.use != .roce && running s then sendGrant t s else s
    | none => s)

/-- GRANT_RECLAIM (R196): a silent message's granted-ahead bytes leave OUTSTANDING. -/
def execGrantReclaim (tracker : Nat) (s : State) : Host.Outcome State Fault Refusal :=
  done (updTracker tracker (fun t => if 0 < grantedAhead s t && running s then { t with reclaimed := true } else t) s)

/-- GRANT_ENGINE (R193). -/
def execGrantEngine (refill : Nat) (guarRefill : List (Nat × Nat)) (s : State) : Host.Outcome State Fault Refusal :=
  done (grantRun refill guarRefill s)

/-- EGRESS_PACKET_SELECT (R188). -/
def execEgressPacketSelect (lport refill : Nat) (s : State) : Host.Outcome State Fault Refusal := done (egressNext lport refill s)

/-! ### The commands of skeins and groups -/

/-- LAYER_OPEN (R214): the next triggered layer opens; where none can open any more, END goes. -/
def execLayerOpen (sq idx : Nat) (s : State) : Host.Outcome State Fault Refusal :=
  done (let s := skOpen sq idx s
        if running s then skEnd sq idx s else s)

/-- HELLO_TIMER (R257): a HELLO with ASK to each rank not yet heard. -/
def execHelloTimer (group : Nat) (s : State) : Host.Outcome State Fault Refusal :=
  let g := s.group group
  done (if g.st == .forming && running s then (unheard g).foldl (fun s r => sendHello group r true s) s else s)

/-- FORMATION_TIMEOUT (R258, R285). -/
def execFormationTimeout (group : Nat) (s : State) : Host.Outcome State Fault Refusal :=
  let g := s.group group
  done (if running s && g.st == .forming then groupFail group 4 (firstUnheard g) false s else s)

/-- The lowest rank from which a member awaits a message of a collective (R286). -/
def awaitedRank (g : Group) (k : Coll) (o : Op) : Nat :=
  let n := pcChunks o g.n
  let from_ (c : Nat) : List Nat :=
    let x := k.chunk c
    let t := treeOf g o c
    if chunkDone g o c x then []
    else
      (if pcReduces o && !viaSwitch g o then t.2.filter (fun r => !x.folded.contains r) else []) ++
      (match t.1 with | some p => if x.outGot && (!pcReduces o || x.upAcked) then [] else [p] | none => []) ++
      (t.2.filter (fun r => !x.ackDown.contains r))
  let all := (List.range n).flatMap from_
  if all.isEmpty && viaSwitch g o then 0x3FF else all.foldl min 1023

/-- PROGRESS_TIMEOUT (R286). -/
def execProgressTimeout (group seq : Nat) (s : State) : Host.Outcome State Fault Refusal :=
  let g := s.group group
  done (match s.coll group seq with
    | some (k, o) =>
      if g.st == .active && g.timeout ≠ 15 && !o.finished && running s then groupFail group 1 (awaitedRank g k o) false s else s
    | none => s)

/-- SLOT_ASSIGN (R277). -/
def execSlotAssign (group : Nat) (s : State) : Host.Outcome State Fault Refusal :=
  done (if (s.group group).st == .active && running s then slotsGive 144 group s else s)

/-- GROUP_FREE (R258): no started collective, slot or open tracker of the group remains. -/
def execGroupFree (group : Nat) (s : State) : Host.Outcome State Fault Refusal :=
  let g := s.group group
  let open_ := s.trackers.any (fun t => t.2.use == .purl && t.2.aux.getD 0 4096 == group)
  done (if running s && g.st == .draining && g.colls.isEmpty && !open_ then { s with groups := Tab.del s.groups group } else s)

end Sys2Proof.Machine
end

