-- ==== Sys2Proof/Machine/Submit.lean ====
section
/-! DEFINITION. Submission (03 R67-R82, 04 R112): doorbells, the fetch and its ROW check, and the checks of a
descriptor at its acceptance. -/

namespace Sys2Proof.Machine

/-! ### The fields that check 1 of R82 looks at -/

/-- The byte offset of a field, 0 for a field of W0 (R82; log 24). -/
def fieldOff (word lo : Nat) : Nat := if word = 0 then 0 else 8 * word + lo / 8

/-- The least offset whose test failed. -/
def firstBad (l : List (Nat × Bool)) : Option Nat :=
  (l.filter (·.2)).foldl (fun b e => match b with | none => some e.1 | some x => some (min x e.1)) none

/-- The opcodes of R79. -/
def knownOp (op : Nat) : Bool :=
  [0x00, 0x01, 0x02, 0x03, 0x10, 0x11, 0x12, 0x18, 0x19, 0x20, 0x21, 0x30, 0x31, 0x38, 0x40].contains op

/-- Whether EXT suits the opcode (R81). -/
def extLegal (op : Nat) (ext : Bool) : Bool :=
  if op = 0x20 || op = 0x21 || op = 0x38 then ext else if op = 0x19 then true else !ext

/-- Opcodes whose W5 holds GAUGE (R79). -/
def gaugeWord (op : Nat) : Bool := gaugeOp op || op == 0x18 || op == 0x19 || op == 0x30

/-- The output length of an operation with GAUGE (R233). -/
def Op.outLen (o : Op) : Nat :=
  let g := o.gauge
  if g.inF = g.outF then o.length else fmtBytes g.outF (fmtElems g.inF o.length)

/-- INV_KIND, PANEL and the RANGE of an `INVALIDATE` (R79). -/
def invKind (o : Op) : Nat := fld (o.w 2) 1 0
def invPanel (o : Op) : Nat := fld (o.w 2) 4 2
def invCva (o : Op) : Nat := dCva (o.w 3)

/-- The panel that holds a whole range (R126). -/
def rangePanel (c : Ctx) (cva len : Nat) : Option (Nat × Panel) :=
  match panelAt c cva, panelAt c (cva + len - 1) with
  | some a, some b => if a.1 == b.1 then some a else none
  | _, _ => none

/-- Input and output of this member, by operation (R262). -/
def collIn (o : Op) (g : Group) : Bool := pcOp o != 4 || g.rank == pcRoot o
def collOut (o : Op) (g : Group) : Bool := pcOp o != 2 || g.rank == pcRoot o
/-- Output length (R262). -/
def collOutLen (o : Op) (n : Nat) : Nat :=
  let e := pcElems o
  let out (x : Nat) : Nat := fmtBytes o.gauge.outF x
  match pcOp o with
  | 1 => out (e / max 1 n)
  | 3 => n * out e
  | _ => out e

/-- Whether a `COLLECTIVE`'s ranges overlap in a way R262 excludes. -/
def collOverlap (o : Op) (g : Group) : Bool :=
  let s := dCva (o.w 2)
  let d := dCva (o.w 3)
  let ol := collOutLen o g.n
  let same := s == d && o.length == ol && pcOp o == 0
  collIn o g && collOut o g && !same && overlaps s o.length d ol

/-- The trigger of a `TRIGGER_ARM` (R97). -/
def trgMarker (o : Op) : Bool := (o.w 2).getLsbD 0
def trgTag (o : Op) : BitVec 32 := dHi (o.w 2)

/-- Check 1 of R82 (R78-R81, R86, R94, R97, R126, R208, R210, R228, R259, R262): the first offending field. -/
def check1 (s : State) (sq : Nat) (o : Op) : Option Nat :=
  let op := o.opcode
  let w0 := o.w 0
  let len := o.length
  let g := o.gauge
  let grp := s.group (pcGroup o)
  let base0 := o.w 8
  firstBad (
    [(0, dQueue w0 != sq), (0, !knownOp op || !extLegal op (dExt w0)), (0, dImm w0 && op != 0x10 && op != 0x12),
     (0, op == 0x30 && !dSignal w0), (0, op == 0x38 && (dComplete w0 || dSignal w0)),
     (0, dSbWait w0 && (localSq s o.ctx (dSbQueue w0)).isNone),
     (0x30, dSignal w0 && !remoteSignal o && dLo (o.w 6) == 0), (0x30, remoteSignal o && dLo (o.w 6) != 0)] ++
    (match op with
     | 0x00 => [(10, len != 0)]
     | 0x02 => [(10, len % 8 != 0)]
     | 0x11 => [(10, len == 0)]
     | 0x12 => [(44, dWindow (o.w 5) != 0)]
     | 0x18 => [(10, len != 8), (32, dOff (o.w 4) % 8 != 0)]
     | 0x19 => [(10, len != (if dExt w0 then 16 else 8)), (32, dOff (o.w 4) % (if dExt w0 then 16 else 8) != 0)]
     | 0x20 => [(10, len != skNLayers o * skNBlk o * skBlock o), (16, dCva (o.w 2) % 8 != 0), (24, dCva (o.w 3) % 8 != 0),
                (72, skSrcStride o % 64 != 0), (79, skBlockLog2 o < 14 || 21 < skBlockLog2 o), (80, skDstStride o % 64 != 0),
                (104, skStatusOff o % 64 != 0)]
     | 0x21 => [(24, 0 < grp.n && collOverlap o grp), (76, 4 < pcOp o), (76, 3 ≤ pcOp o && pcRed o != 0),
                (78, pcRoot o != 0 && pcOp o != 2 && pcOp o != 4), (78, 0 < grp.n && grp.n ≤ pcRoot o)]
     | 0x38 => [(64, dQueue base0 != sq), (64, dExt base0), (64, [0x38, 0x31, 0x20, 0x21].contains (dOpcode base0)),
                (64, dRow base0 != (dRow w0 + 1) % 65536)]
     | 0x40 => [(16, invKind o == 3), (10, invKind o == 1 && len == 0),
                (24, invKind o == 1 && len != 0 && (rangePanel (s.ctx o.ctx) (invCva o) len).isNone)]
     | _ => []) ++
    [(24, (op == 0x01 || op == 0x03) && overlaps (dCva (o.w 2)) len (dCva (o.w 3)) o.outLen),
     (42, gaugeOp op && (13 ≤ g.inF || 13 ≤ g.outF)), (43, gaugeWord op && dPly (o.w 5) && (!gaugeOp op || op == 0x03))])

/-- The `MARKER_RANGE` tests that follow check 1 (R82, R99, R210). Bit 63 of a `SKEIN`'s W12, which R208 reserves beside
R210's test of it, counts as a bit of TRIG_BASE where TRIG_MODE is 1, and is ignored where it is 0 (DESIGN CHOICE, log 119). -/
def checkRange (o : Op) : Bool :=
  match o.opcode with
  | 0x31 => 2 ^ 63 ≤ (o.w 3).toNat
  | 0x38 => trgMarker o && 2 ^ 63 ≤ (o.w 3).toNat
  | 0x20 =>
    (skTrigMo o != 0 && (if skTrigMode o then (o.w 12).getLsbD 63 else 2 ^ 63 ≤ skTrigBase o + skNLayers o)) ||
      (skDmarkWin o != 0 && 2 ^ 63 ≤ skDmarkBase o + skNLayers o)
  | _ => false

/-- The bytes a stream must be a multiple of (R233, R264). -/
def wholeUnit (i o : Nat) : Nat :=
  if isMx i then tileBytes i else if isMx o then 256 * elemBytes i else elemBytes i

/-- The Gauge and Ply checks (R234): status and ERR_DETAIL. -/
def checkGauge (o : Op) : Option (Nat × Nat) :=
  let op := o.opcode
  let g := o.gauge
  if !gaugeOp op || op == 0x21 then none
  else if !pairOk g.inF g.outF then some (stGaugePair, g.inF + g.outF * 256)
  else
    let u := wholeUnit g.inF g.outF
    let len := if op = 0x20 then skBlock o else o.length
    if (g.inF != g.outF || g.ply || isMx g.inF) && len % u != 0 then some (stGaugeLength, u)
    else if g.ply && op == 0x11 && g.inF != g.outF then some (stPlyFormat, g.inF + 256)
    else
      let p := if op = 0x11 then g.inF else g.outF
      if g.ply && (plyFmt p).isNone then some (stPlyFormat, p) else none

/-- Status of a `COLLECTIVE` whose group is not ACTIVE or FORMING (R258, R264). -/
def groupCode : GroupState → Nat
  | .free => 0
  | .forming => 1
  | .active => 2
  | .failed => 3
  | .draining => 4

/-- The checks of R264. -/
def checkColl (s : State) (o : Op) : Option (Nat × Nat) :=
  if o.opcode != 0x21 then none
  else
    let n := pcGroup o
    let grp := s.group n
    let g := o.gauge
    let d := (pcSeq o + 2 ^ 20 - grp.nextSeq.toNat) % 2 ^ 20
    let mx := isMx g.inF || isMx g.outF
    let intIn := isInt g.inF
    let badFmt : Bool :=
      if pcReduces o then
        (if intIn then g.outF != 12 else isInt g.outF) ||
          (grp.switch && (!pairOk g.inF grp.wireFmt || !pairOk grp.wireFmt g.outF))
      else !pairOk g.inF g.outF
    let u := wholeUnit g.inF g.outF
    let u' := if pcOp o = 1 then u * max 1 grp.n else u
    if grp.slice != (s.ctx o.ctx).slice || grp.st == .free || grp.st == .draining then some (stCollGroup, n + groupCode grp.st * 4096)
    else if grp.st == .failed then some (stCollMemberLost, grp.lostRank % 1024 + grp.reason * 4096)
    else if 2 ^ 19 ≤ d then some (stCollSeq, grp.nextSeq.toNat)
    else if badFmt then some (stCollUnsupported, 42)
    else if g.ply && (pcReduces o || grp.switch) then some (stCollUnsupported, 43)
    else if g.ply && (plyFmt g.outF).isNone then some (stPlyFormat, g.outF)
    else if o.length % u' != 0 || (mx && o.length % u' != 0) then some (stCollLength, u')
    else if 2 ^ 20 < pcChunks o grp.n then some (stCollLength, 0)
    else none

/-! ### Data uses and markers -/

/-- A data range that a descriptor names: handle and its byte offset, the address's byte offset and word, CVA,
length, whether it is written, and whether it may lie in a REMOTE_WINDOW panel. -/
structure DataUse where
  handle : BitVec 32
  hOff : Nat
  aOff : Nat
  word : Nat
  cva : Nat
  len : Nat
  wr : Bool
  remote : Bool := false
  strict : Bool := false

/-- The data ranges of a descriptor (R79, R208, R259). A `SKEIN`'s source blocks are named by no address. -/
def Op.uses (s : State) (o : Op) : List DataUse :=
  let len := o.length
  let lo := dLo (o.w 4)
  let hi := dHi (o.w 4)
  let src (h : BitVec 32) (ho : Nat) (n : Nat) (r : Bool) : DataUse :=
    { handle := h, hOff := ho, aOff := 16, word := 2, cva := dCva (o.w 2), len := n, wr := false, remote := r }
  let dst (h : BitVec 32) (ho : Nat) (n : Nat) (r : Bool) : DataUse :=
    { handle := h, hOff := ho, aOff := 24, word := 3, cva := dCva (o.w 3), len := n, wr := true, remote := r }
  match o.opcode with
  | 0x01 => [src lo 32 len true, dst hi 36 len true]
  | 0x02 => [dst hi 36 len true]
  | 0x03 => [src lo 32 len true, dst hi 36 o.outLen true]
  | 0x10 => [src lo 32 len false]
  | 0x11 => [dst lo 32 o.outLen false]
  | 0x12 => [src lo 32 len false]
  | 0x19 =>
    if dExt (o.w 0) then
      [{ handle := dLo (o.w 12), hOff := 96, aOff := 88, word := 11, cva := dCva (o.w 11), len := 16, wr := true }]
    else []
  | 0x20 =>
    [{ handle := lo, hOff := 32, aOff := 32, word := 4, cva := 0, len := 0, wr := false, strict := true },
     src hi 36 (8 * skNBlk o) false, { src hi 36 (8 * skNBlk o) false with aOff := 24, word := 3, cva := dCva (o.w 3) }]
  | 0x21 =>
    let g := s.group (pcGroup o)
    (if collIn o g then [src lo 32 len false] else []) ++ (if collOut o g then [dst hi 36 (collOutLen o g.n) false] else [])
  | _ => []

/-- The markers that a descriptor waits on: one, or the source markers of a `SKEIN` (R88, R99, R212). -/
def Op.waitUses (o : Op) : List MarkUse :=
  match o.opcode with
  | 0x31 => [{ handle := dLo (o.w 2), hOff := 16, oOff := 20, off := fld (o.w 2) 63 32 * 16 }]
  | 0x38 => if trgMarker o then [{ handle := dLo (o.w 4), hOff := 32, oOff := 36, off := fld (o.w 4) 63 32 * 16 }] else []
  | 0x20 =>
    if skTrigMo o = 0 then []
    else
      (List.range (if skTrigMode o then skNLayers o else 1)).map (fun l =>
        { handle := skTrigMo o, hOff := 88, oOff := 92, off := skTrigOff o + 16 * l })
  | _ => []

/-- All markers of a descriptor. -/
def Op.marks (o : Op) : List MarkUse := o.waitUses ++ o.sigUse.toList

/-- The object that an `INVALIDATE` of kind 2 names. -/
def Op.invMo (o : Op) : Option (BitVec 32) := if o.opcode == 0x40 && invKind o == 2 then some (dLo (o.w 4)) else none

/-- Check 2 of R82 (R30, R56, R126): the first handle that is stale. -/
def check2 (s : State) (o : Op) : Option Nat :=
  firstBad (
    (o.uses s).map (fun u => (u.hOff, !mineMo s o.ctx u.handle)) ++
    o.marks.map (fun m => (m.hOff, !mineMo s o.ctx m.handle ||
      (match (s.moOf m.handle).imported with | some r => !moValid s r.mo | none => false))) ++
    (o.invMo.toList.map (fun h => (32, !mineMo s o.ctx h || (s.moOf h).ctx != o.ctx))))

/-- Check 3 of R82 (R41, R44, R48, R120): the first address or offset field that fails. -/
def check3 (s : State) (o : Op) : Option Nat :=
  firstBad (
    (o.uses s).map (fun u =>
      let m := s.moOf u.handle
      let t := (moPanel s u.handle).targetCode
      (u.aOff, !m.rights.getLsbD (if u.wr then 1 else 0) || (u.len != 0 && (m.ctx != o.ctx || !inside u.cva u.len m.base m.len)) ||
        (t == 2 && !u.remote) || (u.strict && t != 0 && t != 1))) ++
    o.marks.map (fun k =>
      let m := s.moOf k.handle
      (k.oOff, !m.rights.getLsbD 5 || decide (m.len < k.off + 16) || !markTarget s k.handle)) ++
    (o.invMo.toList.map (fun h => (32, (liveRing s h).isSome))))

/-- Whether a data use lies in a REMOTE_WINDOW panel (R120). -/
def useRemote (s : State) (u : DataUse) : Bool := u.remote && (moPanel s u.handle).targetCode == 2

/-- The QP that a descriptor's work runs on: of W5, or of the panel of a remote address (R120). -/
def Op.names (s : State) (o : Op) : Option (Nat × Nat) :=
  if remoteSignal o || (namesQp o.opcode && o.opcode != 0x30) || (o.opcode == 0x38 && !trgMarker o) then some (dQpn (o.w 5), 40)
  else ((o.uses s).find? (useRemote s)).map (fun u => ((moPanel s u.handle).qpn, u.aOff))

/-- Whether a RoCEv2 QP cannot carry an operation (R57, R80, R182, R184). -/
def roceCannot (s : State) (o : Op) : Bool :=
  let g := o.gauge
  let rem := (o.uses s).find? (useRemote s)
  let read := o.opcode == 0x11 || (rem.map (fun u => !u.wr)).getD false
  o.opcode == 0x20 || remoteSignal o || (gaugeWord o.opcode && dPly (o.w 5)) || (o.opcode == 0x19 && dExt (o.w 0)) ||
    (read && g.inF != g.outF) ||
    ((o.opcode == 0x10 || o.opcode == 0x12 || (rem.map (·.wr)).getD false) && decide (2 ^ 31 < o.outLen))

/-- Check 5 of R82 (R100). -/
def check5 (s : State) (o : Op) : Option (Nat × Nat) :=
  match o.names s with
  | none => none
  | some (n, off) =>
    match Tab.get s.qps n with
    | none => some (stProtection, off)
    | some q =>
      if (s.ctx q.ctx).slice != (s.ctx o.ctx).slice then some (stProtection, off)
      else if q.mode == .roce && roceCannot s o then some (stUnsupportedQp, 0)
      else none

/-! ### Translation at fetch (R112) -/

/-- A step of the translations at fetch, in the order of the address fields. -/
inductive XTask where
  | data (u : DataUse)
  | mark (m : MarkUse)

/-- What the translations at fetch gather. -/
structure XGot where
  exts : List Ext := []
  sig : Option MarkRef := none
  marks : List MarkRef := []
  uses : List TUse := []

/-- How the translations at fetch end: gathered; failed at a field with that result, at the completion marker's
own where `own`; or waiting. -/
inductive XEnd where
  | ok (g : XGot)
  | fail (off : Nat) (r : TrRes) (own : Bool)
  | wait

/-- Translate the first extent of each address, and the markers (R112). -/
def xlateFirst (purp : XPurp) (st : Stream) (ctx : Nat) : List XTask → XGot → State → XEnd × State
  | [], g, s => (.ok g, s)
  | .data u :: t, g, s =>
    match translateOr purp st { ctx := ctx, cva := u.cva, len := u.len, kind := if u.wr then .write else .read } s with
    | (.ok e, s) =>
      xlateFirst purp st ctx t { g with
        exts := g.exts ++ [{ e with addr := u.word }], uses := { ctx := ctx, panel := e.panel, tgen := e.tgen } :: g.uses } s
    | (.fail r, s) => (.fail u.aOff r false, s)
    | (.wait, s) => (.wait, s)
  | .mark m :: t, g, s =>
    match resolveMark purp st m.handle m.off s with
    | (.ok r u, s) =>
      xlateFirst purp st ctx t { g with
        sig := if m.sig then some r else g.sig, marks := if m.sig then g.marks else g.marks ++ [r], uses := u :: g.uses } s
    | (.fail r, s) => (.fail m.oOff r m.sig, s)
    | (.wait, s) => (.wait, s)

/-- The bytes of an address that its stored extents cover. -/
def covered (g : XGot) (u : DataUse) : Nat := ((g.exts.filter (fun e => e.addr == u.word)).map (·.len)).foldl (· + ·) 0

/-- Further extents, up to four in all: of the first address that needs more, then of the next (R112). -/
def xlateMore (purp : XPurp) (st : Stream) (ctx : Nat) (us : List DataUse) : Nat → XGot → State → XEnd × State
  | 0, g, s => (.ok g, s)
  | fuel + 1, g, s =>
    match us.find? (fun u => decide (covered g u < u.len)) with
    | none => (.ok g, s)
    | some u =>
      let c := covered g u
      match translateOr purp st { ctx := ctx, cva := u.cva + c, len := u.len - c, kind := if u.wr then .write else .read } s with
      | (.ok e, s) =>
        xlateMore purp st ctx us fuel { g with
          exts := g.exts ++ [{ e with addr := u.word }], uses := { ctx := ctx, panel := e.panel, tgen := e.tgen } :: g.uses } s
      | (.fail r, s) => (.fail u.aOff r false, s)
      | (.wait, s) => (.wait, s)

/-- Put a task in the order of its field. -/
def insertTask (k : Nat) (t : XTask) : List (Nat × XTask) → List (Nat × XTask)
  | [] => [(k, t)]
  | x :: r => if x.1 ≤ k then x :: insertTask k t r else (k, t) :: x :: r

/-- The translations of a descriptor at its fetch. -/
def xlateDesc (purp : XPurp) (st : Stream) (o : Op) (s : State) : XEnd × State :=
  let us := (o.uses s).filter (fun u => u.len != 0)
  let ts := (us.map (fun u => (u.aOff, XTask.data u)) ++ o.marks.map (fun m => (m.oOff, XTask.mark m))).foldl
    (fun l e => insertTask e.1 e.2 l) []
  match xlateFirst purp st o.ctx (ts.map (·.2)) {} s with
  | (.ok g, s) => xlateMore purp st o.ctx us (4 - g.exts.length) g s
  | r => r

/-! ### Acceptance (R82) -/

/-- How the checks of a descriptor end: passed, with what the descriptor holds; failed with a status and
ERR_DETAIL, with no marker written where `own`; or waiting for a translation. -/
inductive Chk where
  | ok (o : Op)
  | bad (status detail : Nat) (own : Bool)
  | wait

/-- Status and ERR_DETAIL of a translation that fails at fetch (R110, R112). -/
def fetchFail (off : Nat) (r : TrRes) : Nat × Nat :=
  match r with
  | .fail st => (st, off)
  | .chartFailed g => (stPartial, partialDetail caChartRead 0 (32 + g))
  | _ => (stPartial, partialDetail caFaultFailed 0 0x3F)

/-- MWAIT, the seventh quota of R352. -/
def mwaitQuota (s : State) (sl : Nat) : Nat := (s.slice sl).quota.getD 6 0

/-- The handles of a descriptor, each a use of its object (R42). -/
def Op.handles (s : State) (o : Op) : List (BitVec 32) :=
  (((o.uses s).map (·.handle) ++ o.marks.map (·.handle)).filter (fun h => o.invMo != some h)).eraseDups

/-- The checks of R82 that need no translation, in order: the status and ERR_DETAIL of the first that fails. -/
def checkStatic (sq : Nat) (o : Op) (s : State) : Option (Nat × Nat) :=
  (check1 s sq o).map (fun k => (stMalformed, k)) <|>
  (if checkRange o then some (stMarkerRange, 0) else none) <|>
  checkGauge o <|> checkColl s o <|>
  (check2 s o).map (fun k => (stStaleHandle, k)) <|>
  (if 1 < ((o.uses s).filter (useRemote s)).length then some (stMalformed, 24) else none) <|>
  (check3 s o).map (fun k => (stProtection, k))

/-- The translations of R112, and the checks of R82 that follow them. -/
def checkRest (purp : XPurp) (sq : Nat) (o : Op) (s : State) : Chk × State :=
  match xlateDesc purp (.sq (sq % 65536)) o s with
  | (.wait, s) => (.wait, s)
  | (.fail off r own, s) => let f := fetchFail off r; (.bad f.1 f.2 own, s)
  | (.ok g, s) =>
    match check5 s o with
    | some (st, d) => (.bad st d false, s)
    | none =>
      if o.opcode == 0x20 && skTrigMo o != 0 && decide (mwaitQuota s (s.ctx o.ctx).slice < skNLayers o) then
        (.bad stQuota 0 false, s)
      else
        let r := (o.uses s).find? (useRemote s)
        (.ok { o with
          exts := g.exts, sig := g.sig, wait := if o.opcode == 0x20 then none else g.marks.head?, tuses := g.uses
          qpn := if o.opcode == 0x38 then none else (o.names s).map (·.1)
          asRead := (r.map (fun u => !u.wr)).getD false, asWrite := (r.map (·.wr)).getD false
          win := (r.map (fun u => (moPanel s u.handle).window)).getD 0
          remOff := (r.map (fun u => u.cva - (moPanel s u.handle).base)).getD 0
          skein := { o.skein with marks := if o.opcode == 0x20 then g.marks else [] } }, s)

/-- Put a descriptor into the store. -/
def putOp (sq idx : Nat) (o : Op) (s : State) : State := { s with ops := Tab.put s.ops (opKey sq idx) o }

/-- Go on with a descriptor that is being accepted (R82, R34, R76): once its translations are found it holds their uses
(R112). -/
def acceptGo (sq idx : Nat) (s : State) : State :=
  match s.op sq idx with
  | none => s
  | some o =>
    let c := s.ctx o.ctx
    if o.stage != .accepting || o.done || o.ending.isSome then s
    else if o.fail.isSome then failGo sq idx s
    else if c.st == .lost then failDesc sq idx stContextLost c.lostCause false s
    else if o.flush then failDesc sq idx stFlushed 0 false s
    else
      match o.stale with
      | some k => failDesc sq idx stStaleHandle k false s
      | none =>
        match checkRest (.accept sq idx) sq o s with
        | (.wait, s) => s
        | (.bad st d own, s) => failDesc sq idx st d own s
        | (.ok o, s) => o.tuses.foldl (fun s u => addUse u s) (putOp sq idx { o with stage := .ready } (forgetSeen (.accept sq idx) s))

/-- Accept the descriptor at an index (R72): it enters the store; the checks that need no translation are made at once, and
one that passes them holds the uses of its handles from its fetch on (R42). -/
def acceptDesc (sq idx : Nat) (ws : List Word) (s : State) : State :=
  let q := s.sq sq
  let c := s.ctx q.ctx
  let o : Op :=
    { ws := ws, stage := .accepting, ctx := q.ctx, epoch := c.epoch, gen := (s.slice c.slice).gen, slots := ws.length / 8,
      flush := q.flush, since := s.ticks }
  -- the QP that it names frogs it from here on (R145)
  let named := if o.opcode == 0x38 then none else (o.names s).map (·.1)
  let own (n : Nat) : Bool := match Tab.get s.qps n with | some q => (s.ctx q.ctx).slice == c.slice | none => false
  let o := { o with qpn := named.filter own }
  let s := putOp sq idx o (count c.slice 4 s)
  if c.st == .lost || o.flush then acceptGo sq idx s
  else
    match checkStatic sq o s with
    | some (st, d) => failDesc sq idx st d false s
    | none =>
      let hs := o.handles s
      acceptGo sq idx (hs.foldl (fun s h => useMo h s) (putOp sq idx { o with checked := true, mos := hs } s))

/-! ### Doorbells (R67-R71) -/

/-- Whether a slice's pages are active on a link (R298, R299). -/
def pageActive (s : State) (link slice : Nat) : Bool :=
  let x := s.slice slice
  x.st == .active && x.link == link

/-- Count a write that BAR 0 drops (R299). -/
def dropWrite (s : State) : State := count 520 1 s

/-- A doorbell whose context takes it (R67). -/
def dbCtxOk (s : State) (ctx slice : Nat) : Bool :=
  let c := s.ctx ctx
  c.slice == slice && (c.st == .active || c.st == .lost)

/-- Move a HELD queue back to ACTIVE (R76). -/
def resumeSq (n : Nat) (s : State) : State :=
  if (s.sq n).st == .held then
    writeShadow n (s.updSq n (fun q => { q with st := .active, cause := .none, fetch := q.fetch.stopped, flush := false }))
  else s

/-- An accepted SQ doorbell (R70). -/
def sqDoorbell (n : Nat) (pi : BitVec 24) (s : State) : State :=
  let q := s.sq n
  let ahead := ringDiff pi q.fi
  let known := ringDiff q.pi q.fi
  let s := if q.st == .held && (q.cause == .doorbellAhead || q.cause == .ringRead) then resumeSq n s else s
  if q.st == .closed then s
  else if 2 ^ 23 ≤ ahead || ahead ≤ known then pumpFetch n s
  else if q.size < ahead then holdSq n .doorbellRange s
  else
    let s := s.updSq n (fun q => { q with pi := pi })
    pumpFetch n (if q.st == .held && q.cause == .doorbellRange then resumeSq n s else s)

/-- What a doorbell page write meets: a running block, one that records, or one that drops (R299, R405, R409). -/
def dbGate (link slice : Nat) (s : State) (k : Bool → State → State) : State :=
  if s.fc.dstate == .halted || !pageActive s link slice then dropWrite s else k (s.fc.dstate == .reinit) s

/-- Count a doorbell that R67 drops. -/
def dbDrop (slice : Nat) (s : State) : State := count slice 0 s

/-- SSU_SQ_DB (R70). -/
def execSsuSqDb (w : DbWrite) (s : State) : Host.Outcome State Fault Refusal :=
  done (dbGate w.link w.slice s (fun recording s =>
    let n := fld w.value 15 0
    let pi := BitVec.ofNat 24 (fld w.value 39 16)
    let q := s.sq n
    if !w.aligned8 || q.st == .free || !dbCtxOk s q.ctx w.slice then dbDrop w.slice s
    else if recording then { s with heldSq := Tab.put s.heldSq n pi }
    else sqDoorbell n pi s))

/-- An accepted CQ doorbell (R68). -/
def cqDoorbell (n : Nat) (c : BitVec 24) (arm : Bool) (slice : Nat) (s : State) : State :=
  let q := s.cq n
  if ringDiff c q.c ≤ ringDiff q.w q.c then
    cqFlush n (s.updCq n (fun q => { q with c := c, arm := q.arm || arm }))
  else dbDrop slice s

/-- SSU_CQ_DB (R68). -/
def execSsuCqDb (w : DbWrite) (s : State) : Host.Outcome State Fault Refusal :=
  done (dbGate w.link w.slice s (fun recording s =>
    let n := fld w.value 15 0
    let c := BitVec.ofNat 24 (fld w.value 39 16)
    let arm := w.value.getLsbD 40
    let q := s.cq n
    if !w.aligned8 || !q.active || !dbCtxOk s q.ctx w.slice then dbDrop w.slice s
    else if recording then { s with heldCq := Tab.put s.heldCq n (c, arm || ((Tab.get s.heldCq n).map (·.2)).getD false) }
    else cqDoorbell n c arm w.slice s))

/-- SSU_CQ_NOTICE as a read of a slice's doorbell page finds it (R69). -/
def cqNoticeReg (s : State) (slice : Nat) : Nat :=
  if !running s then 0
  else
    match (s.cqs.filter (fun e => e.2.active && e.2.notice && (s.ctx e.2.ctx).slice == slice)).foldl
        (fun b e => match b with | none => some e.1 | some m => some (min m e.1)) none with
    | some n => n + 2 ^ 16
    | none => 0

/-- Clear a CQ-full notice of a slice's CQ (R69). -/
def noticeAck (n slice : Nat) (s : State) : State :=
  let q := s.cq n
  if q.active && (s.ctx q.ctx).slice == slice then s.updCq n (fun q => { q with notice := false }) else s

/-- SSU_CQ_NOTICE_ACK (R69). -/
def execSsuCqNoticeAck (w : DbWrite) (s : State) : Host.Outcome State Fault Refusal :=
  done (dbGate w.link w.slice s (fun recording s =>
    let n := fld w.value 15 0
    if !w.aligned8 then dbDrop w.slice s
    else if recording then { s with heldAck := s.heldAck ++ [(n, w.slice)] }
    else noticeAck n w.slice s))

/-- A push doorbell that passed R67 (R71). A queue without room in the store takes the ring path (R91). -/
def pushDoorbell (n : Nat) (ws : List Word) (recording : Bool) (s : State) : State :=
  let w0 := ws.getD 0 0
  let q := s.sq n
  let rel := (dRow w0 + 65536 - q.fi.toNat % 65536) % 65536
  if 2 ^ 15 ≤ rel then s
  else
    let pi := q.fi + BitVec.ofNat 24 rel + 1
    if recording then { s with heldSq := Tab.put s.heldSq n pi }
    else if q.st == .active && q.pi == q.fi && rel == 0 && !dExt w0 && q.fetch == .idle && storeRoom s n && admitted (s.ctx q.ctx) then
      let idx := q.fi.toNat
      let s := s.updSq n (fun q => { q with pi := q.fi + 1, fi := q.fi + 1 })
      shadowIfDue n (acceptDesc n idx (ws.take 8) s)
    else sqDoorbell n pi s

/-- SSU_PUSH (R71). -/
def execSsuPush (w : PushWrite) (s : State) : Host.Outcome State Fault Refusal :=
  done (dbGate w.link w.slice s (fun recording s =>
    let n := dQueue (w.words.getD 0 0)
    let q := s.sq n
    if !w.aligned64 || w.words.length ≠ 8 then count w.slice 1 s
    else if q.st == .free || !dbCtxOk s q.ctx w.slice then dbDrop w.slice s
    else pushDoorbell n w.words recording s))

/-! ### Ring reads (R72-R75) -/

/-- Free the outstanding requests of a purpose, at most `k` of them. -/
def freeReqs (p : Purpose) (k : Nat) (s : State) : State :=
  let ms := s.mods.flatMap (fun m => (m.2.reqs.filter (fun r => r.2.purp == p)).map (fun r => (m.1, r.1)))
  let ls := s.links.flatMap (fun l => (l.2.reqs.filter (fun r => r.2.purp == p)).map (fun r => (l.1, r.1)))
  let s := (ms.take k).foldl (fun s x => s.updMod x.1 (fun m => { m with reqs := Tab.del m.reqs x.2 })) s
  endUses p ((ls.take (k - ms.length)).foldl (fun s x => freeTag x.1 x.2 s) s)

/-- ROW of the first slot (R72). -/
def rowHead (ws : List Word) (f : BitVec 24) : Bool := dRow (ws.getD 0 0) == f.toNat % 65536

/-- The ROW check of what was read (R72): of both slots where both were. -/
def rowOk (ws : List Word) (f : BitVec 24) : Bool :=
  rowHead ws f && (!dExt (ws.getD 0 0) || ws.length < 16 || dRow (ws.getD 8 0) == (f + 1).toNat % 65536)

/-- Data whose first slot matches belongs to two slots, of which only one was read (R72). -/
def wantsSecond (ws : List Word) : Bool := dExt (ws.getD 0 0) && decide (ws.length < 16)

/-- Whether a queue takes what its ring reads bring (R76). -/
def sqFetches (q : Sq) : Bool := q.st == .active || (q.st == .closed && !q.abort)

/-- Take matching data at FI (R72, R81): where the second slot was not read, both are read once PI announces it. -/
def takeSlots (n : Nat) (ws : List Word) (s : State) : State :=
  let q := s.sq n
  if wantsSecond ws then pumpFetch n (s.updSq n (fun q => { q with fetch := .needSecond }))
  else
    let ws := if dExt (ws.getD 0 0) then ws.take 16 else ws.take 8
    let idx := q.fi.toNat
    let s := touchSq n (s.updSq n (fun q => { q with fi := q.fi + BitVec.ofNat 24 (ws.length / 8), fetch := .idle }))
    let s := acceptDesc n idx ws s
    let s := if (s.sq n).fi == (s.sq n).pi then s.updSq n (fun q => { q with flush := false }) else s
    pumpFetch n (shadowIfDue n s)

/-- A ring read cannot be issued, or fails: the queue is held (R74). -/
def ringFailed (n : Nat) (poison : Bool) (s : State) : State :=
  let s := forgetSeen (.ring n) (s.updSq n (fun q => { q with fetch := .idle }))
  holdSq n .ringRead (if poison then contextLost (s.sq n).ctx 3 s else s)

/-- Read the slots at FI again: eight re-reads (R72), once their addresses translate (R74). -/
def issueRereads (n slots : Nat) (s : State) : State :=
  match ringXlate n (ringSlots (slots = 2)) s with
  | (.ok es, s) =>
    let s := (List.range 8).foldl (fun s _ => ringIssue n es s) (forgetSeen (.ring n) s)
    countBy (s.ctx (s.sq n).ctx).slice 5 8 (s.updSq n (fun q => { q with fetch := .reread slots 0 }))
  | (.fail, s) => ringFailed n false s
  | (.wait, s) => s.updSq n (fun q => { q with fetch := .rereadDue slots })

/-- A re-read of one slot shows a descriptor of two: its second slot is read, and the re-read is judged on both (R72). -/
def rereadSecond (n : Nat) (s : State) : State :=
  match ringXlate n (ringSlots true) s with
  | (.ok es, s) => ringIssue n es (forgetSeen (.ring n) s)
  | (.fail, s) => ringFailed n false (freeReqs (.ring n) 32 s)
  | (.wait, s) => (freeReqs (.ring n) 32 s).updSq n (fun q => { q with fetch := .needSecond })

/-- What waits for a translation of a queue's ring goes on (R74, R114). -/
def ringResume (n : Nat) (s : State) : State :=
  match (s.sq n).fetch with
  | .rereadDue k =>
    if !running s then s
    else if sqFetches (s.sq n) then issueRereads n k s
    else forgetSeen (.ring n) (s.updSq n (fun q => { q with fetch := .idle }))
  | _ => pumpFetch n s

/-- A ring read of a queue that fetches no more returns: its data is not used (R76). Poison still loses the context (R74). -/
def ringDropped (n k : Nat) (r : RingRead) (s : State) : State :=
  let s := (freeReqs (.ring n) k s).updSq n (fun q => { q with fetch := .idle })
  match r with
  | .poison => contextLost (s.sq n).ctx 3 s
  | _ => s

/-- DESCRIPTOR_FETCH (R72, R74): the ring read of slot FI returns. -/
def execDescriptorFetch (sq : Nat) (r : RingRead) (s : State) : Host.Outcome State Fault Refusal :=
  done (
    match (s.sq sq).fetch with
    | .reading k =>
      if !running s then s
      else if !sqFetches (s.sq sq) then ringDropped sq k r s
      else
        match r with
        | .words ws =>
          if ws.length ≠ 8 * k then s
          else
            let s := freeReqs (.ring sq) k s
            if rowOk ws (s.sq sq).fi then takeSlots sq ws s else issueRereads sq k s
        | .poison => ringFailed sq true (freeReqs (.ring sq) k s)
        | _ => ringFailed sq false (freeReqs (.ring sq) k s)
    | _ => s)

/-- The data of a re-read: the first that matches decides; the eighth mismatch holds the queue (R72). -/
def rereadData (sq slots seen : Nat) (ws : List Word) (s : State) : State :=
  let q := s.sq sq
  if ws.length ≠ 8 * slots && ws.length ≠ 16 then s
  else if rowHead ws q.fi && wantsSecond ws then
    if ringDiff q.pi q.fi < 2 then takeSlots sq ws (freeReqs (.ring sq) 32 s)
    else rereadSecond sq (freeReqs (.ring sq) slots s)
  else if rowOk ws q.fi then takeSlots sq ws (freeReqs (.ring sq) 32 s)
  else
    let s := freeReqs (.ring sq) (ws.length / 8) s
    if 7 ≤ seen then holdSq sq .doorbellAhead (freeReqs (.ring sq) 32 (s.updSq sq (fun q => { q with fetch := .idle })))
    else s.updSq sq (fun q => { q with fetch := .reread slots (seen + 1) })

/-- ROW_REREAD (R72, R74): a re-read returns; the first that matches or fails decides. -/
def execRowReread (sq : Nat) (_k : Nat) (r : RingRead) (s : State) : Host.Outcome State Fault Refusal :=
  done (
    match (s.sq sq).fetch with
    | .reread slots seen =>
      if !running s then s
      else if !sqFetches (s.sq sq) then ringDropped sq 32 r s
      else
        match r with
        | .words ws => rereadData sq slots seen ws s
        | .poison => ringFailed sq true (freeReqs (.ring sq) 32 s)
        | _ => ringFailed sq false (freeReqs (.ring sq) 32 s)
    | _ => s)

end Sys2Proof.Machine
end

