-- ==== Sys2Proof/Machine/Start.lean ====
section
/-! DEFINITION. The start of descriptors (03 R85-R101, 04 R127-R129, 07 R211-R213, 09 R261) and the completion of
operations (R96). -/

namespace Sys2Proof.Machine

/-! ### Start conditions -/

/-- Whether a descriptor may pin a QP (R419): at most 15,360 are pinned. -/
def canPin (s : State) (n : Nat) : Bool :=
  qpPinned s n || decide ((s.qps.filter (fun e => qpPinned s e.1)).length < 15360)

/-- Count once that a descriptor's start is delayed. -/
def delayStart (sq idx set i : Nat) (s : State) : State :=
  match s.op sq idx with
  | none => s
  | some o => if o.delayed then s else count set i (s.updOp sq idx (fun o => { o with delayed := true }))

/-- The entries of the marker-wait table that descriptors hold (R90). -/
def mwaitHeld (s : State) (f : Op → Bool) : Nat :=
  (s.ops.map (fun e => if f e.2 && !e.2.done && e.2.woke.isNone then e.2.mwait else 0)).foldl (· + ·) 0

/-- The entries free to a slice: within its quota and the table's 65,536 (R90). -/
def mwaitFree (s : State) (sl : Nat) : Nat :=
  min (65536 - mwaitHeld s (fun _ => true)) (mwaitQuota s sl - mwaitHeld s (fun o => (s.ctx o.ctx).slice == sl))

/-- The `SKEIN`s that wait for entries, the oldest first (R213). -/
def skeinsWaiting (s : State) : List (Nat × Op) :=
  (s.ops.filter (fun e => !e.2.done && e.2.opcode == 0x20 && e.2.stage == .waiting)).insertionSort (fun a b => a.2.since ≤ b.2.since)

/-- A descriptor asks for entries: first each waiting `SKEIN` claims what is free to its slice, unless the descriptor is older
and has been waiting itself (R213). -/
def skeinClaims (o : Op) (s : State) : State :=
  ((skeinsWaiting s).filter (fun e => !(o.delayed && decide (o.since < e.2.since)))).foldl (fun s e =>
    match Tab.get s.ops e.1 with
    | none => s
    | some k =>
      let n := min (skNLayers k - k.mwait) (mwaitFree s (s.ctx k.ctx).slice)
      { s with ops := Tab.put s.ops e.1 { k with mwait := k.mwait + n } }) s

/-- What a descriptor's QP makes of it (R145, R419): it runs; it stays unstarted; or the QP frogs it. -/
inductive QpGate where
  | run
  | hold
  | pin
  | frog (code : Nat)
  deriving DecidableEq, Repr

/-- The gate of a descriptor's QP. -/
def qpGate (s : State) (o : Op) : QpGate :=
  match o.qpn with
  | none => .run
  | some n =>
    match (s.qp n).st with
    | .active => if canPin s n then .run else .pin
    | .held => .hold
    | st => .frog (qpStateCode st)

/-- Start a descriptor that may start: a scoreboard wait without its queue, a handle that an `INVALIDATE` ahead
retired, and the QP come first (R86, R129, R145). -/
def startGate (sq idx : Nat) (o : Op) (go : State → State) (s : State) : State :=
  if !admitted (s.ctx o.ctx) then s
  else if dSbWait (o.w 0) && (localSq s o.ctx (dSbQueue (o.w 0))).isNone then completeOp sq idx stMalformed 0 s
  else
    match o.stale, qpGate s o with
    | some off, _ => completeOp sq idx stStaleHandle off s
    | none, .run => go s
    | none, .hold => s
    | none, .pin => delayStart sq idx (s.ctx o.ctx).slice 26 s
    | none, .frog code => completeOp sq idx stFlushed code s

/-! ### The scheduler (R91, R355) -/

/-- The condition of a descriptor's own opcode under which it can start: a `MARKER_WAIT` is satisfied or has failed (R85), a
`MARKER_SIGNAL` has no earlier descriptor unfinished (R89), a `COLLECTIVE` has its turn (R261), an `INVALIDATE` its
generation (R127). -/
def opReady (s : State) (sq idx : Nat) (o : Op) : Bool :=
  match o.opcode with
  | 0x30 => earlierDone s sq idx
  | 0x31 =>
    (match o.woke, o.wait with
      | some _, _ => true
      | none, some r => o.stage != .waiting && (match waitState (markerAt s r.key) (o.w 3).toNat with | .pending => !markLive s r | _ => true)
      | none, none => false)
  | 0x20 => skTrigMo o == 0 || decide (skNLayers o ≤ o.mwait + mwaitFree s (s.ctx o.ctx).slice)
  | 0x21 =>
    let g := s.group (pcGroup o)
    g.st != .forming && (g.st != .active || (pcSeq o == g.nextSeq.toNat && decide (g.colls.length < 16)))
  | 0x40 =>
    invKind o == 2 || canInvalidate s o.ctx (if invKind o = 0 then invPanel o
      else ((rangePanel (s.ctx o.ctx) (invCva o) o.length).map (·.1)).getD 0)
  | _ => true

/-- Whether a queue is runnable: its next descriptor could start now. -/
def sqRunnable (s : State) (sq : Nat) : Bool :=
  (sqOps s sq).any (fun e =>
    let idx := e.1 % 16777216
    mayStart s sq idx && admitted (s.ctx e.2.ctx) && opReady s sq idx e.2 &&
      (match qpGate s e.2 with | .hold => false | .pin => false | _ => true))

/-- The runnable queues of a slice. -/
def runnableSqs (s : State) (sl : Nat) : List Nat :=
  (s.sqs.filter (fun e => (s.ctx e.2.ctx).slice == sl && e.2.st != .free && sqRunnable s e.1)).map (·.1)

/-- The slices with runnable queues. -/
def runnableSlices (s : State) : List Nat := (s.slices.map (·.1)).filter (fun sl => !(runnableSqs s sl).isEmpty)

/-- Begin a round where no slice with a runnable queue has credit left: each of them may start SCHED_WEIGHT descriptors in it,
and a slice without a runnable queue earns no credit (R355). -/
def newRound (s : State) : State :=
  let rs := runnableSlices s
  if rs.any (fun sl => decide (0 < (s.slice sl).credit)) then s
  else { s with slices := Tab.mapV s.slices (fun sl x => { x with credit := if rs.contains sl then max 1 (x.quota.getD 10 0) else 0 }) }

/-- Whether it is a queue's turn (R355): its slice has credit in this round, and it is the next runnable queue of the slice
after the one served last. A queue that is not runnable has nothing to start. -/
def schedTurn (s : State) (sq : Nat) : Bool :=
  if !sqRunnable s sq then true
  else
    let sl := (s.ctx (s.sq sq).ctx).slice
    let s := newRound s
    let qs := runnableSqs s sl
    let last := (s.slice sl).lastSq
    let next := ((qs.find? (fun n => decide (last < n))) <|> qs.head?)
    decide (0 < (s.slice sl).credit) && next == some sq

/-- Charge a start to its slice and queue, where the descriptor did start or end. -/
def schedTake (sq idx : Nat) (before s : State) : State :=
  let went : Bool := match s.op sq idx with
    | some o => o.done || o.stage == .running || o.ending.isSome
    | none => true
  if !(went && sqRunnable before sq) then s
  else
    let sl := (before.ctx (before.sq sq).ctx).slice
    let c := ((newRound before).slice sl).credit
    { s with slices := Tab.mapV s.slices (fun n x =>
        if n = sl then { x with credit := c - 1, lastSq := sq } else { x with credit := ((newRound before).slice n).credit }) }

/-- A command that starts a descriptor of an opcode: without effect unless the descriptor is next to start, its conditions
hold (R85), and the scheduler's choice has come to its queue (R355). -/
def starting (sq idx op : Nat) (go : Op → State → State) (s : State) : State :=
  match s.op sq idx with
  | none => s
  | some o =>
    if o.opcode == op && mayStart s sq idx && schedTurn s sq then schedTake sq idx s (startGate sq idx o (go o) s) else s

/-! ### INVALIDATE (R126-R129) -/

/-- The panel and pages of an `INVALIDATE` of kind 0 or 1 (R126): the range widened to whole pages. -/
def invScope (s : State) (o : Op) : Nat × Option (Nat × Nat) :=
  if invKind o = 0 then (invPanel o, none)
  else
    match rangePanel (s.ctx o.ctx) (invCva o) o.length with
    | some (i, p) => (i, some ((invCva o - p.base) >>> p.shift, (invCva o + o.length - 1 - p.base) >>> p.shift))
    | none => (0, some (1, 0))

/-- The byte offset at which a descriptor names a handle, with the armed half of a `TRIGGER_ARM` (R129). -/
def nameOff (s : State) (o : Op) (h : BitVec 32) : Option Nat :=
  let own (o : Op) : List (Nat × Bool) :=
    (o.uses s).map (fun u => (u.hOff, u.handle == h)) ++ o.marks.map (fun m => (m.hOff, m.handle == h))
  let base : List (Nat × Bool) :=
    if o.opcode == 0x38 then (own { o with ws := armedWords o.ws }).map (fun e => (64 + e.1, e.2)) else []
  firstBad (own o ++ base)

/-- Mark the unstarted descriptors of a queue after an index that name a retired generation (R129). -/
def markStale (sq idx : Nat) (h : BitVec 32) (s : State) : State :=
  let ri := (s.sq sq).ri
  let later (k : Nat) : Bool := k / 16777216 == sq &&
    decide (ringDiff (BitVec.ofNat 24 idx) ri < ringDiff (BitVec.ofNat 24 (k % 16777216)) ri)
  { s with ops := Tab.mapV s.ops (fun k o =>
      if later k && !o.done && (o.stage == .accepting || o.stage == .ready || o.stage == .waiting) then { o with stale := nameOff s o h } else o) }

/-- An `INVALIDATE` starts (R127, R129); for kinds 0 and 1 it keeps the panel and the generation that it made current. -/
def beginInv (sq idx : Nat) (o : Op) (s : State) : State :=
  let run (s : State) (g : Option (Nat × Nat)) : State :=
    count 520 5 (s.updOp sq idx (fun o => { o with stage := .running, work := [{ off := 0, len := 0 }], invAt := g }))
  if invKind o = 2 then
    let h := dLo (o.w 4)
    if !mineMo s o.ctx h then completeOp sq idx stStaleHandle 32 s
    else if (liveRing s h).isSome then completeOp sq idx stProtection 32 s
    else
      let s := markStale (sq % 65536) idx h (run s none)
      retireMo (moIndex h) none (s.updMo (moIndex h) (fun m => { m with inv := true }))
  else
    let x := invScope s o
    if !canInvalidate s o.ctx x.1 then s
    else
      let s := startInvalidate o.ctx x.1 x.2 s
      run s (some (x.1, ((s.ctx o.ctx).panel x.1).tgen))

/-- Whether what an `INVALIDATE` waits for has drained (R128, R129), the uses that its own completion marker holds aside. -/
def invDrained (s : State) (o : Op) : Bool :=
  match o.invAt with
  | none =>
    let m := s.moOf (dLo (o.w 4))
    m.gen != moGen (dLo (o.w 4)) || moUnused s (moIndex (dLo (o.w 4)))
  | some (p, g) =>
    let own (k : Nat) : Nat := (o.tuses.filter (fun u => u.ctx == o.ctx && u.panel == p && u.tgen == k)).length
    (List.range 4).all (fun k => k == g || decide (useCount s o.ctx p k ≤ own k))

/-! ### Running -/

/-- A started operation without engine work has one extent of 0 bytes, which has landed (R93). -/
def oneExtent : List WorkExt := [{ off := 0, len := 0, st := .landed }]

/-- Run a descriptor's own effect. -/
def runOp (sq idx : Nat) (o : Op) (s : State) : State :=
  if o.opcode == 0x40 then beginInv sq idx o s
  else
    let s := count 520 5 s
    if o.kind == .none then
      completeOp sq idx stGood 0 (s.updOp sq idx (fun o => { o with stage := .running, work := oneExtent }))
    else startExts sq idx (s.updOp sq idx (fun o => { o with stage := .running, work := o.splits }))

/-- NOP (R79). -/
def execNop (sq idx : Nat) (s : State) : Host.Outcome State Fault Refusal := done (starting sq idx 0x00 (runOp sq idx) s)
/-- COPY (R93). -/
def execCopy (sq idx : Nat) (s : State) : Host.Outcome State Fault Refusal := done (starting sq idx 0x01 (runOp sq idx) s)
/-- FILL (R79). -/
def execFill (sq idx : Nat) (s : State) : Host.Outcome State Fault Refusal := done (starting sq idx 0x02 (runOp sq idx) s)
/-- CONVERT (R229). -/
def execConvert (sq idx : Nat) (s : State) : Host.Outcome State Fault Refusal := done (starting sq idx 0x03 (runOp sq idx) s)
/-- WRITE_REMOTE (R155). -/
def execWriteRemote (sq idx : Nat) (s : State) : Host.Outcome State Fault Refusal := done (starting sq idx 0x10 (runOp sq idx) s)
/-- READ_REMOTE (R155). -/
def execReadRemote (sq idx : Nat) (s : State) : Host.Outcome State Fault Refusal := done (starting sq idx 0x11 (runOp sq idx) s)
/-- SEND (R163). -/
def execSend (sq idx : Nat) (s : State) : Host.Outcome State Fault Refusal := done (starting sq idx 0x12 (runOp sq idx) s)
/-- ATOMIC_FADD (R174). -/
def execAtomicFadd (sq idx : Nat) (s : State) : Host.Outcome State Fault Refusal := done (starting sq idx 0x18 (runOp sq idx) s)
/-- ATOMIC_CAS (R174). -/
def execAtomicCas (sq idx : Nat) (s : State) : Host.Outcome State Fault Refusal := done (starting sq idx 0x19 (runOp sq idx) s)
/-- INVALIDATE (R127). -/
def execInvalidate (sq idx : Nat) (s : State) : Host.Outcome State Fault Refusal := done (starting sq idx 0x40 (runOp sq idx) s)

/-- MARKER_SIGNAL (R89): it implies BARRIER. -/
def execMarkerSignal (sq idx : Nat) (s : State) : Host.Outcome State Fault Refusal :=
  done (starting sq idx 0x30 (fun o s => if earlierDone s sq idx then runOp sq idx o s else s) s)

/-- INVALIDATE_DRAINED (R128). -/
def execInvalidateDrained (sq idx : Nat) (s : State) : Host.Outcome State Fault Refusal :=
  done (
    match s.op sq idx with
    | none => s
    | some o =>
      if o.opcode == 0x40 && !o.done && o.stage == .running && o.stop.isNone && running s && invDrained s o then
        completeOp sq idx stGood 0 (s.updOp sq idx (fun o => { o with work := oneExtent }))
      else s)

/-! ### Marker waits (R88, R90) -/

/-- A `MARKER_WAIT` ends (R83, R88): its RESULT is the VALUE read, or its wait has failed. -/
def waitEnds (sq idx : Nat) (ok : Bool) (v : Word) (s : State) : State :=
  if ok then
    completeOp sq idx stGood 0 (count 520 5 (s.updOp sq idx (fun o => { o with stage := .running, work := oneExtent, result := v })))
  else completeOp sq idx stMarkerError v.toNat ((holdSq sq .waitFailed s).updOp sq idx (fun o => { o with upstream := true }))

/-- MARKER_WAIT (R88, R90). -/
def execMarkerWait (sq idx : Nat) (s : State) : Host.Outcome State Fault Refusal :=
  done (starting sq idx 0x31 (fun o s =>
    match o.woke, o.wait with
    | some (ok, v), _ => waitEnds sq idx ok v s
    | none, none => s
    | none, some r =>
      if o.stage == .waiting then s
      else if !markLive s r then completeOp sq idx stStaleHandle 0x10 s
      else
        let m := markerAt s r.key
        let sl := (s.ctx o.ctx).slice
        match waitState m (o.w 3).toNat with
        | .satisfied => waitEnds sq idx true m.value s
        | .failed => waitEnds sq idx false (BitVec.ofNat 64 m.status) s
        | .pending =>
          let s := skeinClaims o s
          if mwaitFree s sl = 0 then delayStart sq idx sl 3 s
          else s.updOp sq idx (fun o => { o with stage := .waiting, mwait := 1, target := o.w 3 })) s)

/-! ### Triggered work (R97-R101) -/

/-- ERR_DETAIL of a check of the armed half: a byte offset counts from the `TRIGGER_ARM`'s first byte (log 24). -/
def armDetail (status detail : Nat) : Nat :=
  if status = stStaleHandle ∨ status = stProtection ∨ status = stMalformed ∨ status = stOutOfPanel then 64 + detail else detail

/-- Attach an armed descriptor to its trigger (R99-R101): from then on it holds its uses, and the arm's own. -/
def attachTo (sq idx : Nat) (o b : Op) (s : State) : State :=
  let a := sq + 65536
  let hold (b : Op) : State :=
    let b := { b with mos := b.mos ++ o.mos, tuses := b.tuses ++ o.tuses }
    b.tuses.foldl (fun s u => addUse u s) (b.mos.foldl (fun s h => useMo h s) (putOp a idx b s))
  if trgMarker o then
    match o.wait with
    | none => s
    | some r =>
      let s := hold { b with stage := .armed, wait := some r, target := o.w 3, mwait := 1 }
      completeOp sq idx stGood 0 (s.updOp a idx (fun b => b.wake r.key (markerAt s r.key)))
  else
    let n := dQpn (o.w 5)
    let q := s.qp n
    let tag := trgTag o
    let b : Op := { b with stage := .armed, target := tag.setWidth 64 }
    if q.st != .active && q.st != .held then
      completeOp sq idx stGood 0 (completeOp a idx stFlushed (qpStateCode q.st) (hold b))
    else if q.earlyTags.contains tag then
      completeOp sq idx stGood 0 ((hold { b with woke := some (true, 0) }).updQp n (fun q => { q with earlyTags := q.earlyTags.erase tag }))
    else completeOp sq idx stGood 0 ((hold b).updQp n (fun q => { q with tagTrigs := q.tagTrigs ++ [(a, idx)] }))

/-- Attach an armed descriptor: in a queue that was destroyed, one that does not fire at once ends (R102). -/
def attach (sq idx : Nat) (o b : Op) (s : State) : State :=
  let t := attachTo sq idx o b s
  if (s.sq sq).destroyed then endArmed sq false t else t

/-- The descriptor that a `TRIGGER_ARM` carries, as it begins to be checked. -/
def armedHalf (o : Op) (now : Nat) : Op :=
  { ws := armedWords o.ws, stage := .accepting, ctx := o.ctx, epoch := o.epoch, gen := o.gen, slots := 0, since := now }

/-- All the checks of R82 on an armed half. -/
def checkArmed (purp : XPurp) (sq : Nat) (b : Op) (s : State) : Chk × State :=
  match checkStatic sq b s with
  | some (st, d) => (.bad st d false, s)
  | none => checkRest purp sq { b with checked := true, mos := b.handles s } s

/-- Check the armed half of a `TRIGGER_ARM` and attach it; the arm then retires (R98). -/
def armGo (sq idx : Nat) (o : Op) (s : State) : State :=
  let purp := XPurp.accept (sq + 65536) idx
  match checkArmed purp sq (armedHalf o s.ticks) s with
  | (.wait, s) => s
  | (.bad st d _, s) => completeOp sq idx st (armDetail st d) (forgetSeen purp s)
  | (.ok b, s) => attach sq idx o b (count 520 5 (forgetSeen purp s))

/-- A `TRIGGER_ARM` of a tag (R100, R101): its QP belongs to the context's slice; where the QP takes no arms, or the tag has
come already, it needs no place among the eight (R101: it fires at once; DEDUCED, log 133); else it takes one of them, and pins
the QP (R419). -/
def armTag (sq idx : Nat) (o : Op) (s : State) : State :=
  let sl := (s.ctx o.ctx).slice
  let n := dQpn (o.w 5)
  match Tab.get s.qps n with
  | none => completeOp sq idx stProtection 40 s
  | some q =>
    if (s.ctx q.ctx).slice != sl then completeOp sq idx stProtection 40 s
    else if (q.st != .active && q.st != .held) || q.earlyTags.contains (trgTag o) then armGo sq idx o s
    else if 8 ≤ q.tagTrigs.length then completeOp sq idx stQuota 0 s
    else if !canPin s n then delayStart sq idx sl 26 s
    else armGo sq idx o s

/-- A `TRIGGER_ARM` of a marker (R99): it takes one marker-wait entry (R90). -/
def armMarker (sq idx : Nat) (o : Op) (s : State) : State :=
  let sl := (s.ctx o.ctx).slice
  if (match o.wait with | some r => !markLive s r | none => true) then completeOp sq idx stStaleHandle 0x20 s
  else
    let s := skeinClaims o s
    if mwaitFree s sl = 0 then delayStart sq idx sl 3 s else armGo sq idx o s

/-- A `TRIGGER_ARM` starts. -/
def armOp (sq idx : Nat) (o : Op) (s : State) : State :=
  if trgMarker o then armMarker sq idx o s else armTag sq idx o s

/-- TRIGGER_ARM (R97, R98). -/
def execTriggerArm (sq idx : Nat) (s : State) : Host.Outcome State Fault Refusal :=
  done (starting sq idx 0x38 (armOp sq idx) s)

/-- A fired descriptor runs under its own flags (R98). -/
def fire (sq idx : Nat) (o : Op) (s : State) : State :=
  let a := sq + 65536
  let w0 := o.w 0
  let sb := !dSbWait w0 || (match localSq s o.ctx (dSbQueue w0) with | some k => sbHolds (s.sq k).ri (dSbRow (o.w 1)) | none => true)
  if ((dBarrier w0 || o.opcode == 0x30) && !armPassed s sq idx) || !sb then s
  else startGate a idx o (runOp a idx o) s

/-- TRIGGER_FIRE (R98, R99). -/
def execTriggerFire (sq idx : Nat) (s : State) : Host.Outcome State Fault Refusal :=
  done (
    match s.op (sq + 65536) idx with
    | none => s
    | some o =>
      if o.done || o.stage != .armed || !running s then s
      else
        match o.woke with
        | none => s
        | some (true, _) => fire sq idx o s
        | some (false, st) =>
          completeOp (sq + 65536) idx stMarkerError st.toNat (s.updOp (sq + 65536) idx (fun o => { o with upstream := true })))

/-! ### SKEIN (R211-R213) -/

/-- The lowest of the 1,024 skein slots that no skein holds (R211, R416). -/
def skeinSlot (s : State) : Option Nat := lowestFree 1024 (fun k => s.ops.any (fun e => e.2.skein.slot == some k && !e.2.done))

/-- SKEIN (R211): a list or map that cannot be read ends it `PARTIAL` before any packet (log 23). -/
def execSkein (sq idx : Nat) (list map : Option (List Word)) (s : State) : Host.Outcome State Fault Refusal :=
  done (starting sq idx 0x20 (fun o s =>
    let sl := (s.ctx o.ctx).slice
    let need := if skTrigMo o = 0 then 0 else skNLayers o
    let s := if need = 0 then s else skeinClaims o s
    let own := ((s.op sq idx).map (·.mwait)).getD 0
    match skeinSlot s with
    | none => delayStart sq idx sl 25 s
    | some slot =>
    if need ≠ 0 && decide (own + mwaitFree s sl < need) then
      delayStart sq idx sl 3 (skeinClaims o (s.updOp sq idx (fun o => { o with stage := .waiting })))
    else if need ≠ 0 && !(o.skein.marks.all (markLive s)) then completeOp sq idx stStaleHandle 0x58 s
    else
      match list, map with
      | some l, some m =>
        if l.length ≠ skNBlk o ∨ m.length ≠ skNBlk o then s
        else
          let l := l.map dCva
          let m := m.map dOff
          match skEntryFail s o l m with
          | some d => completeOp sq idx stSkeinBlockRange d (count 520 5 s)
          | none => skBegin sq idx slot l m o.skein.marks (count 520 5 s)
      | _, _ => completeOp sq idx stPartial (partialDetail caTargetError 0 0x3F) (count 520 5 s)) s)

/-! ### COLLECTIVE (R258, R261) -/

/-- COLLECTIVE (R261). -/
def execCollective (sq idx : Nat) (s : State) : Host.Outcome State Fault Refusal :=
  done (starting sq idx 0x21 (fun o s =>
    let n := pcGroup o
    let g := s.group n
    let d := (pcSeq o + 2 ^ 20 - g.nextSeq.toNat) % 2 ^ 20
    match g.st with
    | .forming => s
    | .failed => completeOp sq idx stCollMemberLost (g.lostRank % 1024 + g.reason * 4096) s
    | .free => completeOp sq idx stCollGroup (n + groupCode g.st * 4096) s
    | .draining => completeOp sq idx stCollGroup (n + groupCode g.st * 4096) s
    | .active =>
      if g.slice != (s.ctx o.ctx).slice then completeOp sq idx stCollGroup (n + groupCode g.st * 4096) s
      else if 2 ^ 19 ≤ d then completeOp sq idx stCollSeq g.nextSeq.toNat s
      else if d ≠ 0 || 16 ≤ g.colls.length then s
      else collStart sq idx (count 520 5 s)) s)

/-! ### OPERATION_COMPLETE (R96) -/

/-- The status and ERR_DETAIL that an operation whose extents have ended completes with (R96, R403). -/
def endStatus (o : Op) : Nat × Nat :=
  match o.stop with
  | some r => r
  | none => if o.work.all (fun e => e.st == .landed) then (stGood, 0) else (stPartial, o.detail)

/-- OPERATION_COMPLETE (R96): `sq` is the SQ's number, plus 65,536 for a fired descriptor. A skein of which no layer can open
any more first sends END (R214, R224), and completes once that is consumed. -/
def execOperationComplete (sq idx : Nat) (s : State) : Host.Outcome State Fault Refusal :=
  let s := if running s && ((s.op sq idx).map (fun o => o.opcode == 0x20)).getD false then skEnd sq idx s else s
  done (
    match s.op sq idx with
    | none => s
    | some o =>
      if o.done || o.stage != .running || !running s || !allEnded o || o.fence = 1 then s
      else
        let r := endStatus o
        let s := if o.opcode == 0x21 then collEnd sq idx o s else s
        completeOp sq idx r.1 r.2 s)

end Sys2Proof.Machine
end

