-- ==== Sys2Proof/Machine/Retire.lean ====
section
/-! DEFINITION. Queues, contexts, objects and slices that end: completion-queue timers (03 R66, R477), QUEUE_FREE
(R76), the tag fence (04 R124), CONTEXT_FREE (02 R32), retired objects and windows (R43, R47), Rumel's error binding
(R60) and bind-off (12 R357-R363). -/

namespace Sys2Proof.Machine

/-! ### Completion queues (R66, R69, R477) -/

/-- CQ_FULL_TIMEOUT (R66, R69): a record has waited 1 ms on a full or unwritable CQ. -/
def execCqFullTimeout (cq : Nat) (s : State) : Host.Outcome State Fault Refusal :=
  let q := s.cq cq
  done (
    if q.active && running s && !q.waiting.isEmpty && (!cqRoom q || q.unwritable) && !q.notice then
      let sl := (s.ctx q.ctx).slice
      sliceMsix sl q.vector (count sl 2 (s.updCq cq (fun q => { q with notice := true })))
    else s)

/-- Drop a waiting record: counted in the CQ's drop counter. -/
def dropRecord (cq : Nat) (r : CqRec) (s : State) : State :=
  count (512 + cq / 8192) (cq % 8192) (s.updCq cq (fun q => { q with waiting := q.waiting.erase r, drops := q.drops + 1 }))

/-- Whether a waiting record is `ABORTED` or `CONTEXT_LOST` (R66). -/
def recEnded (r : CqRec) : Bool := r.image % 256 == stAborted || r.image % 256 == stContextLost

/-- CQ_DRAIN_DISCARD (R66, R477): the oldest record that the rule names has waited 2 ms while its context drains. -/
def execCqDrainDiscard (cq : Nat) (s : State) : Host.Outcome State Fault Refusal :=
  let q := s.cq cq
  done (
    if q.active && running s && (s.ctx q.ctx).st == .draining && (!cqRoom q || q.unwritable) then
      match q.waiting.find? (fun r => q.unwritable || recEnded r) with
      | some r => cqFlush cq (dropRecord cq r s)
      | none => s
    else s)

/-- CQ_WRITE_RETRY (R477): the write of the slot is tried again; `refused` says that it is refused again. -/
def execCqWriteRetry (cq : Nat) (refused : Bool) (s : State) : Host.Outcome State Fault Refusal :=
  let q := s.cq cq
  done (
    if q.active && running s && q.unwritable && !q.waiting.isEmpty && !refused then cqFlush cq s
    else s)

/-! ### QUEUE_FREE (R76) -/

/-- Whether a closed queue has nothing outstanding. -/
def sqIdle (s : State) (n : Nat) : Bool :=
  let q := s.sq n
  q.st == .closed && (q.abort || (q.fi == q.pi && q.fetch == .idle)) &&
    !s.ops.any (fun e => e.1 / 16777216 % 65536 == n && !e.2.done) && !outstandingFor s (.ring n)

/-- QUEUE_FREE (R76): the final shadow word is written. -/
def execQueueFree (sq : Nat) (s : State) : Host.Outcome State Fault Refusal :=
  done (
    if sqIdle s sq && running s then
      let s := { s with ops := s.ops.filter (fun e => e.1 / 16777216 % 65536 != sq) }
      writeShadow sq (s.updSq sq (fun q => { q with st := .free, cause := .none }))
    else s)

/-! ### The tag fence (R124, R345) -/

/-- Send a tag fence update for a context on every die port with a die attached. -/
def tagUpdate (ctx : Nat) (allow : Bool) (s : State) : State :=
  let ports := (List.range 4).filter (fun p => (s.die p).attached)
  let tag := accessTag s ctx
  let s := ports.foldl (fun s p =>
    let q := (s.die p).updSeq
    let w := BitVec.ofNat 64 (tag.toNat + q.toNat * 2 ^ 32)
    emit (.sideband p (if allow then 0x10 else 0x11) w)
      (s.updDie p (fun d => { d with updSeq := d.updSeq + 1, updates := d.updates ++ [(q, ctx)] }))) s
  s.updCtx ctx (fun c => { c with tagWait := ports, rejecting := !allow })

/-! ### Objects and windows (R43, R47) -/

/-- Signal an optional DRAIN or DONE marker. Where the marker's own object has retired by then the spec is silent: the model still
writes the record, where it lay (DESIGN CHOICE, log 134). -/
def signalDone (d : Option (MarkRef × Word)) (s : State) : State :=
  match d with
  | some (r, v) => (applySignal (markNow s r) v s).2
  | none => s

/-- An object's index returns to the free list (R29, R43), once zeros stand in every sealed run of loads into it
(R442): until then it stays RETIRING. Whose it was stays known, for mem.free of an object that an `INVALIDATE` retired (R39). -/
def freeMo (i : Nat) (s : State) : State :=
  let o := s.mo i
  let h := moHandle i o.gen
  let s := if s.fnd.sealTab.any (fun r => r.mo == h) && !outstandingFor s (.unseal i) then unsealRuns i h s else s
  if s.fnd.sealTab.any (fun r => r.mo == h) then s
  else
    let sl := (s.ctx o.ctx).slice
    let s := s.updMo i (fun o => { gen := o.gen, inv := o.inv, owner := some (sl, (s.slice sl).gen) })
    signalDone o.drain { s with moFree := s.moFree ++ [i] }

/-- A window's index returns to the free list (R47). -/
def freeWin (i : Nat) (s : State) : State :=
  let w := s.win i
  let s := s.updWin i (fun w => { gen := w.gen })
  signalDone w.drain { s with winFree := s.winFree ++ [i] }

/-- MO_RETIRED (R43, R47): nothing uses a retired generation any more. -/
def execMoRetired (index : Nat) (s : State) : Host.Outcome State Fault Refusal :=
  done (if running s && (s.mo index).st == .retiring && moUnused s index then freeMo index s else s)

/-- WINDOW_FREED (R47): the last tracker that pins a retired window has closed. -/
def execWindowFreed (index : Nat) (s : State) : Host.Outcome State Fault Refusal :=
  done (if running s && (s.win index).st == .retiring && (s.win index).trackers = 0 then freeWin index s else s)

/-! ### Groups of a slice (R258) -/

/-- group.destroy's effect (R258, R285): a member that had collectives started tells the others. -/
def groupDestroy (grp : Nat) (s : State) : State :=
  let g := s.group grp
  if g.st != .forming && g.st != .active && g.st != .failed then s
  else
    let s := setGroup grp (fun g => { g with st := .draining }) s
    let s := g.colls.foldl (fun s c => stopOp c.2.sq c.2.idx stAborted 0 s) s
    let s := (opsWhere s (fun o => o.opcode == 0x21 && pcGroup o == grp && (o.stage == .ready || o.stage == .waiting) &&
        (s.ctx o.ctx).slice == g.slice)).foldl (fun s k => completeOp k.1 k.2 stCollGroup (grp + 4 * 4096) s) s
    if g.colls.isEmpty then s
    else g.members.foldl (fun s m =>
      match m with
      | some n => if qpSends (s.qp n) then purlCtl n grp 0 (purlInfo 0 0 3 0 0) (beBytes 8 (g.rank % 1024 + 5 * 4096)) s else s
      | none => s) s

/-! ### Bind-off (R357-R363) -/

/-- The contexts of a slice that are not FREE. -/
def sliceCtxs (s : State) (sl : Nat) : List Nat := Tab.keysWhere s.ctxs (fun _ c => c.slice == sl && c.st != .free)

/-- Step 3: the generation advances, and step 4 becomes due (R359). -/
def sliceStep3 (sl : Nat) (s : State) : State :=
  let x := s.slice sl
  if x.step3 then s
  else
    let s := s.updSlice sl (fun x => { x with gen := x.gen + 1, step3 := true, step4 := x.copied.isEmpty })
    -- records that wait carry the old generation: they are discarded and counted (R38)
    let s := (Tab.keysWhere s.cqs (fun _ q => q.active && (s.ctx q.ctx).slice == sl)).foldl (fun s n => cqFlush n s) s
    bindJob x.copied meSliceBoundOff sl s

/-- Bind-off becomes an abort, or begins as one (R357). -/
def sliceAbort (sl : Nat) (s : State) : State :=
  let s := sliceStep3 sl (s.updSlice sl (fun x => { x with abort := true }))
  (sliceCtxs s sl).foldl (fun s c => drainCtx c true true s) s

/-- Steps 1 and 2 of bind-off, with step 3 between them under ABORT (R359). -/
def bindOff (sl : Nat) (abort : Bool) (s : State) : State :=
  if (s.slice sl).st != .active then s
  else
    let copied := (sliceCtxs s sl).flatMap (boundMarks s)
    let s := s.updSlice sl (fun x => { x with st := .draining, copied := copied, step3 := false, step4 := false })
    let s := if abort then sliceAbort sl s else
      (sliceCtxs s sl).foldl (fun s c => drainCtx c false true s) s
    let s := (Tab.keysWhere s.groups (fun _ g => g.slice == sl)).foldl (fun s g => groupDestroy g s) s
    if (sliceCtxs s sl).isEmpty then sliceStep3 sl s else s

/-- A link reset binds off every slice of a link (R315, R357). -/
def bindOffLink (link : Nat) (s : State) : State :=
  (Tab.keysWhere s.slices (fun _ x => x.link == link && x.st != .free)).foldl (fun s sl =>
    let x := s.slice sl
    if x.st == .active then bindOff sl true s else if x.abort then s else sliceAbort sl s) s

/-- SLICE_FREE (R357). -/
def execSliceFree (slice : Nat) (s : State) : Host.Outcome State Fault Refusal :=
  let x := s.slice slice
  done (
    if running s && x.st == .draining && x.step3 && x.step4 && (sliceCtxs s slice).isEmpty then
      { s with slices := Tab.put s.slices slice { gen := x.gen }, mailboxes := Tab.del s.mailboxes slice }
    else s)

/-- SLICE_DRAIN_TIMEOUT (R357): 2 s since step 1. -/
def execSliceDrainTimeout (slice : Nat) (s : State) : Host.Outcome State Fault Refusal :=
  let x := s.slice slice
  done (if running s && x.st == .draining && !x.abort then sliceAbort slice s else s)

/-! ### CONTEXT_FREE (R32) -/

/-- The objects of a context that are not FREE. -/
def ctxMos (s : State) (ctx : Nat) : List Nat := Tab.keysWhere s.mos (fun _ o => o.ctx == ctx && o.st != .free)
/-- The windows over a context's objects that are not FREE. -/
def ctxWins (s : State) (ctx : Nat) : List Nat := Tab.keysWhere s.wins (fun _ w => w.st != .free && (s.moOf w.mo).ctx == ctx)
/-- The CQs of a context. -/
def ctxCqs (s : State) (ctx : Nat) : List Nat := Tab.keysWhere s.cqs (fun _ q => q.active && q.ctx == ctx)

/-- Whether every use of a draining context has ended and every QP is destroyed (R32). -/
def ctxIdle (s : State) (ctx : Nat) : Bool :=
  let c := s.ctx ctx
  c.st == .draining && !c.rejecting && c.uses.all (fun u => u.2 == 0) &&
    (ctxMos s ctx).all (moUnused s) && (ctxWins s ctx).all (fun i => (s.win i).trackers == 0) &&
    !s.ops.any (fun e => e.2.ctx == ctx && !e.2.done) && s.sqs.all (fun e => e.2.ctx != ctx || e.2.st == .free) &&
    (ctxQps s ctx).isEmpty && !s.xlt.walks.any (fun w => w.2.ctx == ctx) && !s.directWait.any (fun d => d.1 == ctx) &&
    !s.recWrites.any (fun w => w.2.ctx == ctx) &&
    (ctxCqs s ctx).all (fun n => (s.cq n).waiting.all recEnded && !(s.cq n).writing)

/-- A context reaches FREE: its record keeps only its epoch and slot (R31, R32). -/
def ctxFreed (ctx : Nat) (s : State) : State :=
  let c := s.ctx ctx
  let s := s.updCtx ctx (fun c => { st := .free, epoch := c.epoch, slice := c.slice })
  let s := { s with
    xlt := { s.xlt with cache := s.xlt.cache.filter (fun l => l.ctx != ctx), queue := s.xlt.queue.filter (fun w => w.ctx != ctx)
                        fenced := s.xlt.fenced.filter (fun w => w.2 != ctx)
                        seen := s.xlt.seen.filter (fun y => y.ctx != ctx), direct := Tab.del s.xlt.direct ctx }
    sqs := s.sqs.filter (fun e => e.2.ctx != ctx), cqs := s.cqs.filter (fun e => e.2.ctx != ctx) }
  let s := unbound ((c.bindings.map (·.mark)).filter (fun r => moValid s r.mo && markLive s r)) s
  let s := signalDone c.doneMark s
  if (s.slice c.slice).st == .draining && (sliceCtxs s c.slice).isEmpty then sliceStep3 c.slice s else s

/-- CONTEXT_FREE (R32, R124): the context's objects and windows retire, and the old tag is rejected; FREE follows once
every die port has acknowledged. -/
def execContextFree (ctx : Nat) (s : State) : Host.Outcome State Fault Refusal :=
  done (
    if !ctxIdle s ctx || !running s then s
    else
      let s := (ctxCqs s ctx).foldl (fun s n => (s.cq n).waiting.foldl (fun s r => dropRecord n r s) s) s
      let s := (ctxWins s ctx).foldl (fun s i => freeWin i s) s
      let s := (ctxMos s ctx).foldl (fun s i => freeMo i (retireMo i none s)) s
      if !(ctxMos s ctx).isEmpty then s
      else
      let s := tagUpdate ctx false s
      if (s.ctx ctx).tagWait.isEmpty then ctxFreed ctx s else s)

/-- CTX_DRAIN_TIMEOUT (R36): 2 s since the context entered DRAINING. -/
def execCtxDrainTimeout (ctx : Nat) (s : State) : Host.Outcome State Fault Refusal :=
  done (if running s && (s.ctx ctx).st == .draining && !(s.ctx ctx).abort then abortCtx ctx s else s)

/-! ### Rumel's error binding (R60, R363) -/

/-- Whether bind-off leaves a marker alone: its record lies in the bound-off slice's own host memory (R363). -/
def ownHostMark (s : State) (sl : Nat) (r : MarkRef) : Bool :=
  let x := s.slice sl
  keyHost r.key == some (x.link, x.pasid)

/-- Whether a marker's object, or its original's, is still VALID (R59). -/
def markValid (s : State) (r : MarkRef) : Bool := moValid s (markHome s r).1

/-- FIRMWARE_ERROR_BINDING (R60): Rumel serves its oldest job. A marker whose object has retired since is on no list any more
(R59), but for the list that bind-off copied (R363). -/
def execFirmwareErrorBinding (s : State) : Host.Outcome State Fault Refusal :=
  done (
    match s.bindJobs with
    | [] => s
    | j :: rest =>
      if !running s then s
      else
        let off := j.code.toNat == meSliceBoundOff
        let ms := if off then j.marks.filter (fun r => !ownHostMark s j.detail.toNat r) else j.marks.filter (markValid s)
        let s := ms.foldl (fun s r => applyError (markNow s r) j.code.toNat j.detail.toNat s) { s with bindJobs := rest }
        if off then s.updSlice j.detail.toNat (fun x => { x with step4 := true }) else s)

end Sys2Proof.Machine
end

