-- ==== Sys2Proof/Machine/Trace.lean ====
section
/-! DEFINITION. The fault collector's registers and trace (14 R391-R397, R411), and events of class CE (R388). -/

namespace Sys2Proof.Machine

/-- FC_REACT_n at reset (R397): FIRST, ESC, TIMER, CE_IRQ 0, AUTO_RESTORE. -/
def reactReset (n : Nat) : BitVec 13 :=
  let mk (first esc timer auto : Nat) : BitVec 13 := BitVec.ofNat 13 (first + esc * 8 + timer * 64 + auto * 4096)
  if n ≤ 33 then mk 3 1 20 1
  else if n ≤ 35 then mk 3 1 10 0
  else if n ≤ 37 then mk 1 0 0 0
  else if n ≤ 47 then mk 3 1 20 1
  else if n ≤ 49 then mk 1 0 0 0
  else
    match n with
    | 50 => mk 3 1 16 1
    | 51 => mk 1 0 0 0
    | 52 => mk 3 1 17 1
    | 53 => mk 1 0 0 0
    | 54 => mk 1 5 10 0
    | 55 => mk 1 0 0 0
    | 56 => mk 1 0 0 0
    | 57 => mk 3 1 10 0
    | 58 => mk 1 0 0 0
    | _ => mk 0 0 0 0

/-- FC_REACT_n (R392). -/
def react (s : State) (n : Nat) : BitVec 13 := Tab.getD s.fc.react n (reactReset n)
def reactFirst (s : State) (n : Nat) : Nat := fld (react s n) 2 0
def reactEsc (s : State) (n : Nat) : Nat := fld (react s n) 5 3
def reactCeIrq (s : State) (n : Nat) : Bool := (react s n).getLsbD 11
def reactAuto (s : State) (n : Nat) : Bool := (react s n).getLsbD 12

/-- FC_SRC_n. -/
def fcSrc (s : State) (n : Nat) : FcSrc := Tab.getD s.fc.src n {}
/-- Change FC_SRC_n. -/
def updSrc (n : Nat) (f : FcSrc → FcSrc) (s : State) : State := s.updFc (fun c => { c with src := Tab.upd c.src n {} f })

/-- Whether a source's UNIT names the whole source (R389). -/
def wholeSource (n unit : Nat) : Bool := unit == 7 && ((16 ≤ n && n ≤ 23) || (38 ≤ n && n ≤ 41))
/-- The units that UNIT names. -/
def unitsOf (n unit : Nat) : List Nat :=
  if !wholeSource n unit then [unit] else if n ≤ 23 then List.range 4 else List.range 6
/-- State of one unit (R398). -/
def oneUnit (s : State) (n u : Nat) : UnitState := Tab.getD s.fc.units (n * 64 + u) .inService
/-- State of what UNIT names: of a whole source, FENCED if any is, else TESTING if any is (R392). -/
def unitState (s : State) (n unit : Nat) : UnitState :=
  let us := (unitsOf n unit).map (oneUnit s n)
  if us.contains .fenced then .fenced else if us.contains .testing then .testing else .inService
/-- Set a unit's state, which SSTATE then shows (R392). -/
def setUnit (n u : Nat) (x : UnitState) (s : State) : State :=
  updSrc n (fun c => { c with sstateUnit := u })
    (s.updFc (fun c => { c with units := if x == .inService then Tab.del c.units (n * 64 + u) else Tab.put c.units (n * 64 + u) x }))

/-- An event as it reaches the collector (R390): CLASS, DETAIL, UNIT, what it affects, whether its condition is still
present, the reporting unit's stamp, and whether fault.inject made it. -/
structure Ev where
  source : Nat
  cls : Nat
  detail : Nat
  unit : Nat
  ctx : Option Nat := none
  slice : Option Nat := none
  active : Bool := false
  stamp : BitVec 32 := 0
  injected : Bool := false
  deriving DecidableEq, Repr

/-- An event of the block's own: its stamp is a free value (R411). -/
def ownEv (source cls detail unit : Nat) (ctx : Option Nat) (s : State) : Ev × State :=
  let d := drawFree s
  ({ source := source, cls := cls, detail := detail, unit := unit, ctx := ctx, slice := ctx.map (fun c => (s.ctx c).slice)
     stamp := Config.unitStamp d.1 }, d.2)

/-- A trace record (R411). -/
def traceRec (row : BitVec 32) (e : Ev) (cls : Nat) : BitVec 128 :=
  BitVec.ofNat 128 (row.toNat + e.source % 64 * 2 ^ 32 + cls % 4 * 2 ^ 38 + e.detail % 256 * 2 ^ 40 + e.unit % 64 * 2 ^ 48 +
    b2n e.injected * 2 ^ 54 + (e.ctx.getD 0xFFF) % 4096 * 2 ^ 64 + (e.slice.getD 0x1FF) % 512 * 2 ^ 76 + e.stamp.toNat * 2 ^ 96)

/-- Write one trace record where the buffer records (R411). -/
def traceWrite (e : Ev) (cls : Nat) (s : State) : State :=
  if !s.fc.recording then s
  else s.updFc (fun c => { c with trace := Tab.put c.trace (c.traceRow.toNat % 524288) (traceRec c.traceRow e cls), traceRow := c.traceRow + 1 })

/-- Count and trace an event (R396). -/
def countEvent (e : Ev) (s : State) : State :=
  let s := updSrc e.source (fun c => { c with
    ceCount := if e.cls = 1 then min 65535 (c.ceCount + 1) else c.ceCount
    ucCount := if e.cls = 2 then min 65535 (c.ucCount + 1) else c.ucCount
    lastUc := if e.cls = 2 then e.unit else c.lastUc
    lastDetail := if e.cls = 2 then e.detail else c.lastDetail
    causeActive := e.active || c.causeActive
    sstateUnit := e.unit }) s
  if e.cls ≠ 1 || s.fc.filter.getLsbD e.source then traceWrite e e.cls s else s

/-- FC_STATUS bit n. -/
def statusBit (s : State) (n : Nat) : Bool := s.fc.status.getLsbD n

/-- Set FC_STATUS bit n, with the first event's fields where it was clear (R396). -/
def setStatus (e : Ev) (s : State) : State :=
  let was := statusBit s e.source
  let s := s.updFc (fun c => { c with status := c.status ||| (1#60 <<< e.source) })
  updSrc e.source (fun c =>
    let c := { c with cls := max c.cls e.cls }
    if was then c else { c with detail := e.detail, unit := e.unit, injected := e.injected }) s

/-- Action 1 (R393): one message on vector 2 of the manager link, unless one is pending; none leaves during a warm
re-init, whose end sends it (R409). -/
def fcInterrupt (s : State) : State :=
  match s.fc.dstate with
  | .halted => s
  | .reinit => s.updFc (fun c => { c with intPending := true })
  | .normal => if (s.link (mgrLink s)).msixPend.contains 2 then s else sendMsix (mgrLink s) 2 s

/-- A CE event (R388, R396). -/
def ceEvent (e : Ev) (s : State) : State :=
  let s := countEvent e s
  if reactCeIrq s e.source then fcInterrupt (setStatus e s) else s

/-- A CE event of the block's own. -/
def ceReport (source detail unit : Nat) (ctx : Option Nat) (s : State) : State :=
  let x := ownEv source 1 detail unit ctx s
  ceEvent x.1 x.2

end Sys2Proof.Machine
end

