-- ==== Sys2Proof/Machine/Direct.lean ====
section
/-! DEFINITION. Direct loads, stores and signals of compute dies (04 R122, 10 R307-R310, 11 R339) and the coherent
window cache (10 R313). -/

namespace Sys2Proof.Machine

/-! ### The coherent window cache (R313) -/

/-- The 64-byte lines of a range. -/
def linesOf (addr len : Nat) : List Nat := if len = 0 then [] else (List.range ((addr + len - 1) / 64 + 1 - addr / 64)).map (addr / 64 + ·)

/-- The key of a line of a link. -/
def cwcKey (link line : Nat) : Nat := link * 2 ^ 64 + line

/-- Whether a direct request lies inside a coherent window: a VALID object with COHERENT. -/
def coherentAt (s : State) (ctx cva len : Nat) : Bool :=
  s.mos.any (fun m => m.2.st == .valid && m.2.coherent && m.2.ctx == ctx && inside cva len m.2.base m.2.len)

/-- Write a line back to its host, or through (R305): until the host has made it globally observable, flags wait. -/
def cwcWrite (link line : Nat) (data : List Byte) (s : State) : State :=
  emit (.cxlWriteBack link line data) (s.updLink link (fun k => { k with cacheWrites := line :: k.cacheWrites }))

/-- Put a line into the cache: 4,096 sets of 16 ways, where the least recently used line goes that belongs to the same
slice or to a slice above its share (R313, R356). -/
def cwcPut (link line : Nat) (v : CwcLine) (s : State) : State :=
  let k := cwcKey link line
  let s := { s with lruClock := s.lruClock + 1 }
  let v := { v with lru := s.lruClock }
  let set : Tab CwcLine := s.cwc.filter (fun e => e.1 % 4096 == k % 4096 && e.1 != k)
  let sl (c : Nat) : Nat := (s.ctx c).slice
  let has (n : Nat) : Nat := Tab.countWhere s.cwc (fun _ e => sl e.ctx == n)
  let may := set.filter (fun e => sl e.2.ctx == sl v.ctx || decide ((s.slice (sl e.2.ctx)).quota.getD 8 0 * 256 < has (sl e.2.ctx)))
  let pool := if may.isEmpty then set else may
  let s : State :=
    if set.length < 16 then s
    else
      match pool.foldl (fun (b : Option (Nat × CwcLine)) e => match b with | none => some e | some x => if e.2.lru < x.2.lru then some e else some x) none with
      | none => s
      | some e =>
        let s := { s with cwc := Tab.del s.cwc e.1 }
        if e.2.modified then cwcWrite (e.1 / 2 ^ 64) (e.1 % 2 ^ 64) e.2.data s else s
  { s with cwc := Tab.put s.cwc k v }

/-- The bytes of a range from cached lines. -/
def cwcRead (s : State) (link addr len : Nat) : List Byte :=
  let all := (linesOf addr len).flatMap (fun l => ((Tab.get s.cwc (cwcKey link l)).map (·.data)).getD (zeros 64))
  slice all (addr % 64) len

/-- A byte range overwritten. -/
def patch (bs : List Byte) (off : Nat) (new : List Byte) : List Byte := bs.take off ++ new ++ bs.drop (off + new.length)

/-- Store into owned lines: kept modified in card mode, written through in fleet mode (R313). -/
def cwcStore (link ctx addr : Nat) (data : List Byte) (s : State) : State :=
  (linesOf addr data.length).foldl (fun s l =>
    let k := cwcKey link l
    match Tab.get s.cwc k with
    | none => s
    | some v =>
      let a := max addr (l * 64)
      let b := min (addr + data.length) (l * 64 + 64)
      let d := patch v.data (a - l * 64) (slice data (a - addr) (b - a))
      let s := { s with lruClock := s.lruClock + 1 }
      let s := { s with cwc := Tab.put s.cwc k { v with data := d, modified := !s.fleet, ctx := ctx, lru := s.lruClock } }
      if s.fleet then cwcWrite link l d s else s) s

/-! ### The direct stream of a context (R114, R122, R307-R310) -/

/-- The context that an access tag names, where it is ACTIVE (R122, R123). -/
def tagCtx (s : State) (atag : BitVec 24) : Option Nat :=
  let c := fld atag 14 3
  let x := s.ctx c
  if x.st == .active && x.slice == fld atag 23 15 && x.epoch.toNat % 8 == fld atag 2 0 then some c else none

/-- The access of a direct request. -/
def directAcc (ctx : Nat) (r : DirectReq) : Acc :=
  { ctx := ctx, cva := r.cva, len := r.len, kind := if r.store then .write else .read, direct := true }

/-- Key of a load in flight. -/
def ldKey (r : DirectReq) : Nat := r.module * 65536 + r.txn

/-- Take the head off a direct stream. -/
def directPop (ctx : Nat) (s : State) : State :=
  s.updXlt (fun x => { x with direct := Tab.upd x.direct ctx [] (·.drop 1) })

/-- Direct loads that hold one of a link's requests (R310). -/
def directLdsOn (s : State) (link : Nat) : Nat :=
  Tab.countWhere (s.link link).reqs (fun _ r => match r.purp with | .directLd .. => true | _ => false)

/-- A direct stream waits for lines no longer: the uses of its translation end (R127, R128). -/
def directLines (ctx : Nat) (s : State) : State :=
  if s.directWait.any (fun d => d.1 == ctx && d.2.1.len != 0) then s else endUses (.directWait ctx) s

/-- A request inside a coherent window on a link with CACHE (R313): each line asked for is a host request through the entry
(R140), and the request holds a use of its translation until the lines are there (R127). -/
def directCached (ctx link addr : Nat) (e : Ext) (r : DirectReq) (s : State) : Bool × State :=
  let cvaOf (l : Nat) : Nat := r.cva + (max addr (l * 64) - addr)
  let ls := linesOf addr r.len
  let ready (l : Nat) : Bool := match Tab.get s.cwc (cwcKey link l) with | some v => v.owned || !r.store | none => false
  match ls.filter (fun l => !ready l) with
  | [] =>
    let s := directPop ctx s
    if r.store then
      let s := if s.fleet then ls.foldl (fun s l => sampleHost ctx e (cvaOf l) s) s else s
      (true, cwcStore link ctx addr r.data s)
    else (true, dlRespond r.module r.txn 0x10 0 (accessTag s ctx) (cwcRead s link addr r.len) s)
  | missing =>
    (false, missing.foldl (fun s l =>
      let k := cwcKey link l
      if s.directWait.any (fun d => d.1 == ctx && d.2.2 == k) then s
      else
        let u : TUse := { ctx := ctx, panel := e.panel, tgen := e.tgen }
        sampleHost ctx e (cvaOf l) (emit (.cxlReq link l r.store)
          (addUse u { s with directWait := s.directWait ++ [(ctx, r, k)], xuses := (.directWait ctx, u) :: s.xuses }))) s)

/-- Serve the head of a context's direct stream: true where it left the stream. -/
def directHead (ctx : Nat) (s : State) : Bool × State :=
  match Tab.getD s.xlt.direct ctx [] with
  | [] => (false, s)
  | r :: _ =>
    let link := (s.slice (s.ctx ctx).slice).link
    if !admitted (s.ctx ctx) || !running s || outstandingFor s (.directWait ctx) ||
        (r.store && !(s.link link).cacheWrites.isEmpty) then (false, s)
    else
      match translateOr (.direct ctx) (.direct ctx) (directAcc ctx r) s with
      | (.wait, s) => (false, s)
      | (.fail _, s) => (true, directRefuse ctx r (directPop ctx (forgetSeen (.direct ctx) s)))
      | (.ok e, s) =>
        let m := e.memAt r.cva
        let l := s.link link
        if m.host && l.cxl && l.cache && coherentAt s ctx r.cva r.len then directCached ctx link m.addr e r s
        else if r.store then
          let w := extWrite ctx e r.cva r.data (fun _ _ => .directWait ctx) (directPop ctx (forgetSeen (.direct ctx) s))
          (true, holdUse (.directWait ctx) ctx e w.2.2)
        else if m.host && 1024 ≤ directLdsOn s link then (false, s)
        else
          let p := Purpose.directLd r.module r.txn
          let w := extRead ctx e r.cva r.len (fun _ => p) (directPop ctx (forgetSeen (.direct ctx) s))
          let s := holdUse p ctx e w.2.2
          if !w.2.1 then (true, dlRespond r.module r.txn 0x10 1 (accessTag s ctx) [] s)
          else (true, { s with directLds := Tab.put s.directLds (ldKey r) ({ r with data := zeros r.len }, w.1) })

/-- Serve a direct stream while its head leaves it. -/
def directPump : Nat → Nat → State → State
  | 0, _, s => s
  | fuel + 1, ctx, s =>
    match directHead ctx s with
    | (true, s) => directPump fuel ctx s
    | (false, s) => s

/-- Serve every direct stream. -/
def directAll (s : State) : State := (s.xlt.direct.map (·.1)).foldl (fun s c => directPump 4096 c s) s

/-- A read of a direct load returns: `off` bytes from the load's own page offset, or none where it failed (R309). -/
def directLdDone (module txn addr : Nat) (data : Option (List Byte)) (s : State) : State :=
  match Tab.get s.directLds (module * 65536 + txn) with
  | none => directAll s
  | some (r, left) =>
    let k := ldKey r
    let ok := data.isSome && r.len != 0
    let r := match data with
      | some d => { r with data := patch r.data (addr % 4096 - r.cva % 4096) d }
      | none => { r with len := 0 }
    if 1 < left then { s with directLds := Tab.put s.directLds k (r, left - 1) }
    else
      let s := { s with directLds := Tab.del s.directLds k }
      directAll (dlRespond module txn 0x10 (if ok then 0 else 1) 0 (if ok then r.data else []) s)

/-- A command flit arrives on a module with one command and its data flits (R337, R343): the next idle flit
acknowledges it and returns its slot and buffers. -/
def flitIn (module : Nat) (rsp : Bool) (data : Nat) (s : State) : State :=
  let s := count 526 (64 * module + 1) (s.updMod module (fun m => { m with lastGood := m.lastGood + 1, nak := false }))
  emit (.idleFlit module (s.mod module).lastGood false (b2n !rsp) (b2n rsp) data) s

/-- Admit a direct request to its context's stream (R122). -/
def directTake (atag : BitVec 24) (r : DirectReq) (bad : Bool) (s : State) : State :=
  match tagCtx s atag with
  | none => directRefuse 0 r s
  | some c =>
    if bad then directRefuse c r s
    else directPump 4096 c (s.updXlt (fun x => { x with direct := Tab.upd x.direct c [] (· ++ [r]) }))

/-- DIRECT_LD (R122, R339): at most 256 bytes, within one 4 KiB page. -/
def execDirectLd (module txn : Nat) (atag : BitVec 24) (cva : BitVec 56) (len : Nat) (s : State) : Host.Outcome State Fault Refusal :=
  done (whenRunning (fun s =>
    let r : DirectReq := { module := module, txn := txn, store := false, cva := cva.toNat, len := len, data := [] }
    directTake atag r (len = 0 || 256 < len || decide (4096 < cva.toNat % 4096 + len)) (flitIn module false 0 s)) s)

/-- DIRECT_ST (R308, R339). -/
def execDirectSt (module : Nat) (atag : BitVec 24) (cva : BitVec 56) (data : List Byte) (s : State) : Host.Outcome State Fault Refusal :=
  done (whenRunning (fun s =>
    let r : DirectReq := { module := module, txn := 0, store := true, cva := cva.toNat, len := data.length, data := data }
    directTake atag r (data.isEmpty || decide (4096 < cva.toNat % 4096 + data.length)) (flitIn module false (ceilDiv data.length 256) s)) s)

/-! ### CXL.cache answers and snoops (R313) -/

/-- Release a link's flag writes once no CXL.cache write of it is outstanding (R305). -/
def releaseFlags (link : Nat) (s : State) : State :=
  let l := s.link link
  if !l.cacheWrites.isEmpty then s
  else l.flags.foldl (fun s f => hostSend link f s) (s.updLink link (fun l => { l with flags := [] }))

/-- A direct request whose line could not be obtained fails (R309). -/
def directLineFailed (link ctx : Nat) (r : DirectReq) (s : State) : State :=
  let s := directLines ctx s
  let head := (Tab.getD s.xlt.direct ctx []).head?
  if head != some r then s
  else
    let s := directPop ctx s
    if r.store then ceReport (hostSource link) 0x0B link (some ctx) (count 525 (256 * link + 3) s)
    else dlRespond r.module r.txn 0x10 1 (accessTag s ctx) [] (count 525 (256 * link + 2) s)

/-- CXL_CACHE_RESPONSE (R313): a line arrives, a write is globally observable, or a request failed. A halted device takes none. -/
def execCxlCacheResponse (link line : Nat) (r : CxlRsp) (s : State) : Host.Outcome State Fault Refusal :=
  let k := cwcKey link line
  let ws := s.directWait.filter (fun d => d.2.2 == k)
  let clear (s : State) : State := { s with directWait := s.directWait.filter (fun d => d.2.2 != k) }
  let take (owned : Bool) (data : List Byte) : State :=
    match ws with
    | [] => s
    | w :: _ =>
      let s := ws.foldl (fun s w => directLines w.1 s) (clear s)
      directAll (cwcPut link line { ctx := w.1, owned := owned, modified := false, data := slice data 0 64, lru := 0 } s)
  done (
    if s.fc.dstate == .halted then s
    else
    match r with
    | .shared d => take false d
    | .owned d => take true d
    | .globallyObservable =>
      directAll (releaseFlags link (s.updLink link (fun l => { l with cacheWrites := l.cacheWrites.erase line })))
    | .failed => directAll (ws.foldl (fun s w => directLineFailed link w.1 w.2.1 s) (clear s)))

/-- HOST_SNOOP (R313): a snoop is answered from the cache; a modified line goes with it. -/
def execHostSnoop (link tag line : Nat) (kind : SnoopKind) (s : State) : Host.Outcome State Fault Refusal :=
  let k := cwcKey link line
  done (
    match Tab.get s.cwc k with
    | none => emit (.snoopRsp link tag false none) s
    | some v =>
      let s := match kind with
        | .invalidate => { s with cwc := Tab.del s.cwc k }
        | .data => { s with cwc := Tab.put s.cwc k { v with owned := false, modified := false } }
        | .current => s
      emit (.snoopRsp link tag true (if v.modified then some v.data else none)) s)

/-! ### MARKER_SIG (R50, R339) -/

/-- Whether a compute die's signal names a marker that the context may signal (R30, R48, R56). -/
def sigOk (s : State) (ctx : Nat) (h : BitVec 32) (off : Nat) : Bool :=
  let m := s.moOf h
  let t := (moPanel s h).targetCode
  mineMo s ctx h && m.rights.getLsbD 5 && decide (off + 16 ≤ m.len) && (m.imported.isSome || t == 0 || t == 1) &&
    (match m.imported with | some r => moValid s r.mo | none => true)

/-- Apply a compute die's signal and answer (R339, R341): ERROR where it names no marker of the context's slice. -/
def sigGo (module txn ctx : Nat) (h : BitVec 32) (off : Nat) (v : Word) (s : State) : State :=
  let purp := XPurp.signal module txn
  let tag := accessTag s ctx
  if !sigOk s ctx h off then dlRespond module txn 0x11 1 tag [] (forgetSeen purp s)
  else
    match resolveMark purp (.direct ctx) h off s with
    | (.wait, s) =>
      let r : DirectReq := { module := module, txn := txn, store := true, cva := h.toNat + off * 2 ^ 32, len := 0, data := leBytes 8 v.toNat }
      if s.directWait.any (fun d => d.1 == ctx && d.2.1 == r) then s else { s with directWait := s.directWait ++ [(ctx, r, 0)] }
    | (.fail _, s) => dlRespond module txn 0x11 1 tag [] (forgetSeen purp s)
    | (.ok r _, s) => dlRespond module txn 0x11 0 tag [] (applySignal r v (forgetSeen purp s)).2

/-- Go on with a signal that waited for a translation: its entry of `directWait` has length 0. -/
def sigResume (module txn : Nat) (s : State) : State :=
  match s.directWait.find? (fun d => d.2.1.len == 0 && d.2.1.module == module && d.2.1.txn == txn) with
  | none => s
  | some d =>
    let s := { s with directWait := s.directWait.erase d }
    sigGo module txn d.1 (BitVec.ofNat 32 d.2.1.cva) (d.2.1.cva / 2 ^ 32) (BitVec.ofNat 64 (ofLe d.2.1.data)) s

/-- MARKER_SIG (R339): `offset` counts 16-byte units. -/
def execMarkerSig (module txn : Nat) (atag : BitVec 24) (handle : BitVec 32) (offset : BitVec 24) (value : Word) (s : State) :
    Host.Outcome State Fault Refusal :=
  done (whenRunning (fun s =>
    let s := flitIn module false 1 s
    match tagCtx s atag with
    | none => dlRespond module txn 0x11 1 atag [] s
    | some c => sigGo module txn c handle (offset.toNat * 16) value s) s)

end Sys2Proof.Machine
end

