-- ==== Sys2Proof/Machine/Resume.lean ====
section
/-! DEFINITION. Writes to the manager's registers (10 R299, 18 R470), what goes on once a translation is known, walks
that return (04 R110-R117), the fault ring's registers (R134-R136), resolutions (R137-R139), and the tag fence's answers
(R124, R125). -/

namespace Sys2Proof.Machine

/-! ### Register writes (R299, R405, R467, R470) -/

/-- A register after a write: the half that a 4-byte write does not name keeps its value. -/
def mergeReg (w : RegWrite) (old : Word) : Word :=
  if w.size = 8 then w.value
  else if w.hi then BitVec.ofNat 64 (setBits old.toNat 63 32 w.value.toNat)
  else BitVec.ofNat 64 (setBits old.toNat 31 0 w.value.toNat)

/-- What a write brings to write-only and write-1-to-clear fields: the half it does not name brings 0. -/
def freshReg (w : RegWrite) : Word := mergeReg w 0

/-- A write to the manager page region or to an MSI-X table: dropped and counted where the region is not active on
its link, where it is not aligned, or while the device is HALTED; held during a warm re-init, 1,024 at most. -/
def heldReg (i : Instr) (active : Bool) (w : RegWrite) (f : State → State) (s : State) : State :=
  if !active || !w.aligned then dropWrite s
  else
    match s.fc.dstate with
    | .halted => dropWrite s
    | .reinit => if s.heldWrites.length < 1024 then { s with heldWrites := s.heldWrites ++ [i] } else count 520 3 s
    | .normal => f s

/-- A write to a register of the manager page region. -/
def mgrReg (i : Instr) (w : RegWrite) (f : State → State) (s : State) : State := heldReg i (w.link == mgrLink s) w f s

/-- A write to a register of the State Cache region: a warm re-init drops it (R470). -/
def scReg (w : RegWrite) (f : State → State) (s : State) : State :=
  if w.link != mgrLink s || !w.aligned then dropWrite s
  else match s.fc.dstate with | .halted => dropWrite s | .reinit => count 520 3 s | .normal => f s

/-- A write to a register of the fault collector: it takes effect during a warm re-init too (R470). -/
def fcReg (w : RegWrite) (f : State → State) (s : State) : State :=
  if w.link != mgrLink s || !w.aligned || s.fc.dstate == .halted then dropWrite s else f s

/-! ### Going on with what waited for a translation (R114) -/

/-- Take a held packet again (R173). -/
def placeResume (qpn : Nat) (psn : BitVec 32) (s : State) : State :=
  match (s.qp qpn).held.find? (fun h => h.1.hdr.psn == psn) with
  | none => forgetSeen (.place qpn psn) s
  | some h =>
    let s := s.updQp qpn (fun q => { q with held := q.held.erase h })
    let p := h.1
    match p.hdr.op.toNat with
    | 0 => rxWrite p s
    | 1 => rxSendPkt p s
    | 2 => rxReadReq p s
    | 3 => rxReadResp p s
    | 4 => rxAtomic p s
    | 5 => rxAtomicResp p s
    | 10 => rxSkein p s
    | 11 => rxPurlData p s
    | 12 => rxPurlData p s
    | _ => s

/-- Go on with a requester. -/
def resume (x : XPurp) (s : State) : State :=
  match x with
  | .ring n => ringResume n s
  | .accept sq idx => acceptGo sq idx s
  | .extent sq idx i => extResume sq idx i s
  | .cqRecord n => cqFlush n s
  | .shadow n => writeShadow n s
  | .place qpn psn => placeResume qpn psn s
  | .exec _ i => execRequest i s
  | .skeinDeliver qpn _ => deliverNext qpn s
  | .purl g seq c => purlPump g seq c s
  | .direct c => directPump 4096 c s
  | .signal m t => sigResume m t s
  | .roce qpn => roceResume qpn s
  | .skein sq idx => skResume sq idx s
  | .command _ => s
  | .prefetch => s

/-! ### WALK_DONE (R110, R115-R117) -/

/-- A failed chart read or a malformed entry is counted against its walker group (R109, R110). -/
def chartFailedCount (g : Nat) (s : State) : State := updSrc (32 + g) (fun c => { c with ceCount := min 65535 (c.ceCount + 1) }) s

/-- Keep an entry for a requester that finds none in the cache. -/
def noteEntry (purp : XPurp) (ctx panel page : Nat) (e : Word) (s : State) : State :=
  if purp == .prefetch then s else noteSeen { purp := purp, ctx := ctx, panel := panel, page := page, what := .entry e } s

/-- Take a PRESENT entry of the current generation that a walker group read: into the cache where it is well formed (R111),
and to the requesters where it is not there. -/
def takeEntry (g : Nat) (purps : List XPurp) (ctx panel page : Nat) (e : Word) (s : State) : State :=
  let p := (s.ctx ctx).panel panel
  let bad := ceMalformed s p e
  let s := if bad then chartFailedCount g (count 521 3 s)
    else cachePut { ctx := ctx, panel := panel, page := page, tgen := p.tgen, entry := e } s
  if (chartGet s ctx panel page p.tgen).isSome then s
  else purps.foldl (fun s x => noteEntry x ctx panel page e s) s

/-- Where a panel's chart holds a page's entry (R108). -/
def entryAt (s : State) (ctx panel page : Nat) : Nat := ((s.ctx ctx).panel panel).chart + 8 * page

/-- What a chart read gives: one of HBM that is not installed is never made, and fails (R121). -/
def chartRead (s : State) (ctx panel page : Nat) (r : WalkRead) : WalkRead :=
  if inHbm s (entryAt s ctx panel page) 8 then r else .failed

/-- A walk's answer: whether its requester goes on. It does in a context that is LOST or DRAINING too, whose ring fetches and
completion writes run on (R34, R36, R76); at a non-present page it raises its fault, or fails, as it translates again. -/
def walkTake (g : Nat) (k : Walk) (r : WalkRead) (s : State) : Bool × State :=
  let p := (s.ctx k.ctx).panel k.panel
  match chartRead s k.ctx k.panel k.page r with
  | .failed =>
    let s := chartFailedCount g s
    (true, if k.purp == .prefetch then s
      else noteSeen { purp := k.purp, ctx := k.ctx, panel := k.panel, page := k.page, what := .failed g } s)
  | .entry e =>
    if (s.ctx k.ctx).st == .free then (false, s)
    else if p.tgen ≠ k.tgen then (true, s)
    else if cePresent e then (true, takeEntry g [k.purp] k.ctx k.panel k.page e s)
    else if k.purp == .prefetch then (false, s)
    else (true, noteEntry k.purp k.ctx k.panel k.page e s)

/-- WALK_DONE (R110): the read of walk slot `w` returns; the slot takes the next walk (R115). -/
def execWalkDone (w : Nat) (r : WalkRead) (s : State) : Host.Outcome State Fault Refusal :=
  done (whenRunning (fun s =>
    match Tab.get s.xlt.walks w with
    | none => s
    | some k =>
      let g := walkGroup s w
      let s := freeReqs (.walk w) 1 (s.updXlt (fun x => { x with walks := Tab.del x.walks w }))
      let x := walkTake g k r s
      let s := pumpWalks 256 x.2
      if x.1 then resume k.purp s else s) s)

/-! ### The fault ring's registers (R134, R136) -/

/-- XLT_FRING_CFG as a register. -/
def fringCfg (s : State) : Word :=
  BitVec.ofNat 64 (b2n s.xlt.enable + s.xlt.logSize * 2 + s.xlt.ringBase.toNat * 4096)

/-- XLT_FRING_CFG (R134): size and base change only while ENABLE is 0; setting ENABLE restarts the ring, and Rumel
scans. -/
def execXltFringCfg (w : RegWrite) (s : State) : Host.Outcome State Fault Refusal :=
  done (mgrReg (.xltFringCfg w) w (fun s =>
    let v := mergeReg w (fringCfg s)
    let on := v.getLsbD 0
    let k := fld v 5 1
    let x := s.xlt
    if x.enable then s.updXlt (fun x => { x with enable := on })
    else
      let s := s.updXlt (fun x => { x with
        enable := on
        logSize := if 6 ≤ k ∧ k ≤ 16 then k else x.logSize
        ringBase := BitVec.ofNat 52 (fld v 63 12)
        w := if on then 0 else x.w
        c := if on then 0 else x.c })
      if on then fringScan s else s) s)

/-- XLT_FRING_DB (R134, R136): C advances, ARM is set, and Rumel scans. -/
def execXltFringDb (w : RegWrite) (s : State) : Host.Outcome State Fault Refusal :=
  done (mgrReg (.xltFringDb w) w (fun s =>
    let v := freshReg w
    fringScan (s.updXlt (fun x => { x with c := BitVec.ofNat 24 (fld v 23 0), arm := x.arm || v.getLsbD 24 }))) s)

/-! ### Resolutions (R137-R139) -/

/-- The entry that a write of XLT_FAULT_RESOLVE names. -/
def resolveEntry (s : State) (v : Word) : Option (Nat × PFault) :=
  let e := fld v 15 0
  match Tab.get s.xlt.faults e with
  | some f =>
    if f.token.toNat == fld v 31 16 && f.ctx == fld v 43 32 && (s.ctx f.ctx).epoch.toNat == fld v 51 44 then some (e, f) else none
  | none => none

/-- Free an entry, and let its joiners go on. -/
def resolved (e : Nat) (f : PFault) (s : State) : State :=
  (f.joiners.map (·.purp)).foldl (fun s p => resume p s) (freeFault e s)

/-- Tell every joiner of an entry what its page came to. -/
def noteJoiners (f : PFault) (what : Seen) (s : State) : State :=
  f.joiners.foldl (fun s j => noteSeen { purp := j.purp, ctx := f.ctx, panel := f.panel, page := f.page, what := what } s) s

/-- FAULT_RESOLVE_RETRY (R137): the page is walked again. -/
def execFaultResolveRetry (w : RegWrite) (r : WalkRead) (s : State) : Host.Outcome State Fault Refusal :=
  done (mgrReg (.faultResolveRetry w r) w (fun s =>
    let v := freshReg w
    if fld v 53 52 ≠ 0 then s
    else
      match resolveEntry s v with
      | none => count 521 6 s
      | some (e, f) =>
        let s := count 521 0 s
        let g := walkGroup s (gapFrom 0 (s.xlt.walks.map (·.1)))
        match chartRead s f.ctx f.panel f.page r with
        | .failed =>
          resolved e f (noteJoiners f (.failed g) (chartFailedCount g s))
        | .entry x =>
          if cePresent x then resolved e f (takeEntry g (f.joiners.map (·.purp)) f.ctx f.panel f.page x s)
          else reportFault e (s.updXlt (fun y => { y with faults := Tab.adj y.faults e (fun f => { f with rep := min 15 (f.rep + 1) }) }))) s)

/-- FAULT_RESOLVE_FAIL (R137). -/
def execFaultResolveFail (w : RegWrite) (s : State) : Host.Outcome State Fault Refusal :=
  done (mgrReg (.faultResolveFail w) w (fun s =>
    let v := freshReg w
    if fld v 53 52 ≠ 1 then s
    else
      match resolveEntry s v with
      | none => count 521 6 s
      | some (e, f) => resolved e f (noteJoiners f .faultFailed s)) s)

/-- FAULT_TIMEOUT (R138): a reported entry's timer expires. -/
def execFaultTimeout (entry : Nat) (s : State) : Host.Outcome State Fault Refusal :=
  done (whenRunning (fun s =>
    match Tab.get s.xlt.faults entry with
    | none => s
    | some f => if f.reported then contextLost f.ctx 1 (expireFault entry s) else s) s)

/-! ### The tag fence (R124, R125) -/

/-- TF_ACK (R124): a tag admitted by every die port lets the context's requests go, and what waited to translate under it; a
tag rejected by every one frees the context. -/
def execTfAck (port : Nat) (updSeq : BitVec 8) (s : State) : Host.Outcome State Fault Refusal :=
  done (
    match (if s.fc.dstate == .halted then none else (s.die port).updates.find? (fun u => u.1 == updSeq)) with
    | none => s
    | some (q, ctx) =>
      let s := s.updDie port (fun d => { d with updates := d.updates.erase (q, ctx) })
      let was := (s.ctx ctx).tagWait
      let s := s.updCtx ctx (fun c => { c with tagWait := c.tagWait.filter (· ≠ port) })
      let c := s.ctx ctx
      if was.isEmpty || !c.tagWait.isEmpty then s
      else if c.rejecting then (if c.st == .draining then ctxFreed ctx s else s)
      else
        let ws := s.xlt.fenced.filter (fun w => w.2 == ctx)
        let s := s.updXlt (fun x => { x with fenced := x.fenced.filter (fun w => w.2 != ctx) })
        pumpWork (directPump 4096 ctx (ws.foldl (fun s w => resume w.1 s) s)))

/-- TF_VIOLATION (R125, R345): the context of a tag that is not rejected meets its loss; a report of a rejected tag is
only counted. -/
def execTfViolation (port : Nat) (atag : BitVec 24) (_dpa : BitVec 44) (s : State) : Host.Outcome State Fault Refusal :=
  let s := count 526 (64 * (6 * port) + 5) s
  let c := fld atag 14 3
  let x := s.ctx c
  done (if s.fc.dstate == .halted then s else if accessTag s c == atag && x.st != .free && !x.rejecting then contextLost c 4 s else count 521 8 s)

end Sys2Proof.Machine
end

