-- ==== Sys2Proof/Machine/Answer.lean ====
section
/-! DEFINITION. What follows an answer to a memory request of Tsucen, by what the request served: die-link responses
(11 R339-R341) and host completions (10 R304). -/

namespace Sys2Proof.Machine

/-! ### Host requests of BAR 2 and CXL.mem (R301-R303, R311) -/

/-- Complete a BAR 2 read (R303). -/
def bar2Answer (link tag len : Nat) (a : Answer) (s : State) : State :=
  match a with
  | .data bs => emit (.completion link tag (slice bs 0 len) false) s
  | .poison _ _ => emit (.aer link) (emit (.completion link tag (zeros len) true) s)
  | .failed _ _ _ => emit (.completerAbort link tag) s

/-- Complete a CXL.mem read (R311). -/
def cxlAnswer (link tag : Nat) (a : Answer) (s : State) : State :=
  match a with
  | .data bs => emit (.cxlData link tag (slice bs 0 64) false) s
  | _ => emit (.cxlData link tag (zeros 64) true) s

/-! ### The dispatch of an answer -/

/-- CAUSE of an answer; 0 where it is good. -/
def Answer.cause (a : Answer) : Nat := match a with | .data _ => 0 | .poison _ c => c | .failed c src _ => causeFrom c src

/-- Whether an answer is good. -/
def Answer.ok (a : Answer) : Bool := match a with | .data _ => true | _ => false

/-- A counter's addition returns its old value, which the HOT record carries (R135, R140, R141). -/
def counterDone (ctx panel page : Nat) (a : Answer) (s : State) : State :=
  match a with
  | .data bs =>
    let old := ofLe (bs.take 2)
    let k := ((s.ctx ctx).panel panel).hotShift
    if k ≠ 0 && old + 1 == 2 ^ k then reportHot ctx panel page old s else s
  | _ => s

/-- A direct store to device memory fails only for its compute die; the next request of its stream goes (R308). -/
def directStDone (ctx : Nat) (s : State) : State := directPump 4096 ctx s

/-- A packet's write was answered (R161): a collective's message may be whole with it (R278). -/
def placed (qpn : Nat) (psn : BitVec 32) (cause : Nat) (s : State) : State :=
  let tr := ((s.qp qpn).placing.find? (fun e => e.psn == psn)).map (·.tracker)
  let s := placeDone qpn psn cause s
  match tr.bind (fun i => (Tab.get s.trackers i).map (fun t => (i, t))) with
  | some (i, t) => if t.use == .purl && t.qpn == qpn then purlRecvDone i s else s
  | none => s

/-- What an answer to a request of the core domain resumes: `addr` is the address it was made to. -/
def answerCore (p : Purpose) (addr : Nat) (a : Answer) (s : State) : State :=
  match p with
  | .ring n =>
    let p : Bool := match a with | .poison _ _ => true | _ => false
    let take (k : Nat) : State :=
      if sqFetches (s.sq n) then ringFailed n p (freeReqs (.ring n) k s) else ringDropped n k (if p then .poison else .error) s
    (match (s.sq n).fetch with
      | .reading k => take k
      | .reread _ _ => take 32
      | _ => s)
  | .walk w =>
    if a.ok then s
    else match execWalkDone w .failed s with | .next s => s | _ => s
  | .opRead sq idx er off => extReadDone sq idx er off a s
  | .opWrite sq idx er _ _ => extWriteDone sq idx er a.cause s
  | .opFence sq idx => s.updOp sq idx (fun o => { o with fence := 2 })
  | .place qpn psn => placed qpn psn a.cause s
  | .rxRead _ i off => rxReadDone i off a s
  | .rxAtomic _ i => rxAtomicDone i a s
  | .rocePlace qpn psn => roceAnswer qpn psn 0 a s
  | .roceRead qpn psn off _ => roceAnswer qpn psn off a s
  | .roceAtomic qpn psn => roceAnswer qpn psn 0 a s
  | .purlIn g seq c n off => purlReadDone g seq c off false n a s
  | .purlBack g seq c off => purlReadDone g seq c off true 0 a s
  | .purlOut g seq c => purlWriteDone g seq c a.cause s
  | .skeinRead sq idx l off => skReadDone sq idx l off a s
  | .skeinRec n => recStep n s
  | .directLd m t => directLdDone m t addr (match a with | .data bs => some bs | _ => none) s
  | .directWait ctx => directStDone ctx s
  | .counter ctx panel page => counterDone ctx panel page a s
  | .shadow _ => s
  | .marker => s
  | .cqRecord n => if a.ok then cqFlush n (cqWritten n s) else cqBlocked n s
  | .loadZero n => loadZeroed n s
  | .unseal i => if outstandingFor s (.unseal i) then s else freeMo i (unsealed (moHandle i (s.mo i).gen) s)
  | .bar2 .. => s
  | .bar2Atomic .. => s
  | .bar2Write _ => s
  | .cxlRead .. => s
  | .cxlWrite .. => s
  | .stashFill _ => s
  | .stashLines .. => s
  | .stashCheck _ => s

/-- What an answer resumes. The requests of the host are of the edge domain, which a warm re-init leaves running
(R408); the core takes the others at Resume. -/
def answer (p : Purpose) (addr : Nat) (a : Answer) (s : State) : State :=
  if s.fc.dstate == .halted then s
  else
    match p with
    | .bar2 link tag len => bar2Answer link tag len a s
    | .bar2Atomic link tag =>
      (match a with
        | .data bs => emit (.atomicOld link tag bs) s
        | _ => emit (.completerAbort link tag) s)
    | .bar2Write _ => s
    | .cxlRead link tag => cxlAnswer link tag a s
    | .cxlWrite link tag => emit (.cxlAck link tag) s
    | .stashLines line n ver => stashLanded line n ver s
    | .stashFill _ => s
    | .stashCheck _ => s
    | _ => if running s then answerCore p addr a s else { s with heldAns := s.heldAns ++ [(p, addr, a)] }

/-- Whether a request stays outstanding after a good answer: the command that carries its data ends it. -/
def answeredLater (p : Purpose) : Bool := match p with | .ring _ => true | .walk _ => true | _ => false

/-! ### Die-link responses (R339-R341) -/

/-- Take the answer of a module's request: STATUS and the bytes read. -/
def dlAnswer (module txn : Nat) (wr : Bool) (status : Nat) (data : List Byte) (s : State) : State :=
  if s.fc.dstate == .halted then s
  else
  let s := flitIn module true (ceilDiv data.length 256) s
  match Tab.get (s.mod module).reqs txn with
  | none => s
  | some r =>
    if (r.cmd.cmd == 2) != wr then s
    else if status = 0 && answeredLater r.purp then s
    else
      let n := r.cmd.len + 1
      let s := if wr then s else histogram 7 (s.ticks - r.since) s
      let s := s.updMod module (fun m => { m with reqs := Tab.del m.reqs txn })
      let a : Answer := if status = 0 then .data (slice data 0 n) else if status = 2 then .poison n caSourcePoison else .failed caTargetError 0x3F n
      endUses r.purp (answer r.purp r.cmd.addr a s)

/-- RSP_DATA (R339, R341): of a read or an atomic. -/
def execRspData (module txn status : Nat) (data : List Byte) (s : State) : Host.Outcome State Fault Refusal :=
  done (dlAnswer module txn false status data s)

/-- RSP_ACK (R339, R341): of a write. -/
def execRspAck (module txn status : Nat) (s : State) : Host.Outcome State Fault Refusal :=
  done (dlAnswer module txn true status [] s)

/-! ### Host completions (R304) -/

/-- The context that a host request works for, as far as its purpose names one. -/
def purposeCtx (s : State) (p : Purpose) : Option Nat :=
  match p with
  | .ring n => some (s.sq n).ctx
  | .opRead sq idx _ _ => (s.op sq idx).map (·.ctx)
  | .opFence sq idx => (s.op sq idx).map (·.ctx)
  | .skeinRead sq idx _ _ => (s.op sq idx).map (·.ctx)
  | .rxRead q _ _ => some (s.qp q).ctx
  | .rxAtomic q _ => some (s.qp q).ctx
  | .roceRead q _ _ _ => some (s.qp q).ctx
  | .roceAtomic q _ => some (s.qp q).ctx
  | .purlIn g seq _ _ _ => (s.coll g seq).map (·.2.ctx)
  | .purlBack g seq _ _ => (s.coll g seq).map (·.2.ctx)
  | _ => none

/-- A request to the host failed (R304): it is counted, and reported as HOST_REFUSED. -/
def hostFailed (link : Nat) (r : HostReq) (s : State) : State :=
  ceReport (hostSource link) 0x0B link (purposeCtx s r.purp) (count 525 (256 * link + 2) s)

/-- Take the completion of a link's request. Poison is a failed read, with its bytes bad (R155, R304). -/
def hostAnswer (link tag : Nat) (m : MemRead) (s : State) : State :=
  match Tab.get (s.link link).reqs tag with
  | none => s
  | some r =>
    let ok : Bool := match m with | .data _ => true | _ => false
    if 8192 ≤ tag || (ok && answeredLater r.purp) || s.fc.dstate == .halted then s
    else
      let s := freeTag link tag s
      match m with
      | .data d => endUses r.purp (answer r.purp r.addr (.data (slice d 0 r.len)) (histogram 6 (s.ticks - r.since) s))
      | .poison => endUses r.purp (answer r.purp r.addr (.poison r.len caHostFailed) (hostFailed link r s))
      | .failed => endUses r.purp (answer r.purp r.addr (.failed caHostFailed 0x3F r.len) (hostFailed link r s))

/-- HOST_READ_COMPLETION (R304): a poisoned completion counts as failed. -/
def execHostReadCompletion (link tag : Nat) (r : MemRead) (s : State) : Host.Outcome State Fault Refusal :=
  done (hostAnswer link tag r s)

/-- HOST_READ_TIMEOUT (R304): the link's completion timeout, or 1 s where it is disabled, has passed. -/
def execHostReadTimeout (link tag : Nat) (s : State) : Host.Outcome State Fault Refusal :=
  done (hostAnswer link tag .failed s)

end Sys2Proof.Machine
end

