-- ==== Sys2Proof/Machine/Port.lean ====
section
/-! DEFINITION. What sub-ports of the fabric do (11 R318-R332, R402): coming up and going down, training, lanes and
width, and the replay of native blocks. The commands that cause it stand in Fabric.lean. -/

namespace Sys2Proof.Machine

/-! ### Sub-ports (R318) -/

/-- ENABLE of a fabric port. -/
def portEnabled (s : State) (n : Nat) : Bool := (s.portCfgOf n).getLsbD 0
/-- SPLIT of a fabric port; native boot's port is one sub-port (R460). -/
def portSplit (s : State) (n : Nat) : Nat := if bootOn s n then 0 else fld (s.portCfgOf n) 3 1
/-- Configured width of a port's sub-ports. -/
def splitWidth (s : State) (n : Nat) : Nat := 8 >>> portSplit s n
/-- Configured width of a logical port's sub-port. -/
def lpWidth (s : State) (lp : Nat) : Nat := splitWidth s (lpPort lp)
/-- The logical ports of a fabric port. -/
def portLps (s : State) (n : Nat) : List Nat := (List.range (2 ^ portSplit s n)).map (8 * n + ·)
/-- Enabled sub-ports of the device but for one port. -/
def subportsBut (s : State) (n : Nat) : Nat :=
  ((List.range 12).map (fun k => if k ≠ n && portEnabled s k then 2 ^ portSplit s k else 0)).foldl (· + ·) 0
/-- A logical port that its port's configuration lets run: enabled, of the split, with a next hop (R321), or in native boot
(R460); on a clock without spread spectrum (R17, R319). -/
def lpMayRun (s : State) (lp : Nat) : Bool :=
  ((portEnabled s (lpPort lp) && Tab.getD s.nextHop lp 0 != 0) || bootOn s (lpPort lp)) && decide (lp % 8 < 2 ^ portSplit s (lpPort lp)) &&
    s.fc.dstate != .halted && !s.castOn.ssc
/-- The fault source of a port's lanes and sub-ports (R332). -/
def fabricSource (lp : Nat) : Nat := 42 + lpPort lp / 2
/-- UNIT of a lane (R389). -/
def laneUnit (s : State) (lp lane : Nat) : Nat := lpPort lp % 2 * 8 + lp % 8 * lpWidth s lp + lane
/-- A lane of a sub-port. -/
def LPort.lane (l : LPort) (i : Nat) : Lane := Tab.getD l.lanes i {}
/-- Change a lane. -/
def updLane (lp i : Nat) (f : Lane → Lane) (s : State) : State :=
  s.updLport lp (fun l => { l with lanes := Tab.upd l.lanes i {} f })
/-- The mask of lanes that satisfy a test. -/
def laneMaskOf (w : Nat) (f : Nat → Bool) : Nat := ((List.range w).map (fun i => if f i then 2 ^ i else 0)).foldl (· + ·) 0
/-- The largest aligned group of lanes within a width that all satisfy a test, the lowest such one (R329-R331). -/
def bestGroup (w limit : Nat) (f : Nat → Bool) : Option (Nat × Nat) :=
  ([8, 4, 2, 1].filter (fun z => decide (z ≤ min w limit))).findSome? (fun z =>
    ((List.range (w / z)).find? (fun k => (List.range z).all (fun i => f (k * z + i)))).map (fun k => (z, k * z)))
/-- The mask of a group. -/
def groupMask (g : Nat × Nat) : Nat := laneMaskOf 8 (fun i => decide (g.2 ≤ i ∧ i < g.2 + g.1))
/-- Whether a mask is an aligned group within a width, and of how many lanes. -/
def maskGroup (w m : Nat) : Option (Nat × Nat) :=
  match bestGroup w w (fun i => m.testBit i) with
  | some g => if groupMask g = m then some g else none
  | none => none

/-! ### Control words (R327) -/

/-- A control word: code, ARG_SEQ, LANE_MASK, WIDTH_OFFER, EQ_REQ and EQ_STATUS, RX_READY. -/
def ctlWord (code arg mask offer eq : Nat) (ready : Bool) : Word :=
  BitVec.ofNat 64 (code + arg % 256 * 2 ^ 8 + mask % 256 * 2 ^ 16 + offer % 16 * 2 ^ 24 + eq % 65536 * 2 ^ 28 + b2n ready * 2 ^ 44)

/-- Send a TS_EQ block on a lane: what the receiver asks of its peer's taps, how its own stand, and where its PRBS31 body
begins are free values. -/
def sendEq (lp lane : Nat) (ready : Bool) (s : State) : State :=
  let d := drawFree s
  sendCtlOn lp [lane] (ctlWord 2 0 0 0 (Config.eqFields d.1).toNat ready) (slice (Config.eqBody d.1) 0 2552) d.2

/-- Replay the held blocks of a native sub-port from one on (R328); the number of times each was replayed rises. -/
def replayFrom (lp : Nat) (from_ : BitVec 8) (s : State) : State :=
  let l := s.lport lp
  let i := (l.replay.findIdx? (fun b => b.seq == from_)).getD l.replay.length
  let again := l.replay.drop i
  let s := again.foldl (fun s b => count 524 (32 * lp + 6) (dealBlock lp 0 b.seq.toNat b.ptr b.body s)) s
  s.updLport lp (fun l => { l with replay := l.replay.take i ++ (l.replay.drop i).map (fun b => { b with times := b.times + 1 }) })

/-- Drop the blocks that an ACK_SEQ covers. -/
def ackBlocks (lp : Nat) (ack : BitVec 8) (s : State) : State :=
  pumpBlocks lp (s.updLport lp (fun l => { l with replay := l.replay.filter (fun b => decide ((ack - b.seq).toNat ≥ 128)) }))

/-! ### Paths of a port (R402) -/

/-- The paths of an ERT QP whose local port is a logical port. -/
def pathsOn (q : Qp) (lp : Nat) : List Nat := (List.range q.npaths).filter (fun p => pathPort q p == lp)

/-- A sub-port is down: its paths are sick, and what they carry unacknowledged is sent again on others, uncounted. -/
def pathsDown (lp : Nat) (s : State) : State :=
  (Tab.keysWhere s.qps (fun _ q => q.mode == .ert && !(pathsOn q lp).isEmpty)).foldl (fun s n =>
    let ps := pathsOn (s.qp n) lp
    let s := s.updQp n (fun q => ps.foldl (fun q p => q.updPath p (fun x => { x with sick := true, portDown := true, trial := false, probation := none })) q)
    let q := s.qp n
    if !qpMaySend s q then s
    else
      (q.flight.filter (fun f => ps.contains f.path)).foldl (fun s f =>
        resend n f.psn (some f.path) (fun x => { x with sends := x.sends + 1 }) (count (s.ctx q.ctx).slice 17 s)) s) s

/-- A sub-port is up: its paths return on probation, and RoCEv2 QPs send again. -/
def pathsUp (lp : Nat) (s : State) : State :=
  let s := (Tab.keysWhere s.qps (fun _ q => q.mode == .ert && (pathsOn q lp).any (fun p => (q.path p).portDown))).foldl (fun s n =>
    pumpQp 1024 n (s.updQp n (fun q => (pathsOn q lp).foldl (fun q p => q.updPath p (fun x =>
      if x.portDown then { x with sick := false, portDown := false, trial := true, weight := 1, credit := 1 } else x)) q))) s
  (Tab.keysWhere s.qps (fun _ q => q.mode == .roce && pathPort q 0 == lp)).foldl (fun s n => pumpRoce n s) s

/-! ### Down and up -/

/-- A sub-port goes down: what it held to send is lost; its peers see a port loss. -/
def portDown (lp : Nat) (s : State) : State :=
  let l := s.lport lp
  let s := s.updLport lp (fun l =>
    { ipv6 := l.ipv6, prefix6 := l.prefix6, ipv4 := l.ipv4, prefix4 := l.prefix4, lanes := Tab.mapV l.lanes (fun _ x => { x with localReady := false, peerReady := false, blocks := 0 }), roceFill := l.roceFill })
  if l.train == .up then pathsDown lp s else s

/-- A sub-port comes up at a width on a mask of its lanes. -/
def portUp (lp width mask : Nat) (s : State) : State :=
  let s := s.updLport lp (fun l => { l with
    train := .up, width := width, mask := BitVec.ofNat 8 mask, pending := none, txSeq := 0, rxSeq := 0, replay := [], unsent := [], nakFor := none, gotAny := false })
  pathsUp lp s

/-- Begin the training of a native sub-port, or the auto-negotiation of an IEEE one (R322, R329): every lane takes part
but one that is fenced. -/
def trainStart (lp : Nat) (s : State) : State :=
  if !lpMayRun s lp || (s.lport lp).train == .up then s
  else
  let n := lpPort lp
  let w := lpWidth s lp
  let free (i : Nat) : Bool := Tab.getD s.fc.units (fabricSource lp * 64 + laneUnit s lp i) .inService == .inService
  let s := s.updLport lp (fun l => { l with lanes := Tab.mapV l.lanes (fun i x =>
    { x with localReady := false, peerReady := false, failed := x.failed && !free i }) })
  if portMode s n = 0 then
    ((List.range w).filter (fun i => !((s.lport lp).lane i).failed)).foldl (fun s i => sendEq lp i false s)
      (s.updLport lp (fun l => { l with train := .equalise }))
  else
    let g := bestGroup w w (fun i => !((s.lport lp).lane i).failed)
    let s := s.updLport lp (fun l => { l with train := .equalise })
    if (s.portCfgOf n).getLsbD 6 then (match g with | some g => emit (.autoneg lp g.1) s | none => s) else s

/-- Whether native boot has its port (R460): Foundation waits for an image, and no other route holds the claim. -/
def bootWanted (s : State) : Bool :=
  let c := s.castOn
  let claim := c.st == .claimed || c.st == .verifying
  bootNum s != 0 && s.fnd.ready && s.fc.dstate != .halted &&
    (c.st == .waiting || c.st == .rejected || (claim && c.route == .native))

/-- Train the boot port, or take it down, as Foundation's wait for an image says (R460). -/
def bootSync (s : State) : State :=
  let lp := 8 * (bootNum s - 1)
  if bootWanted s == s.castOn.bootPort then s
  else if s.castOn.bootPort then
    let s := portDown lp s
    trainStart lp { s with castOn := { s.castOn with bootPort := false } }
  else trainStart lp { s with castOn := { s.castOn with bootPort := true } }

/-- Send TS_ALIGN: the lanes trained here and the width configured here. -/
def sendAlign (lp : Nat) (s : State) : State :=
  let l := s.lport lp
  let w := lpWidth s lp
  let ok (i : Nat) : Bool := (l.lane i).localReady && (l.lane i).peerReady
  sendCtlOn lp ((List.range w).filter ok) (ctlWord 3 0 (laneMaskOf w ok) w 0 false) [] s

/-! ### Width (R330) -/

/-- Ask the peer for a width: blocks from the next new one on go at it. -/
def askWidth (lp : Nat) (g : Nat × Nat) (s : State) : State :=
  let seq := (s.lport lp).txSeq
  let m := groupMask g
  sendCtlOn lp ((activeLanes s lp).filter (fun i => !((s.lport lp).lane i).failed)) (ctlWord 4 seq.toNat m 0 0 false) []
    (s.updLport lp (fun l => { l with pending := some (BitVec.ofNat 8 m, seq) }))

/-- Run at a new width: the held blocks are replayed at it. -/
def setWidth (lp : Nat) (g : Nat × Nat) (s : State) : State :=
  let s := count 524 (32 * lp + 8) (s.updLport lp (fun l => { l with width := g.1, mask := BitVec.ofNat 8 (groupMask g), pending := none }))
  match (s.lport lp).replay with
  | [] => s
  | b :: _ => replayFrom lp b.seq s

/-- A lane is lost (R330, R331): a native sub-port narrows, or goes down with its last lane; an IEEE one goes down and
negotiates again. -/
def laneLost (lp lane : Nat) (s : State) : State :=
  let l := s.lport lp
  if (l.lane lane).failed then s
  else
    let s := updLane lp lane (fun x => { x with failed := true, retraining := false }) s
    if l.train != .up then s
    else if portMode s (lpPort lp) ≠ 0 then trainStart lp (portDown lp s)
    else if !l.mask.getLsbD lane then s
    else
      match bestGroup (lpWidth s lp) (l.width / 2) (fun i => !((s.lport lp).lane i).failed) with
      | some g => askWidth lp g s
      | none => portDown lp s

/-- A lane of a sub-port returns (R332): the sub-port widens where it can. -/
def laneBack (lp lane : Nat) (s : State) : State :=
  let s := updLane lp lane (fun x => { x with failed := false, retraining := false }) s
  let l := s.lport lp
  if l.train != .up || portMode s (lpPort lp) ≠ 0 then s
  else
    match bestGroup (lpWidth s lp) 8 (fun i => !((s.lport lp).lane i).failed) with
    | some g => if l.width < g.1 then askWidth lp g s else s
    | none => s

/-- The logical port and lane of a lane UNIT of a fabric pair. -/
def unitLane (s : State) (source unit : Nat) : Nat × Nat :=
  let n := 2 * (source - 42) + unit % 16 / 8
  let w := splitWidth s n
  (8 * n + unit % 8 / w, unit % 8 % w)

end Sys2Proof.Machine
end

