-- ==== Sys2Proof/Machine/Dlink.lean ====
section
/-! DEFINITION. What die-link modules do (11 R335, R343, R346): acknowledgement, replay, and fencing. The commands that
cause it stand in DieLink.lean. -/

namespace Sys2Proof.Machine

/-- The fault source of a module's die port (R346, R389). -/
def dieSource (mi : Nat) : Nat := 38 + mi / 6

/-- Whether a die port holds the stash (R390, R414): it lies in one granule of DL_ROUTE. -/
def holdsStash (s : State) (p : Nat) : Bool :=
  match s.sc.stash with
  | none => false
  | some g => dpaPort s (g <<< 30) == some p

/-- Command flits that an ACK_FSEQ covers leave the replay buffer (R337). -/
def ackFlits (mi : Nat) (ack : BitVec 8) (s : State) : State :=
  s.updMod mi (fun m => { m with replay := m.replay.filter (fun e => decide ((ack - e.1).toNat ≥ 128)) })

/-- Replay every held command flit of a module with its data (R343). -/
def replayFlitsOf (mi : Nat) (s : State) : State :=
  let s := (s.mod mi).replay.foldl (fun s e => count 526 (64 * mi + 2) (emit (.flit mi e.1 true e.2.1) s)) s
  s.updMod mi (fun m => { m with replay := m.replay.map (fun e => (e.1, e.2.1, e.2.2 + 1)) })

/-- Whether some flit of a module was replayed 16 times (R346). -/
def overReplayed (s : State) (mi : Nat) : Bool := (s.mod mi).replay.any (fun e => decide (16 ≤ e.2.2))

/-- Issue a fenced module's request again on the survivors, or fail it (R346): an atomic always fails. -/
def reissue (port : Nat) (r : DlReq) (s : State) : State :=
  let lost (c : Nat) : State := endUses r.purp (answer r.purp r.cmd.addr (.failed c (38 + port) (r.cmd.len + 1)) s)
  if r.cmd.cmd = 3 then lost caTargetError
  else
    match dlIssueNow r.purp r.cmd s with
    | some s => s
    | none => lost caDiePortLost

/-- Fence a module (R346): ACTIVE is recomputed, reads and writes without a response go again on the survivors, atomics
fail. Responses that the compute die has not acknowledged go on the first survivor (log 26). -/
def fenceModule (mi : Nat) (s : State) : State :=
  let m := s.mod mi
  if !m.active then s.updMod mi (fun _ => {})
  else
    let s := s.updMod mi (fun _ => {})
    let s := m.reqs.foldl (fun s r => reissue (mi / 6) r.2 s) s
    match activeModules s (mi / 6) with
    | [] => s
    | k :: _ => (m.replay.map (·.2.1) ++ m.waiting).foldl (fun s c => if isRsp c then dlSend k c s else s) s

/-- A module carries requests again once it is up and in service. -/
def moduleBack (mi : Nat) (s : State) : State :=
  if (s.mod mi).up then s.updMod mi (fun m => { m with active := true })
  else emit (.sideband (mi / 6) 0x01 (BitVec.ofNat 64 (Config.ownKind.toNat + 256))) s

end Sys2Proof.Machine
end

