-- ==== Sys2Proof/Machine/Collector.lean ====
section
/-! DEFINITION. The fault collector's reactions (14 R393-R396), fences and where work goes (R398-R401), fatal events
(R405, R406), and the commands FAULT_EVENT, ESCALATION_TIMER, UNIT_RESET_DONE, SWATCH_DONE and FC_STATUS. -/

namespace Sys2Proof.Machine

/-! ### Kinds of unit (R399) -/

/-- The units of one kind, of which one must stay in service; none where a source's units are exempt. -/
def kindUnits (n unit : Nat) : List (Nat × Nat) :=
  let all (lo cnt units : Nat) : List (Nat × Nat) := (List.range cnt).flatMap (fun k => (List.range units).map (fun u => (lo + k, u)))
  if n < 16 then all 0 16 1
  else if n ≤ 23 then all 16 8 4
  else if n ≤ 27 then all 24 4 1
  else if n ≤ 31 then (if unit < 2 then (List.range 4).map (fun k => (28 + k, unit)) else [])
  else if n ≤ 33 then all 32 2 4
  else if n ≤ 35 then all 34 2 1
  else if n = 50 then all 50 1 4
  else []

/-- Whether a fence of what UNIT names would leave no unit of its kind in service. -/
def lastOfKind (s : State) (n unit : Nat) : Bool :=
  let ks := kindUnits n unit
  !ks.isEmpty && ks.all (fun k => (k.1 == n && (unitsOf n unit).contains k.2) || oneUnit s k.1 k.2 != .inService)

/-- The units for which BLOCK_RESET is defined (R394). -/
def canReset (n : Nat) : Bool := decide (n ≤ 35) || (decide (38 ≤ n) && decide (n ≤ 47)) || n == 50 || n == 52 || n == 57

/-! ### Where a fenced unit's work goes (R400, R401) -/

/-- QPS_ASSIGNED of a needle (R475). -/
def setAssigned (n : Nat) (s : State) : State :=
  { s with counters := Tab.put s.counters (522 * 8192 + 64 * n + 7) (BitVec.ofNat 64 (Tab.countWhere s.qps (fun _ q => q.needle == some n))) }

/-- A QP takes part again after a recovery: it sends RESUME (R144, R180). After rehoming (`again`) it also sends what it has
unacknowledged again, uncounted (R149); after a re-init its timers do. -/
def qpRecovered (qpn : Nat) (again : Bool) (s : State) : State :=
  let q := s.qp qpn
  let live := q.st == .active || q.st == .held || (q.st == .draining && !q.abort)
  if !live then s
  else if q.mode == .roce then (if q.st == .held then s else pumpRoce qpn (if again then roceGoBack qpn s else s))
  else
    let s := sendResume qpn s
    if q.st == .held then s else pumpQp 1024 qpn (if again then resendAll qpn false s else s)

/-- Rehome the QPs of a needle (R149): in QPN order, round-robin over the survivors. -/
def rehome (n : Nat) (s : State) : State :=
  let to_ := (List.range 16).filter (fun k => k ≠ n && oneUnit s k 0 == .inService)
  let qs := Tab.keysWhere s.qps (fun _ q => q.needle == some n)
  let s := qs.zipIdx.foldl (fun s e =>
    let k := to_.getD (e.2 % max 1 to_.length) n
    qpRecovered e.1 true (count 522 (64 * k + 8) (s.updQp e.1 (fun q => { q with needle := some k })))) s
  (n :: to_).foldl (fun s k => setAssigned k s) s

/-- The running extents of a mover run again from their start on others (R95, R400). -/
def moverLost (m : Nat) (s : State) : State :=
  let es := s.ops.flatMap (fun o => (o.2.work.zipIdx.filter (fun e => e.1.engine == m + 1)).map (fun e => (o.1, e.2)))
  pumpWork (es.foldl (fun s e => extRerun (e.1 / 16777216) (e.1 % 16777216) e.2 true s) s)

/-- A walker's outstanding walks are issued again (R400); `ws` are their slots. -/
def walkerLost (ws : List Nat) (s : State) : State :=
  ws.foldl (fun s w =>
    match Tab.get s.xlt.walks w with
    | none => s
    | some k =>
      let p := (s.ctx k.ctx).panel k.panel
      (dlIssue (.walk w) (cmdRead (accessTag s k.ctx) 0 (p.chart + 8 * k.page) 8) (freeReqs (.walk w) 16 s)).getD s) s

/-- The fetched descriptors of a half's queues that had not started are lost, and their contexts with them (R401). -/
def halfLost (sqs : List Nat) (s : State) : State :=
  let lost := opsWhere s (fun o => o.stage == .accepting || o.stage == .ready || o.stage == .waiting)
  let lost := lost.filter (fun k => sqs.contains k.1)
  let s := lost.foldl (fun s k => s.updOp k.1 k.2 (fun o => { o with stage := .ended, sig := none })) s
  let cs := (lost.filterMap (fun k => (s.op k.1 k.2).map (·.ctx))).dedup
  let s := cs.foldl (fun s c => contextLost c 5 s) s
  let s := lost.foldl (fun s k => completeOp k.1 k.2 stContextLost 5 s) s
  pumpAll (count 520 6 s)

/-- A fenced unit's work moves: `before` is the state at the fence, `s` the one with the unit FENCED. -/
def unitLost (n u : Nat) (before s : State) : State :=
  if n < 16 then rehome n s
  else if n ≤ 23 then moverLost (4 * (n - 16) + u) s
  else if n ≤ 27 then slotsLost (fun k => k / 36 == n - 24) s
  else if n ≤ 31 then (if u = 2 then decryptLost ((n - 28) / 2) s else s)
  else if n ≤ 33 then
    walkerLost ((before.xlt.walks.map (·.1)).filter (fun w => walkerOf before w == 4 * (n - 32) + u)) s
  else if n ≤ 35 then halfLost ((before.sqs.map (·.1)).filter (fun q => halfOf before q == n - 34)) s
  else if 38 ≤ n ∧ n ≤ 41 then fenceModule (6 * (n - 38) + u) s
  else if 42 ≤ n ∧ n ≤ 47 then (let l := unitLane s n u; laneLost l.1 l.2 s)
  else if n = 57 then
    s.updFc (fun c => { c with status := BitVec.ofNat 60 ((c.src.map (fun e => if e.2.causeActive && e.1 < 60 then 2 ^ e.1 else 0)).foldl (· + ·) 0) })
  else s

/-! ### Fatal events (R405, R406) -/

/-- Take every fabric port down; nothing of the transport runs any more. -/
def allPortsDown (s : State) : State := (s.lports.map (·.1)).foldl (fun s lp => portDown lp s) s

/-- Halt (R405): ERR_N, one message on vector 2, every port down. -/
def halt (n : Nat) (s : State) : State :=
  let s := updSrc n (fun c => { c with errn := true }) s
  let s := sendMsix (mgrLink s) 2 (s.updFc (fun c => { c with dstate := .halted, step := none }))
  allPortsDown s

/-- The time within which a third warm re-init halts instead: 60 s in ticks (R406). -/
def minuteTicks : Nat := 37500000000

/-- Whether two warm re-inits began within the last 60 s: as the command says, else as the model recorded them. -/
def twoWithin (two : Option Bool) (s : State) : Bool :=
  match two with
  | some b => b
  | none => decide (2 ≤ (s.fc.reinitTimes.filter (fun t => decide (s.ticks < t + minuteTicks))).length)

/-- Whether an FT event halts the device in fleet mode too (R406). -/
def haltsAlways (s : State) (n detail : Nat) : Bool :=
  detail == 0x13 || detail == 0x18 || detail == 0x1B || (detail == 0x09 && decide (38 ≤ n) && decide (n ≤ 41) && holdsStash s (n - 38))

/-- An ACTIVE QP is held for a recovery (R144). -/
def Qp.holdRecovery (q : Qp) : Qp := if q.st == .active then { q with st := .held, recovery := true } else q

/-- A warm re-init begins (R406, R408, R409): QPs go to HELD, and pending faults are discarded (R139). -/
def reinitStart (n detail : Nat) (s : State) : State :=
  let s := s.updFc (fun c => { c with
    dstate := .reinit, step := some .quiesce, cause := detail, intPending := false, reinitTimes := s.ticks :: c.reinitTimes, lastFtSource := n })
  let s := scAbort { s with qps := Tab.mapV s.qps (fun _ q => q.holdRecovery) }
  s.updXlt (fun x => { x with faults := [], fenced := [], latched := [], summary := [], queue := [], walks := [], seen := [] })

/-- CHIP_RESET (R393, R405, R406): `detail` is the event's code, `rowAt` its record's row. Before cast-on is READY it halts in
either mode (R455). -/
def chipReset (two : Option Bool) (n detail : Nat) (rowAt : BitVec 32) (s : State) : State :=
  if s.fc.dstate == .halted then s
  else
    let s := s.updFc (fun c => { c with lastFtSource := n, lastFtRow := rowAt, recording := c.recording && !c.traceFreeze })
    if !s.fleet || s.castOn.st != .ready || haltsAlways s n detail || s.fc.dstate == .reinit || twoWithin two s then halt n s
    else reinitStart n detail s

/-- An FT event (R388, R396, R405, R406), already counted: `rowAt` is its record's row. -/
def fatal (two : Option Bool) (e : Ev) (rowAt : BitVec 32) (s : State) : State :=
  if s.fc.dstate == .halted then s
  else
    let s := if !s.fleet || s.fc.ftErrn then updSrc e.source (fun c => { c with errn := true }) s else s
    chipReset two e.source e.detail rowAt s

/-- Report an FT event. -/
def ftReport (two : Option Bool) (e : Ev) (s : State) : State :=
  let rowAt := s.fc.traceRow
  let e := { e with cls := 3 }
  fatal two e rowAt (setStatus e (countEvent e s))

/-! ### Actions (R393, R394) -/

/-- A UC event of units that are FENCED already: it is counted and shown, and nothing reacts (R396). -/
def ucQuiet (e : Ev) (s : State) : State := setStatus e (countEvent e s)

/-- BLOCK_RESET (R398-R400): the last unit of its kind is not fenced; an FT event is reported in its place. A die port
that loses its last module is lost (R346, R390). -/
def blockReset (two : Option Bool) (e : Ev) (s : State) : State :=
  let n := e.source
  let us := (unitsOf n e.unit).filter (fun u => oneUnit s n u == .inService)
  if us.isEmpty then s
  else if lastOfKind s n e.unit then
    ftReport two { e with detail := if n = 50 then 0x11 else 0x1F } s
  else
    let p := n - 38
    let had := decide (38 ≤ n) && decide (n ≤ 41) && !(activeModules s p).isEmpty
    let s1 := us.foldl (fun s u => updSrc n (fun c => { c with fences := min 15 (c.fences + 1) }) (setUnit n u .fenced s)) s
    let s1 := updSrc n (fun c => { c with sstateUnit := e.unit }) s1
    let s2 := us.foldl (fun t u => unitLost n u s t) s1
    if had && (activeModules s2 p).isEmpty && e.detail ≠ 0x09 then
      let x := { e with detail := 0x09, unit := 7 }
      if holdsStash s2 p then ftReport two x s2 else ucQuiet x s2
    else s2

/-- Take one action for an event. -/
def act (two : Option Bool) (action : Nat) (e : Ev) (s : State) : State :=
  let errn (s : State) : State := updSrc e.source (fun c => { c with errn := true }) s
  let reset (s : State) : State := if canReset e.source then blockReset two e s else fcInterrupt s
  let chip (s : State) : State :=
    let rowAt := s.fc.traceRow
    chipReset two e.source e.detail rowAt (traceWrite e 3 s)
  match action with
  | 1 => fcInterrupt s
  | 3 => reset s
  | 4 => chip s
  | 5 => errn s
  | 6 => if canReset e.source then reset (errn s) else errn s
  | 7 => chip (errn s)
  | _ => s

/-- The collector handles an event (R396). -/
def onEvent (two : Option Bool) (e : Ev) (s : State) : State :=
  if e.cls = 1 then ceEvent e s
  else if e.cls = 3 then ftReport two e s
  else
    let was := statusBit s e.source
    let s := setStatus e (countEvent e s)
    if s.fc.dstate == .halted then s
    else
      match unitState s e.source e.unit with
      | .fenced => s
      | .testing => (unitsOf e.source e.unit).foldl (fun s u => if oneUnit s e.source u == .testing then setUnit e.source u .fenced s else s) s
      | .inService =>
        let s := act two (reactFirst s e.source) e s
        if was then s
        else (updSrc e.source (fun c => { c with escalated := false }) s).updFc (fun c => { c with timers := e.source :: c.timers.filter (· ≠ e.source) })

/-- A UC event of the block's own. -/
def ucReport (source detail unit : Nat) (ctx : Option Nat) (s : State) : State :=
  let x := ownEv source 2 detail unit ctx s
  onEvent none x.1 x.2

/-! ### Commands -/

/-- FAULT_EVENT (R396, R401, R422): a lost State Cache line or stash record loses its context; so does a lost modified
line of the coherent window cache. A State Cache error counts against its way. -/
def execFaultEvent (f : FaultEv) (s : State) : Host.Outcome State Fault Refusal :=
  let e : Ev :=
    { source := f.source, cls := f.cls, detail := f.detail, unit := f.unit, ctx := f.ctx, slice := f.slice, active := f.causeActive, stamp := f.unitStamp }
  let lose (s : State) : State :=
    match f.ctx with
    | none => s
    | some c =>
      if f.detail = 0x0D ∨ f.detail = 0x20 then contextLost c 2 s
      else if f.detail = 0x0F then contextLost c 5 s
      else s
  let s := updSrc f.source (fun c => { c with causeActive := f.causeActive }) s
  let s := if (f.source = 36 ∨ f.source = 37) ∧ (f.detail = 0x01 ∨ f.detail = 0x0C ∨ f.detail = 0x0D) then scErr (f.source - 36) f.unit s else s
  done (onEvent (some f.twoRecent) e (if s.fc.dstate == .halted then s else lose s))

/-- ESCALATION_TIMER (R396): ESC is taken once for each setting of the bit. -/
def execEscalationTimer (source : Nat) (twoRecent : Bool) (s : State) : Host.Outcome State Fault Refusal :=
  done (
    if !s.fc.timers.contains source then s
    else
      let s := s.updFc (fun c => { c with timers := c.timers.filter (· ≠ source) })
      let f := fcSrc s source
      if !statusBit s source || f.escalated || s.fc.dstate == .halted then s
      else
        let x := ownEv source 2 f.detail f.unit none (updSrc source (fun c => { c with escalated := true }) s)
        act (some twoRecent) (reactEsc s source) { x.1 with injected := f.injected } x.2)

/-- Whether AUTO_RESTORE applies to a source (R392, R398). -/
def autoOn (s : State) (n : Nat) : Bool := reactAuto s n && decide (0 < s.fc.fenceLimit) && decide ((fcSrc s n).fences ≤ s.fc.fenceLimit)

/-- UNIT_RESET_DONE (R398). -/
def execUnitResetDone (source unit : Nat) (s : State) : Host.Outcome State Fault Refusal :=
  done (
    if autoOn s source && s.fc.dstate == .normal then
      (unitsOf source unit).foldl (fun s u => if oneUnit s source u == .fenced then setUnit source u .testing s else s) s
    else s)

/-- A unit is in service again, and its capacity returns (R398). -/
def unitReturns (n u : Nat) (s : State) : State :=
  let s := setUnit n u .inService s
  if n ≤ 23 then pumpWork s
  else if n ≤ 27 then (s.groups.map (·.1)).foldl (fun s g => slotsGive 4096 g s) s
  else if n ≤ 31 then (if u = 2 then loadPump s else s)
  else if n ≤ 33 then pumpWalks 256 s
  else if n ≤ 35 then pumpAll s
  else if n = 36 ∨ n = 37 then wayBack (n - 36) u s
  else if 38 ≤ n ∧ n ≤ 41 then moduleBack (6 * (n - 38) + u) s
  else if 42 ≤ n ∧ n ≤ 47 then (let l := unitLane s n u; laneBack l.1 l.2 s)
  else s

/-- SWATCH_DONE (R398): a failure is counted as one of the unit's UC events. -/
def execSwatchDone (source unit : Nat) (passed : Bool) (s : State) : Host.Outcome State Fault Refusal :=
  done (
    if s.fc.dstate == .halted then s
    else
      (unitsOf source unit).foldl (fun s u =>
        if oneUnit s source u != .testing then s
        else if passed then countUnnamed (unitReturns source u s)
        else countUnnamed (setUnit source u .fenced s)) s)

/-- Clear FC_STATUS bit n (R392, R395, R396). -/
def clearStatus (n : Nat) (s : State) : State :=
  let s := s.updFc (fun c => { c with status := c.status &&& ~~~(1#60 <<< n), timers := c.timers.filter (· ≠ n) })
  updSrc n (fun c => { c with cls := 0, detail := 0, unit := 0, injected := false, escalated := false, errn := false }) s

/-- FC_STATUS (R391, R392): a 1 clears a bit whose cause is gone. -/
def execFcStatus (w : RegWrite) (s : State) : Host.Outcome State Fault Refusal :=
  done (fcReg w (fun s =>
    let v := freshReg w
    (List.range 60).foldl (fun s n => if v.getLsbD n && !(fcSrc s n).causeActive then clearStatus n s else s) s) s)

end Sys2Proof.Machine
end

