-- ==== Sys2Proof/Machine/HostPort.lean ====
section
/-! DEFINITION. The host links (10_host_port): BAR 2 and CXL.mem, back-invalidation, and the resets, losses and power
states of a link. -/

namespace Sys2Proof.Machine

/-! ### BAR 2 (R300-R303) -/

/-- Kind of a BAR 2 request, by its bit in HP_RID_FILTER. -/
inductive BarKind where
  | read
  | write
  | atomic
  deriving DecidableEq, Repr

/-- The filter's bit for a kind. -/
def BarKind.bit : BarKind → Nat | .read => 34 | .write => 35 | .atomic => 36

/-- Whether an entry of the filter admits a request (R301). -/
def filterAdmits (e : BitVec 38) (link : Nat) (rid : BitVec 16) (k : BarKind) : Bool :=
  let mask := BitVec.ofNat 16 (fld e 31 16)
  e.getLsbD 37 && fld e 33 32 == link && (rid &&& mask) == (BitVec.ofNat 16 (fld e 15 0) &&& mask) && e.getLsbD k.bit

/-- Whether BAR 2 admits a request (R301). -/
def barAdmits (s : State) (r : Bar2Req) (k : BarKind) : Bool :=
  s.ridFilter.any (fun e => filterAdmits e.2 r.link r.rid k)

/-- DPA of a BAR 2 offset (R300): SLIDE bits below the BAR size are taken as 0. -/
def barDpa (s : State) (link off : Nat) : Nat :=
  let k := 2 ^ (s.link link).bar2Log2
  (s.bar2Slide / k * k) <<< 30 ||| off

/-- Refuse a BAR 2 request (R301): a write has no tag to complete. -/
def barRefuse (link : Nat) (tag : Option Nat) (s : State) : State :=
  let s := count 525 (256 * link) s
  match tag with
  | some t => emit (.unsupported link t) s
  | none => emit (.aer link) s

/-- What every BAR 2 request meets before it reaches HBM (R301, R300, R405, R414). -/
def barGate (r : Bar2Req) (k : BarKind) (len : Nat) (tag : Option Nat) (go : Nat → State → State) (s : State) : State :=
  if s.fc.dstate == .halted then (match tag with | some t => emit (.completerAbort r.link t) s | none => s)
  else if !barAdmits s r k then barRefuse r.link tag s
  else
    let a := barDpa s r.link r.offset
    if inStash s a len then barRefuse r.link tag (count 525 (256 * r.link + 7) s)
    else if !inHbm s a len then barRefuse r.link tag s
    else go a s

/-- BAR2_READ (R301-R303, R441). -/
def execBar2Read (r : Bar2Req) (len : Nat) (s : State) : Host.Outcome State Fault Refusal :=
  done (barGate r .read len (some r.tag) (fun a s =>
    if isSealed s a len then bar2Answer r.link r.tag len (.poison len caSourcePoison) (count 525 (256 * r.link + 8) s)
    else
      match dlIssue (.bar2 r.link r.tag len) (cmdRead 0 2 a len) s with
      | some s => s
      | none => bar2Answer r.link r.tag len (.failed caDiePortLost 0x3F len) s) s)

/-- BAR2_WRITE (R301-R303): in pieces of one 4 KiB block each. -/
def execBar2Write (r : Bar2Req) (data : List Byte) (poisoned : Bool) (s : State) : Host.Outcome State Fault Refusal :=
  done (barGate r .write data.length none (fun a s =>
    let s := if poisoned then count 525 (256 * r.link + 1) s else s
    (cut4k 4096 a data.length).foldl (fun s p =>
      (dlIssue (.bar2Write r.link) { cmdWrite 0 2 p.2.1 (slice data p.1 p.2.2) with poison := poisoned } s).getD s) s) s)

/-- The die-link atomic and the operand size of a host's AtomicOp (R295, R340); none where R295 does not list it. -/
def hostAop : HostAtomic → Option (Nat × Nat)
  | .fetchAdd 8 => some (1, 8)
  | .fetchAdd 4 => some (2, 4)
  | .swap 8 => some (3, 8)
  | .swap 4 => some (4, 4)
  | .cas 4 => some (5, 4)
  | .cas 8 => some (6, 8)
  | .cas 16 => some (7, 16)
  | _ => none

/-- BAR2_ATOMIC (R301, R302, R340, R441). -/
def execBar2Atomic (r : Bar2Req) (op : HostAtomic) (a b : BitVec 128) (s : State) : Host.Outcome State Fault Refusal :=
  done (
    match hostAop op with
    | none => barRefuse r.link (some r.tag) s
    | some (aop, n) =>
      barGate r .atomic n (some r.tag) (fun addr s =>
        if addr % n ≠ 0 then barRefuse r.link (some r.tag) s
        else if isSealed s addr n then emit (.completerAbort r.link r.tag) (count 525 (256 * r.link + 8) s)
        else
          match dlIssue (.bar2Atomic r.link r.tag) (cmdAtomic 0 2 addr n aop a b) s with
          | some s => s
          | none => emit (.completerAbort r.link r.tag) s) s)

/-! ### CXL.mem and the HDM directory (R311) -/

/-- The least recently used line of the directory. -/
def hdmOldest (s : State) : Option (Nat × HdmLine) :=
  s.hdm.foldl (fun b e => match b with | none => some e | some o => if e.2.lru < o.2.lru then some e else some o) none

/-- Record the state in which a link holds a line. -/
def hdmPut (link line : Nat) (modified : Bool) (s : State) : State :=
  { s with hdm := Tab.put s.hdm line { link := link, modified := modified, lru := s.lruClock }, lruClock := s.lruClock + 1 }

/-- Run a CXL.mem access once no other link holds its line and the directory has room. Until it is issued, AUX of its
command says whether a read asks for the line exclusively. -/
def cxlGo (link : Nat) (purp : Purpose) (c : DlCmd) (s : State) : State :=
  let line := c.addr / 64
  let rd := c.cmd == 1
  let run (s : State) : State :=
    let s := if rd then hdmPut link line (c.aux == 1) s
      else { s with hdm := Tab.adj s.hdm line (fun h => { h with modified := false }) }
    match dlIssueNow purp { c with aux := 0 } s with
    | some s => s
    | none => endUses purp (answer purp c.addr (.failed caDiePortLost 0x3F (c.len + 1)) s)
  match waitsBefore s c.addr (c.len + 1) with
  | some w => { s with biWait := s.biWait ++ [{ w with purp := purp, cmd := c }] }
  | none =>
    match Tab.get s.hdm line with
    | some h => if h.link = link then run s else askBack h.link line h.modified purp c s
    | none =>
      if rd && decide (131072 ≤ s.hdm.length) then
        match hdmOldest s with
        | some (l, h) => askBack h.link l h.modified purp c s
        | none => run s
      else run s

/-- CXL_MEM_READ (R311, R414, R441). -/
def execCxlMemRead (link tag hpa : Nat) (exclusive : Bool) (s : State) : Host.Outcome State Fault Refusal :=
  let a := (hpa - (s.link link).hdmBase) / 64 * 64
  let poison (s : State) : State := cxlAnswer link tag (.poison 64 caSourcePoison) s
  done (
    if s.fc.dstate == .halted then emit (.completerAbort link tag) s
    else if inStash s a 64 then poison (count 525 (256 * link + 7) s)
    else if hpa < (s.link link).hdmBase || !inHbm s a 64 then poison s
    else if isSealed s a 64 then poison (count 525 (256 * link + 8) s)
    else cxlGo link (.cxlRead link tag) { cmdRead 0 2 a 64 with aux := b2n exclusive } s)

/-- CXL_MEM_WRITE (R311, R414). -/
def execCxlMemWrite (link tag hpa : Nat) (data : List Byte) (s : State) : Host.Outcome State Fault Refusal :=
  let a := (hpa - (s.link link).hdmBase) / 64 * 64
  done (
    if s.fc.dstate == .halted then emit (.completerAbort link tag) s
    else if inStash s a 64 then emit (.cxlAck link tag) (count 525 (256 * link + 7) s)
    else if hpa < (s.link link).hdmBase || !inHbm s a 64 then emit (.cxlAck link tag) s
    else cxlGo link (.cxlWrite link tag) (cmdWrite 0 2 a (slice data 0 64)) s)

/-- Whether an access is a CXL.mem request of a host. -/
def isCxl (p : Purpose) : Option Nat := match p with | .cxlRead l _ => some l | .cxlWrite l _ => some l | _ => none

/-- Try again an access that waited for a host's answer. -/
def retryWait (w : BiWait) (s : State) : State :=
  match isCxl w.purp with
  | some l => cxlGo l w.purp w.cmd s
  | none =>
    match dlIssue w.purp w.cmd s with
    | some s => s
    | none => endUses w.purp (answer w.purp w.cmd.addr (.failed caDiePortLost (38 + (dpaPort s w.cmd.addr).getD 0) (w.cmd.len + 1)) s)

/-- Try again, in order, every access that waits on lines that satisfy a test. -/
def retryWaits (f : BiWait → Bool) (s : State) : State :=
  let ws := s.biWait.filter f
  ws.foldl (fun s w => retryWait w s) { s with biWait := s.biWait.filter (fun w => !f w) }

/-- BACK_INVALIDATE_RESPONSE (R311): modified data goes to HBM first; a line that was asked for its data only stays with
the host, unmodified. -/
def execBackInvalidateResponse (link line : Nat) (data : Option (List Byte)) (s : State) : Host.Outcome State Fault Refusal :=
  let ws := s.biWait.filter (fun w => w.link == link && w.line == line)
  let keep : Bool := match ws with
    | w :: _ => (isCxl w.purp).isNone && w.cmd.cmd == 1 && overlaps (line * 64) 64 w.cmd.addr (w.cmd.len + 1)
    | [] => false
  let held : Bool := match Tab.get s.hdm line with | some h => h.link == link | none => false
  done (
    if s.fc.dstate == .halted || !held then s
    else
      let s := match data with
        | some d => (dlIssueNow (.bar2Write link) (cmdWrite 0 2 (line * 64) (slice d 0 64)) s).getD s
        | none => s
      let s := { s with hdm := if keep then Tab.adj s.hdm line (fun h => { h with modified := false }) else Tab.del s.hdm line }
      retryWaits (fun w => w.link == link && w.line == line) s)

/-! ### Links that go down and come up (R296, R315, R316) -/

/-- The reset size of BAR 2 (R300), as the log of its GiB: the smallest that covers the installed HBM. -/
def bar2Cover (gib : Nat) : Nat := ((List.range 12).find? (fun k => decide (gib ≤ 2 ^ k))).getD 11

/-- Whether a link offers CXL at a fundamental reset (R296). -/
def cxlOffer (s : State) (link : Nat) : Bool := (s.link link).cfg.getLsbD 0 || s.castOnFuse.getLsbD (5 + link)

/-- Configuration space answers (R455). -/
def cfgAnswers (s : State) : Bool := !s.castOn.perst && s.castOn.rails == 5

/-- Send what waits on a link, where nothing holds it now. -/
def releaseLink (link : Nat) (s : State) : State :=
  let l := s.link link
  if linkHeld s link then s
  else
    let s := l.waiting.foldl (fun s r => hostSend link r s) (s.updLink link (fun l => { l with waiting := [] }))
    releaseFlags link s

/-- Fail every device-to-host request of a link (R315). -/
def failLink (link : Nat) (s : State) : State :=
  let rs := (s.link link).reqs
  let dw := s.directWait.filter (fun d => d.2.2 / 2 ^ 64 == link)
  let s := s.updLink link (fun l => { l with reqs := [], waiting := [], flags := [], cacheWrites := [] })
  let s := { s with directWait := s.directWait.filter (fun d => d.2.2 / 2 ^ 64 != link), cwc := s.cwc.filter (fun e => e.1 / 2 ^ 64 != link) }
  let s := rs.foldl (fun s e => endUses e.2.purp (answer e.2.purp e.2.addr (.failed caHostFailed 0x3F e.2.len) (hostFailed link e.2 s))) s
  dw.foldl (fun s d => directLineFailed link d.1 d.2.1 s) s

/-- Whether a route holds the claim of the staging buffer (R457). -/
def claimedBy (s : State) (r : Route) : Bool := (s.castOn.st == .claimed || s.castOn.st == .verifying) && s.castOn.route == r

/-- A claim of the staging buffer ends (R457): the buffer is cleared and Foundation waits again, in a state that CO_STATUS
shows. -/
def endClaim (st : CoState) (s : State) : State :=
  bootSync { s with castOn := { s.castOn with st := st, staging := [], total := none, held := 0 } }

/-- Configuration space of a link at its reset values (R315). -/
def Link.cfgReset (l : Link) (gib : Nat) : Link :=
  { l with cplDisabled := false, cplRange := 0, atomicEn := false, bar2Log2 := bar2Cover gib, maxPayload := 128, maxRead := 512,
           hdmBase := 0, fnMask := false, msix := [], msixPend := [], d3 := false }

/-- A halted device forgets what it asked of a link that is reset: nothing of it goes on (R405). -/
def dropLink (link : Nat) (s : State) : State :=
  { s.updLink link (fun l => { l with reqs := [], waiting := [], flags := [], cacheWrites := [] }) with
    directWait := s.directWait.filter (fun d => d.2.2 / 2 ^ 64 != link)
    cwc := s.cwc.filter (fun e => e.1 / 2 ^ 64 != link)
    biWait := s.biWait.filter (fun w => w.link != link) }

/-- What a link that is reset asked for, and the slices bound to it: during a warm re-init they are bound off at Resume. -/
def linkGone (link : Nat) (s : State) : State :=
  match s.fc.dstate with
  | .normal => failLink link (bindOffLink link (failLink link s))
  | .reinit => { failLink link s with heldOff := if s.heldOff.contains link then s.heldOff else s.heldOff ++ [link] }
  | .halted => dropLink link s

/-- A host that is gone holds no line of HBM: what waited on its lines goes on (R311). -/
def linesGone (link : Nat) (s : State) : State :=
  let s := { s with hdm := s.hdm.filter (fun h => h.2.link != link) }
  if s.fc.dstate == .halted then s else retryWaits (fun w => w.link == link) s

/-- With the manager link, the fault ring is disabled (R315) and a BAR 4 claim ends (R457). -/
def mgrGone (link : Nat) (s : State) : State :=
  if link = mgrLink s then
    let s := s.updXlt (fun x => { x with enable := false })
    if claimedBy s .bar4 then endClaim .waiting s else s
  else s

/-- The reset of one link (R315, R457): `up` says that its data link layer stays up. -/
def resetLink (link : Nat) (up : Bool) (s : State) : State :=
  let s := s.updLink link (fun l => { l with
    up := up && l.up, lostAt := if up then l.lostAt else some (l.lostAt.getD s.ticks) })
  let s := linesGone link (linkGone link s)
  let s := mgrGone link (s.updLink link (fun l => l.cfgReset s.hbmGib))
  if s.fc.dstate == .halted then s else ucReport (hostSource link) 0x0A link none s

/-- A fundamental reset of a link: its mode is chosen afresh, and the offer is made now (R296). -/
def fundamental (link : Nat) (s : State) : State :=
  let o := cxlOffer s link
  s.updLink link (fun l => { l with offered := o, fixed := false, cxl := false, cache := false, flit := false, rate := 0, width := 0 })

/-- The links that are present (R292). -/
def presentLinks (s : State) : List Nat := (List.range 4).filter (linkPresent s)

/-- Assertion of PERST_N (R315): a fundamental reset of every link. -/
def perstAssert (s : State) : State :=
  let s := { s with castOn := { s.castOn with perst := true } }
  (presentLinks s).foldl (fun s l => fundamental l (resetLink l false s)) s

/-- LINK_RESET (R315). -/
def execLinkReset (link : Nat) (kind : LinkResetKind) (s : State) : Host.Outcome State Fault Refusal :=
  done (
    match kind with
    | .perst => perstAssert s
    | .hotReset => resetLink link false s
    | .linkDisable => resetLink link false s
    | .flr => resetLink link true s)

/-- LINK_LOSS_TIMEOUT (R315): the data link layer has been down for 100 ms. -/
def execLinkLossTimeout (link : Nat) (s : State) : Host.Outcome State Fault Refusal :=
  done (if (s.link link).lostAt.isSome && !(s.link link).up then resetLink link false s else s)

/-- DATA_LINK_LAYER_LOSS (R315): the link's requests are held. -/
def execDataLinkLayerLoss (link : Nat) (s : State) : Host.Outcome State Fault Refusal :=
  done (s.updLink link (fun l => if l.up then { l with up := false, lostAt := some s.ticks } else l))

/-- DATA_LINK_LAYER_UP (R295-R297): the first training after a fundamental reset fixes the mode; the rate is never above
the cap, nor above 64 GT/s in CXL mode. -/
def execDataLinkLayerUp (link : Nat) (cxlAccepted cacheAccepted flit : Bool) (rate width : Nat) (s : State) :
    Host.Outcome State Fault Refusal :=
  done (
    if !linkPresent s link then s
    else
      let l := s.link link
      let cxl := if l.fixed then l.cxl else (l.offered || s.castOnFuse.getLsbD (5 + link)) && cxlAccepted
      let cache := if l.fixed then l.cache else cxl && cacheAccepted
      let rate := max rate (max (fld l.cfg 3 1 % 7) (b2n cxl))
      releaseLink link (s.updLink link (fun l => { l with
        up := true, lostAt := none, fixed := true, cxl := cxl, cache := cache, flit := flit || decide (rate ≤ 1), rate := rate, width := width })))

/-- POWER_STATE_CHANGE (R316). -/
def execPowerStateChange (link : Nat) (d3hot : Bool) (s : State) : Host.Outcome State Fault Refusal :=
  done (releaseLink link (s.updLink link (fun l => { l with d3 := d3hot })))

/-- PERST_DEASSERT (R455): configuration space answers once the rails are in tolerance too. -/
def execPerstDeassert (s : State) : Host.Outcome State Fault Refusal :=
  done { s with castOn := { s.castOn with perst := false } }

/-! ### Configuration requests (R293, R295, R300, R304, R314) -/

/-- What configuration space holds at an offset: the identity of R293, and where the spec names no value, an open one. -/
def cfgRead (link off : Nat) : Word :=
  if off = 0 then setFld (Config.cfgSpace link off) 31 16 0x4800
  else if off = 8 then setFld (Config.cfgSpace link off) 31 0 0x12000010
  else Config.cfgSpace link off

/-- CONFIGURATION_REQUEST (R314). -/
def execConfigurationRequest (link : Nat) (a : CfgAccess) (s : State) : Host.Outcome State Fault Refusal :=
  done (
    if !cfgAnswers s || !linkPresent s link then s
    else
      match a with
      | .read off => emit (.config link off (cfgRead link off)) s
      | .fnMask m => releaseMsix link (s.updLink link (fun l => { l with fnMask := m }))
      | .cplTimeout d r => s.updLink link (fun l => { l with cplDisabled := d, cplRange := r })
      | .atomicEnable on => s.updLink link (fun l => { l with atomicEn := on })
      | .bar2Size k => if k ≤ 11 then s.updLink link (fun l => { l with bar2Log2 := k }) else s
      | .maxPayload n => if n = 128 ∨ n = 256 ∨ n = 512 then s.updLink link (fun l => { l with maxPayload := n }) else s
      | .maxRead n =>
        if n ∈ [128, 256, 512, 1024, 2048, 4096] then s.updLink link (fun l => { l with maxRead := n }) else s
      | .hdmBase b => s.updLink link (fun l => { l with hdmBase := b })
      | .other _ => s)

end Sys2Proof.Machine
end

