-- ==== Sys2Proof/Machine/StateCache.lean ====
section
/-! DEFINITION. The State Cache's commands (15 R420-R424, 18 R469): scrubbing, way disable, and maintenance. -/

namespace Sys2Proof.Machine

/-! ### Scrubbing (R420, R421) -/

/-- The first line position (set × 16 + way) from one on whose way is enabled. -/
def scrubAt (s : State) (half pos : Nat) : Nat :=
  match (scWays s half).find? (fun w => decide (pos % 16 ≤ w)) with
  | some w => pos / 16 * 16 + w
  | none => (pos / 16 + 1) * 16 + ((scWays s half).head?).getD 0

/-- The end of a full pass: counted, and every error counter of the half is halved (R421, R422). -/
def scrubPass (half : Nat) (s : State) : State :=
  updSc (fun c => { c with
    passes := Tab.upd c.passes half 0 (fun n => min 65535 (n + 1))
    errs := Tab.mapV c.errs (fun k n => if k / 16 = half then n / 2 else n)
    scrubPos := Tab.put c.scrubPos half 0 }) s

/-- An error that a read of a line finds (R420, R401): 1 corrected, 2 uncorrectable. -/
def scFound (half way key found : Nat) (s : State) : State :=
  if found = 0 then s
  else
    let s := scErr half way s
    if found = 1 then ceReport (36 + half) 0x01 way none s
    else
      match Tab.get s.sc.lines key with
      | some l =>
        if l.dirty = 0 then ceReport (36 + half) 0x0C way none s
        else
          let c := lineCtx s l.line
          let s := updSc (fun x => { x with lines := Tab.del x.lines key }) s
          let s := match c with | some c => contextLost c 2 s | none => s
          ucReport (36 + half) 0x0D way c s
      | none => ceReport (36 + half) 0x0C way none s

/-- SCRUB_LINE (R421): the scrubber of a half reads its next line. -/
def execScrubLine (half found : Nat) (s : State) : Host.Outcome State Fault Refusal :=
  done (
    if !s.sc.scrubOn || !running s then s
    else
      let p := scrubAt s half (Tab.getD s.sc.scrubPos half 0)
      let last := 4095 * 16 + ((scWays s half).getLast?).getD 15
      let s := updSc (fun c => { c with scrubPos := Tab.put c.scrubPos half (p + 1) }) s
      let s := scFound half (p % 16) (half * 65536 + p) found s
      if last ≤ p then scrubPass half s else s)

/-- WAY_DISABLE (R422): a way whose counter reached 8 has drained; it is disabled, reported, and FENCED. -/
def execWayDisable (half way : Nat) (s : State) : Host.Outcome State Fault Refusal :=
  done (
    if !wayDue s half way || !running s then s
    else
      let s := setUnit (36 + half) way .fenced (wayOff half way s)
      ceReport (36 + half) 0x0E way none (updSrc (36 + half) (fun c => { c with fences := min 15 (c.fences + 1) }) s))

/-! ### Maintenance (R424) -/

/-- The keys of the cached lines that the running operation names, or the RESULT of one that names nothing it may touch;
and the number of its lines. -/
def scNamed (s : State) : Nat ⊕ (List Nat × Nat) :=
  let v := s.sc.cmd
  if v.getLsbD 2 then
    let half := fld v 3 3
    let way := fld v 19 16
    if (scDisabled s half).getLsbD way then .inl 2
    else .inr ([half * 65536 + fld v 15 4 * 16 + way], 1)
  else
    let first := s.sc.addr.toNat
    let n := s.sc.count.toNat
    if n = 0 || 2 ^ 21 < first + n then .inl 3
    else .inr (Tab.keysWhere s.sc.lines (fun _ l => decide (first ≤ l.line) && decide (l.line < first + n)), n)

/-- A write to SC_MAINT_CMD that carries an operation: one runs at a time; one that may do nothing ends at once. -/
def scStart (op : Nat) (w : RegWrite) (s : State) : Host.Outcome State Fault Refusal :=
  done (scReg w (fun s =>
    let v := BitVec.ofNat 20 (freshReg w).toNat
    if fld v 1 0 ≠ op then s
    else if s.sc.busy then count 527 3 s
    else
      let s := updSc (fun c => { c with cmd := v, linesDone := 0, result := 0 }) s
      match scNamed s with
      | .inl r => updSc (fun c => { c with result := r }) s
      | .inr _ => updSc (fun c => { c with busy := true }) s) s)

/-- SC_CLEAN (R424). -/
def execScClean (w : RegWrite) (s : State) : Host.Outcome State Fault Refusal := scStart 1 w s
/-- SC_INVALIDATE (R424). -/
def execScInvalidate (w : RegWrite) (s : State) : Host.Outcome State Fault Refusal := scStart 2 w s
/-- SC_CLEAN_INVALIDATE (R424). -/
def execScCleanInvalidate (w : RegWrite) (s : State) : Host.Outcome State Fault Refusal := scStart 3 w s

/-- SC_MAINT_COMPLETE (R424): every line is released and done; a way that was disabled meanwhile is named in RESULT. -/
def execScMaintComplete (s : State) : Host.Outcome State Fault Refusal :=
  done (
    if !s.sc.busy || !running s then s
    else
      match scNamed s with
      | .inl r => updSc (fun c => { c with busy := false, result := r }) s
      | .inr (ks, n) =>
        let s := ks.foldl (fun s k => scLineOp (fld s.sc.cmd 1 0) k s) s
        updSc (fun c => { c with busy := false, result := 0, linesDone := n }) s)

/-- SC_MAINT_ADDR as a register. -/
def scAddrReg (s : State) : Word := BitVec.ofNat 64 (s.sc.addr.toNat * 2 ^ 8 + s.sc.count.toNat * 2 ^ 32)

/-- SC_MAINT_ADDR (R424, R469): COUNT outside its range is refused when the operation starts. -/
def execScMaintAddr (w : RegWrite) (s : State) : Host.Outcome State Fault Refusal :=
  done (scReg w (fun s =>
    if s.sc.busy then count 527 3 s
    else
      let v := mergeReg w (scAddrReg s)
      updSc (fun c => { c with addr := BitVec.ofNat 21 (fld v 28 8), count := BitVec.ofNat 22 (fld v 53 32) }) s) s)

end Sys2Proof.Machine
end

