-- ==== Sys2Proof/Machine/Mailbox.lean ====
section
/-! DEFINITION. Mailboxes (13 R368-R380): the doorbell, the copy of a request, the frame of every command, and its
response. -/

namespace Sys2Proof.Machine

/-! ### Mailboxes (R368) -/

/-- The number of a mailbox: its slice, or 512 for the manager's. -/
def mbNum : Mbox → Nat | .manager => 512 | .slice s => s

/-- A mailbox is active: the manager's once the Hooks run, a slice's while its slice is ACTIVE. -/
def mbLive (s : State) (n : Nat) : Bool := if n = 512 then s.hooksUp else (s.slice n).st == .active

/-- The link on which a mailbox's pages lie. -/
def mbLink (s : State) (n : Nat) : Nat := if n = 512 then mgrLink s else (s.slice n).link

/-- Send a mailbox's response vector (R314, R368). -/
def mbVector (n : Nat) (s : State) : State :=
  if n = 512 then sendMsix (mgrLink s) 1 s else sliceMsix n (s.slice n).msixBase s

/-- Header word 0 of a message (R369). -/
def mbWord0 (opcode len seq slice : Nat) : Word :=
  BitVec.ofNat 64 (opcode % 2 ^ 16 + len % 2 ^ 16 * 2 ^ 16 + seq % 2 ^ 16 * 2 ^ 32 + slice % 2 ^ 9 * 2 ^ 48)

/-- Header word 1 of a response (R369). -/
def mbWord1 (status detail : Nat) : Word := BitVec.ofNat 64 (status % 2 ^ 16 + detail % 2 ^ 32 * 2 ^ 32)

/-- A response (R369): header and results. -/
def mbResponse (req0 : Word) (seq status detail : Nat) (rs : List Word) : List Word :=
  mbWord0 (fld req0 15 0) (8 * rs.length) seq (fld req0 56 48) :: mbWord1 status detail :: rs

/-- Write a response into the response page (R371). -/
def mbWrite (n : Nat) (ws : List Word) (s : State) : State :=
  s.updMbox n (fun m => { m with resp := ws ++ m.resp.drop ws.length })

/-- The response of the running command is valid (R373): it is kept, counted, and its vector is sent where the doorbell
asked for it. -/
def mbFinish (n status detail : Nat) (rs : List Word) (s : State) : State :=
  let m := s.mbox n
  let ws := mbResponse (m.req.getD 0 0) m.lastSeq.toNat status detail rs
  let s := mbWrite n ws (histogram 3 (s.ticks - m.since) s)
  let s := s.updMbox n (fun m => { m with running := false, started := false, kept := some ws, irq := false })
  let s := if status = 0 then s else count 528 1 s
  if m.irq then mbVector n s else s

/-! ### The doorbell (R373) -/

/-- The commands there are, by OPCODE (R381-R386). -/
def mbOpcodes : List Nat :=
  [0x0101, 0x0102] ++ (List.range 5).map (0x0201 + ·) ++ (List.range 6).map (0x0301 + ·) ++ (List.range 14).map (0x0401 + ·) ++
    [0x0501, 0x0502, 0x0503, 0x0601, 0x0602] ++ (List.range 5).map (0x0701 + ·) ++ [0x0801, 0x0802, 0x0803, 0x0901] ++
    [0x0A01, 0x0A02, 0x0B01, 0x0B02, 0x0B03, 0x0C01, 0x0C02, 0x0D01, 0x0D02, 0x0D03]

/-- The words of the request page. -/
def Mailbox.words (m : Mailbox) (k : Nat) : List Word := (List.range k).map (fun i => Tab.getD m.page i 0)

/-- An accepted MB_DB write (R373). A request whose OPCODE names no command is answered at once (R380). -/
def mbDoorbell (n : Nat) (v : Word) (irq : Bool) (s : State) : State :=
  let m := s.mbox n
  let seq := BitVec.ofNat 16 (fld v 15 0)
  let tell (s : State) : State := if irq then mbVector n s else s
  if m.running then
    (if seq == m.lastSeq then s else s.updMbox n (fun m => { m with ignored := if m.ignored = 0xFFFF then m.ignored else m.ignored + 1 }))
  else if seq == m.lastSeq && m.kept.isSome then tell (mbWrite n (m.kept.getD []) s)
  else if seq == m.lastSeq + 1 then
    let h := Tab.getD m.page 0 0
    let req := m.words (2 + min 510 (fld h 31 16 / 8))
    let s := count 528 0 (s.updMbox n (fun m => { m with
      lastSeq := seq, running := true, started := false, req := req, irq := irq, since := s.ticks }))
    if mbOpcodes.contains (fld h 15 0) then s else mbFinish n 1 0 [] s
  else tell (mbWrite n (mbResponse (Tab.getD m.page 0 0) seq.toNat 3 m.lastSeq.toNat []) s)

/-- MB_DB (R368, R373, R376, R409): one aligned 8-byte write; a HALTED device drops and counts it, a warm re-init
records it. -/
def execMbDb (mb : Mbox) (link : Nat) (aligned8 : Bool) (value : Word) (s : State) : Host.Outcome State Fault Refusal :=
  let n := mbNum mb
  done (
    if s.fc.dstate == .halted then count 528 4 s
    else if !mbLive s n || link != mbLink s n || !aligned8 then dropWrite s
    else
      let irq := value.getLsbD 16
      if s.fc.dstate == .reinit then
        { s with heldMb := Tab.put s.heldMb n (value, irq || ((Tab.get s.heldMb n).map (·.2)).getD false) }
      else mbDoorbell n value irq s)

/-! ### The frame of a command (R369-R380) -/

/-- Who issues a command: the manager itself, or a slice, from its own mailbox or through the manager's. -/
structure Caller where
  mb : Nat
  slice : Option Nat
  deriving DecidableEq, Repr

/-- The command came through the manager mailbox. -/
def Caller.viaManager (c : Caller) : Bool := c.mb == 512

/-- How a command ends: with results, with a status and ERR_DETAIL, or not yet. -/
inductive CmdRes where
  | ok (rs : List Word)
  | err (status detail : Nat)
  | wait
  deriving DecidableEq, Repr

/-- Statuses (R380). -/
def msPrivilege : Nat := 2
def msBadLength : Nat := 4
def msInvalid : Nat := 5
def msQuota : Nat := 6
def msNotFound : Nat := 7
def msStale : Nat := 8
def msState : Nat := 9
def msSliceBusy : Nat := 10
def msCtxBusy : Nat := 11
def msPanelBusy : Nat := 12
def msQueueBusy : Nat := 13
def msQpBusy : Nat := 14
def msGroupBusy : Nat := 15
def msMarkerBusy : Nat := 16
def msUnsupportedQp : Nat := 17
def msProtection : Nat := 18

/-- ERR_DETAIL of argument `i`: its byte offset in the request page (R380). -/
def argOff (i : Nat) : Nat := 16 + 8 * i

/-- Argument `i` of a request; a word that its LENGTH leaves out reads as 0 (R370). -/
def arg (a : List Word) (i : Nat) : Word := a.getD i 0
/-- Argument `i` as a number. -/
def argN (a : List Word) (i : Nat) : Nat := (arg a i).toNat

/-- A command: its OPCODE, whether it is of kind M, whether it may carry SLICE 0x1FF (R372), whether a DRAINING slice may be
named (R362), the words of its full argument list, what it does for its caller, and what follows once an `OK` response is
valid. -/
structure Cmd where
  opcode : Nat
  manager : Bool := false
  anySlice : Bool := false
  draining : Bool := false
  len : List Word → Nat
  body : Caller → List Word → State → CmdRes × State
  after : List Word → State → State := fun _ s => s

/-- The caller of a request, or the status and ERR_DETAIL with which its header is refused (R372, R378, R362); a command
that waits for a drain was let through already. -/
def cmdCaller (s : State) (n : Nat) (k : Cmd) (h : Word) : Caller ⊕ (Nat × Nat) :=
  let sl := fld h 56 48
  if n ≠ 512 then
    if k.manager || sl ≠ n then .inr (msPrivilege, 0) else .inl { mb := n, slice := some n }
  else if k.manager then (if sl = 0x1FF then .inl { mb := n, slice := none } else .inr (msInvalid, 0))
  else if sl = 0x1FF && k.anySlice then .inl { mb := n, slice := none }
  else
    match (if (s.mbox n).started then SliceState.active else (s.slice sl).st) with
    | .active => .inl { mb := n, slice := some sl }
    | .draining => if k.draining then .inl { mb := n, slice := some sl } else .inr (msSliceBusy, 0)
    | .free => .inr (msInvalid, 0)

/-- Run the command of a mailbox where its request is of that OPCODE (R376): a status other than OK has no effect beyond
counting. A slice's mailbox that closed meanwhile drops the command with its response (R362). -/
def runCmd (mb : Mbox) (k : Cmd) (s : State) : Host.Outcome State Fault Refusal :=
  let n := mbNum mb
  let m := s.mbox n
  let h := m.req.getD 0 0
  done (
    if !m.running || fld h 15 0 ≠ k.opcode || !running s then s
    else if !mbLive s n then s.updMbox n (fun m => { m with running := false, started := false })
    else
      let a := m.req.drop 2
      match cmdCaller s n k h with
      | .inr (st, d) => mbFinish n st d [] s
      | .inl c =>
        let want := 8 * k.len a
        if fld h 31 16 % 8 ≠ 0 || want < fld h 31 16 then mbFinish n msBadLength want [] s
        else
          match k.body c a s with
          | (.ok rs, s) => k.after a (mbFinish n 0 0 rs (forgetSeen (.command n) s))
          | (.wait, s) => s
          | (.err st d, _) =>
            let s := if st = msQuota then (match c.slice with | some x => count x 27 s | none => s) else s
            mbFinish n st d [] (forgetSeen (.command n) s))

/-- Refuse for an argument. -/
def bad (st i : Nat) (s : State) : CmdRes × State := (.err st (argOff i), s)

/-- Answer without results. -/
def okRes (s : State) : CmdRes × State := (.ok [], s)

/-- A number as a result word. -/
def rw (n : Nat) : Word := BitVec.ofNat 64 n

/-- Note that a waiting command has begun its effect. -/
def cmdStart (n : Nat) (s : State) : State := s.updMbox n (fun m => { m with started := true })

/-- Whether an object of a slice is the caller's: the manager without a slice reaches every one. -/
def Caller.owns (c : Caller) (sl : Nat) : Bool := match c.slice with | some x => x == sl | none => true

/-- A context that the caller can name (R39, R378). -/
def ownCtx (s : State) (c : Caller) (ctx : Nat) : Bool := decide (ctx < 4096) && (s.ctx ctx).st != .free && c.owns (s.ctx ctx).slice

/-- CTX_STATE as a number (R32). -/
def ctxStateCode : CtxState → Nat | .free => 0 | .active => 1 | .draining => 2 | .lost => 3

/-! ### dev.* (R381) -/

/-- dev.info. -/
def cmdDevInfo : Cmd :=
  { opcode := 0x0101, anySlice := true, len := fun _ => 0
    body := fun _ _ s => (.ok [0xB0, rw s.rumel.toNat, rw (b2n s.fleet), rw s.hbmGib,
      rw (((List.range 4).map (fun n => if linkPresent s n then 2 ^ n else 0)).foldl (· + ·) 0)], s) }

/-- An address [16] of two words: the bytes in network order (R370). -/
def addrOf (a b : Word) : BitVec 128 := BitVec.ofNat 128 (ofBe (leBytes 8 a.toNat ++ leBytes 8 b.toNat))
/-- The two words of an address [16]. -/
def addrWords (x : BitVec 128) : List Word :=
  let b := beBytes 16 x.toNat
  [rw (ofLe (b.take 8)), rw (ofLe (b.drop 8))]

/-- dev.port_addr. -/
def cmdDevPortAddr : Cmd :=
  { opcode := 0x0102, manager := true, len := fun _ => 7
    body := fun _ a s =>
      let lp := argN a 0
      if 96 ≤ lp then bad msInvalid 0 s
      else if 128 < argN a 3 then bad msInvalid 3 s
      else if 32 < argN a 6 then bad msInvalid 6 s
      else
        match s.qps.find? (fun q => q.2.localPorts.contains lp && (q.2.st == .active || q.2.st == .held || q.2.st == .draining)) with
        | some q => (.err msState (qpStateCode q.2.st), s)
        | none =>
          okRes (s.updLport lp (fun l => { l with
            ipv6 := addrOf (arg a 1) (arg a 2), prefix6 := argN a 3
            ipv4 := BitVec.ofNat 32 ((addrOf (arg a 4) (arg a 5)).toNat >>> 96), prefix4 := argN a 6 })) }

/-- DEV_INFO (R381). -/
def execDevInfo (mb : Mbox) (s : State) : Host.Outcome State Fault Refusal := runCmd mb cmdDevInfo s
/-- DEV_PORT_ADDR (R381). -/
def execDevPortAddr (mb : Mbox) (s : State) : Host.Outcome State Fault Refusal := runCmd mb cmdDevPortAddr s

/-! ### slice.* (R348-R354, R357, R379, R381) -/

/-- The device total of each quota, in the order of R352. -/
def quotaTotals : List Nat := [4096, 131072, 65536, 65536, 1048576, 262144, 65536, 4096, 224, 1024]

/-- Whether a quota lies in its range. -/
def quotaOk (i v : Nat) : Bool := if i = 10 then decide (1 ≤ v ∧ v ≤ 255) else decide (v ≤ quotaTotals.getD i 0)

/-- The sum of a quota over the slices that are not FREE, but for one. -/
def quotaSum (s : State) (but i : Nat) : Nat :=
  (s.slices.map (fun e => if e.1 ≠ but && e.2.st != .free then e.2.quota.getD i 0 else 0)).foldl (· + ·) 0

/-- Whether quotas would break a device total. -/
def quotaBreaks (s : State) (sl : Nat) (q : List Nat) : Option Nat :=
  (List.range 10).find? (fun i => decide (quotaTotals.getD i 0 < quotaSum s sl i + q.getD i 0))

/-- The slot that slice.create binds. -/
def sliceSlot (s : State) (n : Nat) : Option Nat :=
  if n = 0x3FF then (List.range 512).find? (fun i => (s.slice i).st == .free)
  else if (s.slice n).st == .free then some n else none

/-- Whether a vector range or a PASID clashes with another slice of the link. -/
def sliceClash (s : State) (link pasid base cnt : Nat) : Option Nat :=
  if s.slices.any (fun e => e.2.st != .free && e.2.link == link && e.2.pasid == pasid) then some 2
  else if msixVectors s link < base + cnt then some 3
  else if s.slices.any (fun e => e.2.st != .free && e.2.link == link && overlaps base cnt e.2.msixBase e.2.msixCount) then some 3
  else none

/-- Zero a slice's counter set (R471). -/
def zeroCounters (sl : Nat) (s : State) : State := { s with counters := s.counters.filter (fun e => e.1 / 8192 != sl) }

/-- slice.create. -/
def cmdSliceCreate : Cmd :=
  { opcode := 0x0201, manager := true, len := fun _ => 16
    body := fun _ a s =>
      let link := argN a 1
      let pasid := argN a 2
      let base := argN a 3
      let cnt := argN a 4
      let q := (List.range 11).map (fun i => argN a (5 + i))
      if 512 ≤ argN a 0 && argN a 0 ≠ 0x3FF then bad msInvalid 0 s
      else
        match sliceSlot s (argN a 0) with
        | none => bad msSliceBusy 0 s
        | some n =>
          if 4 ≤ link || !linkPresent s link || !(s.link link).up then bad msInvalid 1 s
          else if pasid = 0 || 1048576 ≤ pasid then bad msInvalid 2 s
          else if base < 16 then bad msInvalid 3 s
          else if cnt = 0 || 1024 < cnt then bad msInvalid 4 s
          else
            match (List.range 11).find? (fun i => !quotaOk i (q.getD i 0)), sliceClash s link pasid base cnt with
            | some i, _ => bad msInvalid (5 + i) s
            | none, some i => bad msInvalid i s
            | none, none =>
              match quotaBreaks s n q with
              | some i => bad msQuota (5 + i) s
              | none =>
                let gen := (s.slice n).gen
                let s := s.updSlice n (fun _ =>
                  { st := .active, gen := gen, link := link, pasid := pasid, msixBase := base, msixCount := cnt, rights := 0xFF, targets := 7, quota := q })
                let s := zeroCounters n { s.updMbox n (fun _ => {}) with cm := Tab.del s.cm n }
                (.ok [rw n, rw gen.toNat], s) }

/-- slice.destroy. -/
def cmdSliceDestroy : Cmd :=
  { opcode := 0x0202, manager := true, draining := true, len := fun _ => 2
    body := fun _ a s =>
      let n := argN a 0
      if 512 ≤ n then bad msInvalid 0 s
      else if 1 < argN a 1 then bad msInvalid 1 s
      else
        let x := s.slice n
        match x.st with
        | .free => bad msNotFound 0 s
        | .active => okRes (bindOff n (argN a 1 == 1) s)
        | .draining => okRes (if argN a 1 = 1 && !x.abort then sliceAbort n s else s) }

/-- slice.set_quota. -/
def cmdSliceSetQuota : Cmd :=
  { opcode := 0x0203, manager := true, len := fun _ => 13
    body := fun _ a s =>
      let n := argN a 0
      let mask := arg a 1
      if 512 ≤ n then bad msInvalid 0 s
      else if (s.slice n).st != .active then bad msSliceBusy 0 s
      else if 2 ^ 11 ≤ mask.toNat then bad msInvalid 1 s
      else
        let old := (s.slice n).quota
        let q := (List.range 11).map (fun i => if mask.getLsbD i then argN a (2 + i) else old.getD i 0)
        match (List.range 11).find? (fun i => mask.getLsbD i && !quotaOk i (q.getD i 0)) with
        | some i => bad msInvalid (2 + i) s
        | none =>
          match (List.range 10).find? (fun i => decide (old.getD i 0 < q.getD i 0) && decide (quotaTotals.getD i 0 < quotaSum s n i + q.getD i 0)) with
          | some i => bad msQuota (2 + i) s
          | none => okRes (s.updSlice n (fun x => { x with quota := q })) }

/-- slice.set_rights. -/
def cmdSliceSetRights : Cmd :=
  { opcode := 0x0204, manager := true, len := fun _ => 3
    body := fun _ a s =>
      let n := argN a 0
      if 512 ≤ n then bad msInvalid 0 s
      else if (s.slice n).st != .active then bad msSliceBusy 0 s
      else if 256 ≤ argN a 1 then bad msInvalid 1 s
      else if 16 ≤ argN a 2 then bad msInvalid 2 s
      else okRes (s.updSlice n (fun x => { x with rights := BitVec.ofNat 8 (argN a 1), targets := BitVec.ofNat 4 (argN a 2) })) }

/-- What a slice uses of each count quota, in the order of R352. -/
def sliceUse (s : State) (n : Nat) : List Nat :=
  let mine (c : Nat) : Bool := (s.ctx c).slice == n && (s.ctx c).st != .free
  [(sliceCtxs s n).length, Tab.countWhere s.qps (fun _ q => mine q.ctx), Tab.countWhere s.sqs (fun _ q => q.st != .free && mine q.ctx),
   Tab.countWhere s.cqs (fun _ q => q.active && mine q.ctx), Tab.countWhere s.mos (fun _ o => o.st != .free && mine o.ctx),
   Tab.countWhere s.wins (fun _ w => w.st != .free && mine (s.moOf w.mo).ctx),
   (s.ops.map (fun o => if mine o.2.ctx then o.2.mwait else 0)).foldl (· + ·) 0,
   Tab.countWhere s.groups (fun _ g => g.st != .free && g.slice == n), scHas s (some n) / 512]

/-- slice.query: what a slice uses of GUAR_IN and SCHED_WEIGHT the spec does not state, so it is a free value. -/
def cmdSliceQuery : Cmd :=
  { opcode := 0x0205, manager := true, draining := true, len := fun _ => 1
    body := fun _ a s =>
      let n := argN a 0
      if 512 ≤ n then bad msInvalid 0 s
      else
        let x := s.slice n
        let st := match x.st with | .free => 0 | .active => 1 | .draining => 2
        let f := drawFree s
        let g := drawFree f.2
        (.ok ([rw st, rw x.gen.toNat, rw x.link, rw x.pasid, rw x.msixBase, rw x.msixCount, rw x.rights.toNat, rw x.targets.toNat] ++
          (List.range 11).map (fun i => rw (x.quota.getD i 0)) ++ (sliceUse s n).map rw ++ [Config.freeWord f.1, Config.freeWord g.1]), g.2) }

/-- SLICE_CREATE (R350). -/
def execSliceCreate (mb : Mbox) (s : State) : Host.Outcome State Fault Refusal := runCmd mb cmdSliceCreate s
/-- SLICE_DESTROY (R359). -/
def execSliceDestroy (mb : Mbox) (s : State) : Host.Outcome State Fault Refusal := runCmd mb cmdSliceDestroy s
/-- SLICE_SET_QUOTA (R354). -/
def execSliceSetQuota (mb : Mbox) (s : State) : Host.Outcome State Fault Refusal := runCmd mb cmdSliceSetQuota s
/-- SLICE_SET_RIGHTS (R379). -/
def execSliceSetRights (mb : Mbox) (s : State) : Host.Outcome State Fault Refusal := runCmd mb cmdSliceSetRights s
/-- SLICE_QUERY (R381). -/
def execSliceQuery (mb : Mbox) (s : State) : Host.Outcome State Fault Refusal := runCmd mb cmdSliceQuery s

end Sys2Proof.Machine
end

