-- ==== Sys2Proof/Machine/CmdCtx.lean ====
section
/-! DEFINITION. The context commands of the mailboxes (13 R381, 02 R31-R37, 04 R104-R107, R126-R130). -/

namespace Sys2Proof.Machine

/-! ### Marker arguments (R370) -/

/-- What a marker argument comes to: none given, the record, a walk to wait for, a handle that is not the caller's or not
VALID, or a record that cannot be reached. -/
inductive MarkGot where
  | none
  | ok (r : MarkRef)
  | wait
  | stale
  | bad
  deriving DecidableEq, Repr

/-- Whether a handle names a VALID object of the caller's slice whose original, for an import, is still VALID (R30, R39,
R56). -/
def markNamed (s : State) (c : Caller) (h : BitVec 32) : Bool :=
  let m := s.moOf h
  moValid s h && c.owns (s.ctx m.ctx).slice && (match m.imported with | some r => moValid s r.mo | none => true)

/-- Whether an object may hold a record at an offset (R48). -/
def markFits (s : State) (h : BitVec 32) (off : Nat) : Bool :=
  let m := s.moOf h
  let t := (moPanel s h).targetCode
  m.rights.getLsbD 5 && decide (off + 16 ≤ m.len) && (m.imported.isSome || t == 0 || t == 1)

/-- Find the record that a marker argument names (R48, R110, R370). -/
def cmdMark (c : Caller) (w : Word) (s : State) : MarkGot × State :=
  let h := dLo w
  let off := fld w 63 32 * 16
  if w = 0 then (.none, s)
  else if !markNamed s c h then (.stale, s)
  else if !markFits s h off then (.bad, s)
  else
    match resolveMark (.command c.mb) (.direct (s.moOf h).ctx) h off s with
    | (.ok r _, s) => (.ok r, s)
    | (.fail _, s) => (.bad, s)
    | (.wait, s) => (.wait, s)

/-! ### Panels (R104-R106) -/

/-- The panel record at argument `i`. -/
def panelArg (a : List Word) (i : Nat) : Panel := { p0 := arg a i, p1 := arg a (i + 1), p2 := arg a (i + 2), p3 := arg a (i + 3) }

/-- A panel record as it is kept: reserved bits, TGEN and the fields that its kind does not have are 0. -/
def Panel.norm (p : Panel) : Panel :=
  let p2 := if p.targetCode = 2 then setFld p.p2 31 17 0 else p.p2
  let p3 := (if p.managed then setFld p.p3 63 51 0 else setFld (setFld p.p3 63 51 0) 47 0 0)
  { p0 := setFld (setFld (setFld p.p0 7 7 0) 15 14 0) 63 38 0, p1 := setFld p.p1 63 56 0, p2 := p2
    p3 := if p.mode = 0 then setFld p3 50 48 0 else p3 }

/-- The aperture of a die port with a die attached holds a whole range (R121). -/
def inAperture (s : State) (a len : Nat) : Bool :=
  (List.range 4).any (fun p => (s.die p).attached && inside a len (0x080000000000 + p * 2 ^ 40) (2 ^ 40))

/-- A FLAT range lies inside its target's space (R106). -/
def flatFits (s : State) (p : Panel) : Bool :=
  match p.targetCode with
  | 0 => inHbm s p.p2.toNat p.bytes && !inStash s p.p2.toNat p.bytes
  | 1 => decide (p.p2.toNat + p.bytes ≤ 2 ^ 64)
  | 2 => true
  | _ => inAperture s p.p2.toNat p.bytes

/-- Whether MODE, TARGET, MANAGED and DIRECT go together (R104, R105). -/
def Panel.legal (p : Panel) : Bool :=
  p.mode != 3 && (!p.managed || (p.targetCode == 1 && p.mode == 1)) && (!p.direct || p.targetCode == 1) &&
    (p.mode == 0 || (p.targetCode != 2 && p.targetCode != 3))

/-- The first word of a panel record that R106 refuses, for a slice and beside the context's other panels. A record with VALID
0 clears its panel: only its reserved codes are refused (R8, R106). -/
def panelBad (s : State) (sl : Nat) (others : List Panel) (p : Panel) : Option Nat :=
  let x := s.slice sl
  let align := if p.mode = 2 then 2 ^ 30 else 2 ^ 25
  if !p.valid then firstBad [(0, p.mode == 3), (3, decide (4 < p.prefetch))]
  else firstBad [
    (0, p.lenUnits == 0 || decide (2097152 < p.lenUnits) || (p.mode == 2 && p.lenUnits % 32 != 0)),
    (0, !p.legal), (0, !x.targets.getLsbD p.targetCode), (0, p.direct && !x.rights.getLsbD 7),
    (0, p.rights &&& ~~~(BitVec.ofNat 6 x.rights.toNat) != 0), (0, p.managed && !s.xlt.enable),
    (1, p.base % align != 0), (1, decide (2 ^ 56 < p.base + p.bytes)),
    (1, others.any (fun q => q.valid && overlaps p.base p.bytes q.base q.bytes)),
    (2, p.targetCode != 2 && p.p2.toNat % 4096 != 0), (2, p.mode == 0 && !flatFits s p),
    (2, p.targetCode == 2 && (match Tab.get s.qps p.qpn with | some q => (s.ctx q.ctx).slice != sl | none => true)),
    (3, decide (4 < p.prefetch)), (3, p.managed && (p.counterAddr == 0 || p.counterAddr % 64 != 0))]

/-- The first argument of a list of panels, from argument `i` on, that R106 refuses. -/
def panelsBad (s : State) (sl i : Nat) : List Panel → List Panel → Option Nat
  | _, [] => none
  | before, p :: rest =>
    match panelBad s sl before p with
    | some k => some (i + k)
    | none => panelsBad s sl (i + 4) (before ++ [p]) rest

/-! ### Contexts (R381) -/

/-- Whether a CTX argument names a context that the caller may name: a FREE one is nobody's. -/
def ctxNamed (s : State) (c : Caller) (n : Nat) : Bool := decide (n < 4096) && ((s.ctx n).st == .free || c.owns (s.ctx n).slice)

/-- Refuse for the state of a context (R380). -/
def badCtxState (n : Nat) (s : State) : CmdRes × State := (.err msState (ctxStateCode (s.ctx n).st), s)

/-- Whether a slice has used up a count quota (R352). -/
def quotaFull (s : State) (sl i : Nat) : Bool := decide ((s.slice sl).quota.getD i 0 ≤ (sliceUse s sl).getD i 0)

/-- The slice that a command of kind S acts for. -/
def Caller.sl (c : Caller) : Nat := c.slice.getD 0

/-- ctx.create (R29, R32, R106). -/
def cmdCtxCreate : Cmd :=
  { opcode := 0x0301, len := fun a => 4 + 4 * min 8 (argN a 3)
    body := fun c a s =>
      let want := argN a 0
      let k := argN a 3
      let ps := (List.range k).map (fun i => panelArg a (4 + 4 * i))
      let slot := if want = 0x1000 then lowestFree 4096 (fun i => (s.ctx i).st != .free) else some want
      if 4096 < want then bad msInvalid 0 s
      else if 15 < argN a 2 then bad msInvalid 2 s
      else if 8 < k then bad msInvalid 3 s
      else
        match slot with
        | none => bad msQuota 0 s
        | some n =>
          if (s.ctx n).st != .free then bad msCtxBusy 0 s
          else
            match panelsBad s c.sl 4 [] ps with
            | some i => bad msInvalid i s
            | none =>
              if quotaFull s c.sl 0 then bad msQuota 0 s
              else
                let e := (s.ctx n).epoch + 1
                let tab : Tab Panel := ps.zipIdx.map (fun x => (x.2, x.1.norm))
                let s := s.updCtx n (fun _ =>
                  { st := .active, epoch := e, slice := c.sl, panels := tab, seed := arg a 1, resTimeout := argN a 2 })
                (.ok [rw n, rw e.toNat], touchCtx n (tagUpdate n true s)) }

/-- Whether a panel holds a VALID or RETIRING object (R107). -/
def panelHeld (s : State) (ctx p : Nat) : Bool :=
  s.mos.any (fun e => e.2.st != .free && e.2.ctx == ctx && e.2.panel == p && e.2.imported.isNone)

/-- Begin a command's invalidation of a panel (R107, R130): the mailbox keeps the panel and the generation made current. -/
def invBegin (mb n p : Nat) (pages : Option (Nat × Nat)) (s : State) : State :=
  let s := cmdStart mb (touchCtx n (startInvalidate n p pages s))
  s.updMbox mb (fun m => { m with inv := (p, ((s.ctx n).panel p).tgen) })

/-- Answer once the invalidation that a mailbox began has drained (R107, R128, R130). -/
def invAnswer (mb n : Nat) (s : State) : CmdRes × State :=
  let g := (s.mbox mb).inv
  if drained s n g.1 g.2 then okRes s else (.wait, s)

/-- Replace a panel's record: TGEN goes on from where it was (R107). -/
def replacePanel (n p : Nat) (new : Panel) (s : State) : State :=
  let g := ((s.ctx n).panel p).tgen
  s.updCtx n (fun x => { x with panels := Tab.put x.panels p (new.norm.setTgen g) })

/-- ctx.set_panel (R106, R107): it answers once the panel has drained. -/
def cmdCtxSetPanel : Cmd :=
  { opcode := 0x0302, len := fun _ => 6
    body := fun c a s =>
      let n := argN a 0
      let p := argN a 1
      let new := panelArg a 2
      let others := ((s.ctx n).panels.filter (fun e => e.1 != p)).map (·.2)
      if (s.mbox c.mb).started then invAnswer c.mb n s
      else if !ctxNamed s c n then bad msNotFound 0 s
      else if (s.ctx n).st != .active then badCtxState n s
      else if 8 ≤ p then bad msInvalid 1 s
      else if panelHeld s n p then bad msPanelBusy 1 s
      else
        match panelBad s c.sl others new with
        | some i => bad msInvalid (2 + i) s
        | none =>
          if !canInvalidate s n p then (.wait, s)
          else invAnswer c.mb n (invBegin c.mb n p none (replacePanel n p new s)) }

/-- ctx.query (R381). -/
def cmdCtxQuery : Cmd :=
  { opcode := 0x0303, draining := true, len := fun _ => 1
    body := fun c a s =>
      let n := argN a 0
      if !ownCtx s c n then bad msNotFound 0 s
      else
        let x := s.ctx n
        (.ok ([rw (ctxStateCode x.st), rw x.epoch.toNat, rw x.lostCause, rw x.slice] ++
          (List.range 8).flatMap (fun i => let p := x.panel i; [p.p0, p.p1, p.p2, p.p3])), s) }

/-- ctx.destroy (R36, R37): it answers at DRAINING. -/
def cmdCtxDestroy : Cmd :=
  { opcode := 0x0304, len := fun _ => 4
    body := fun c a s =>
      let n := argN a 0
      let x := s.ctx n
      if !ctxNamed s c n then bad msNotFound 0 s
      else if x.st != .active && x.st != .lost then badCtxState n s
      else if 1 < argN a 1 then bad msInvalid 1 s
      else
        let go (d : Option (MarkRef × Word)) (s : State) : CmdRes × State :=
          okRes (touchCtx n (drainCtx n (argN a 1 == 1) false (s.updCtx n (fun x => { x with doneMark := d }))))
        match cmdMark c (arg a 2) s with
        | (.none, s) => go none s
        | (.wait, s) => (.wait, s)
        | (.ok r, s) =>
          let d := (s.moOf r.mo).ctx
          if d == n || (s.ctx d).st != .active then bad msInvalid 2 s else go (some (r, arg a 3)) s
        | (.stale, s) => bad msInvalid 2 s
        | (.bad, s) => bad msInvalid 2 s }

/-- The pages of a range (R126). -/
def rangePages (p : Panel) (cva len : Nat) : Nat × Nat := ((cva - p.base) >>> p.shift, (cva + len - 1 - p.base) >>> p.shift)

/-- Begin ctx.invalidate of kind 0 or 1 for a panel, where its next generation is free of uses (R127). -/
def invalidatePanel (c : Caller) (n p : Nat) (pages : Option (Nat × Nat)) (s : State) : CmdRes × State :=
  if !canInvalidate s n p then (.wait, s) else invAnswer c.mb n (invBegin c.mb n p pages s)

/-- Answer ctx.invalidate of kind 2, or retire the object (R44, R129, R130). -/
def invalidateMo (c : Caller) (n : Nat) (h : BitVec 32) (s : State) : CmdRes × State :=
  let i := moIndex h
  let gone (s : State) : Bool := (s.mo i).gen != moGen h || moUnused s i
  if (s.mbox c.mb).started then (if gone s then okRes s else (.wait, s))
  else if !moValid s h || (s.moOf h).ctx != n then bad msStale 5 s
  else
    match liveRing s h with
    | some q => (.err msState q, s)
    | none =>
      let s := cmdStart c.mb (touchMo i ((retireMo i none s).updMo i (fun o => { o with inv := true })))
      if gone s then okRes s else (.wait, s)

/-- ctx.invalidate (R126-R130, R362): it answers when its drain completes. -/
def cmdCtxInvalidate : Cmd :=
  { opcode := 0x0305, manager := true, len := fun _ => 6
    body := fun c a s =>
      let n := argN a 0
      let x := s.ctx n
      let cva := argN a 3
      let len := argN a 4
      let on := (s.mbox c.mb).started
      if !on && (4096 ≤ n || x.st == .free) then bad msNotFound 0 s
      else if !on && (s.slice x.slice).st == .draining then bad msSliceBusy 0 s
      else if on && argN a 1 ≠ 2 then invAnswer c.mb n s
      else
        match argN a 1 with
        | 0 => if 8 ≤ argN a 2 then bad msInvalid 2 s else invalidatePanel c n (argN a 2) none s
        | 1 =>
          if len = 0 then bad msInvalid 4 s
          else
            match rangePanel x cva len with
            | some (p, r) => invalidatePanel c n p (some (rangePages r cva len)) s
            | none => bad msInvalid 3 s
        | 2 => invalidateMo c n (dLo (arg a 5)) s
        | _ => bad msInvalid 1 s }

/-- ctx.lose (R32): cause MANAGER. -/
def cmdCtxLose : Cmd :=
  { opcode := 0x0306, manager := true, len := fun _ => 1
    body := fun _ a s =>
      let n := argN a 0
      if 4096 ≤ n then bad msInvalid 0 s
      else if (s.ctx n).st != .free && (s.slice (s.ctx n).slice).st == .draining then bad msSliceBusy 0 s
      else if (s.ctx n).st != .active then badCtxState n s
      else okRes (touchCtx n (contextLost n 7 s)) }

/-- CTX_CREATE (R32). -/
def execCtxCreate (mb : Mbox) (s : State) : Host.Outcome State Fault Refusal := runCmd mb cmdCtxCreate s
/-- CTX_SET_PANEL (R107). -/
def execCtxSetPanel (mb : Mbox) (s : State) : Host.Outcome State Fault Refusal := runCmd mb cmdCtxSetPanel s
/-- CTX_QUERY (R381). -/
def execCtxQuery (mb : Mbox) (s : State) : Host.Outcome State Fault Refusal := runCmd mb cmdCtxQuery s
/-- CTX_DESTROY (R36). -/
def execCtxDestroy (mb : Mbox) (s : State) : Host.Outcome State Fault Refusal := runCmd mb cmdCtxDestroy s
/-- CTX_INVALIDATE (R130). -/
def execCtxInvalidate (mb : Mbox) (s : State) : Host.Outcome State Fault Refusal := runCmd mb cmdCtxInvalidate s
/-- CTX_LOSE (R381). -/
def execCtxLose (mb : Mbox) (s : State) : Host.Outcome State Fault Refusal := runCmd mb cmdCtxLose s

end Sys2Proof.Machine
end

