-- ==== Sys2Proof/Machine/CmdQueue.lean ====
section
/-! DEFINITION. The queue and QP commands of the mailboxes, and connection-management datagrams (13 R382, R383; 03 R61,
R76, R77; 05 R142-R146, R163, R202). -/

namespace Sys2Proof.Machine

/-! ### Queues (R61, R76, R77) -/

/-- Whether an object of a context, no import, has a right. -/
def moFit (s : State) (ctx : Nat) (h : BitVec 32) (right : Nat) : Bool :=
  let m := s.moOf h
  m.ctx == ctx && m.imported.isNone && m.rights.getLsbD right

/-- Whether an object can hold a ring of a context with a right (R61): its panel targets local HBM or the host. -/
def ringFit (s : State) (ctx : Nat) (h : BitVec 32) (right : Nat) : Bool :=
  let t := (moPanel s h).targetCode
  moFit s ctx h right && (t == 0 || t == 1)

/-- Whether an object can hold a shadow word (R61). One in a REMOTE_WINDOW panel lies in no memory of this device's
(DEDUCED, log 137). -/
def shadowFit (s : State) (ctx : Nat) (h : BitVec 32) : Bool := moFit s ctx h 1 && (moPanel s h).targetCode != 2

/-- Whether a range of CVAs lies in an object, aligned. -/
def ringAt (s : State) (h : BitVec 32) (cva len align : Nat) : Bool :=
  let m := s.moOf h
  cva % align == 0 && inside cva len m.base m.len

/-- A handle that a command of a slice may name (R30, R39). -/
def moNamed (s : State) (c : Caller) (h : BitVec 32) : Bool := moValid s h && c.owns (s.ctx (s.moOf h).ctx).slice

/-- The argument, with its status, that keeps queue.create from making a queue (R61). -/
def queueBad (s : State) (c : Caller) (a : List Word) : Option (Nat × Nat) :=
  let ctx := argN a 0
  let sq := argN a 1 == 0
  let l := argN a 2
  let k := argN a 3
  let ring := dLo (arg a 4)
  let shadow := dLo (arg a 6)
  let link := argN a 8
  let taken := if sq then s.sqs.any (fun e => e.2.st != .free && e.2.ctx == ctx && e.2.locl == l)
    else s.cqs.any (fun e => e.2.active && e.2.ctx == ctx && e.2.locl == l)
  let q := s.cq link
  if !ctxNamed s c ctx then some (msNotFound, 0)
  else if (s.ctx ctx).st != .active then some (msInvalid, 0)
  else if 1 < argN a 1 then some (msInvalid, 1)
  else if 64 ≤ l || taken then some (msInvalid, 2)
  else if k < 6 || (if sq then 15 else 16) < k then some (msInvalid, 3)
  else if !moNamed s c ring then some (msStale, 4)
  else if !ringFit s ctx ring (if sq then 0 else 1) then some (msInvalid, 4)
  else if !ringAt s ring (argN a 5) (2 ^ k * (if sq then 64 else 32)) 4096 then some (msInvalid, 5)
  else if sq then
    (if !moNamed s c shadow then some (msStale, 6)
    else if !shadowFit s ctx shadow then some (msInvalid, 6)
    else if !ringAt s shadow (argN a 7) 8 8 then some (msInvalid, 7)
    else if 65536 ≤ link || !q.active || q.ctx != ctx || s.qps.any (fun e => e.2.rxMo != 0 && e.2.rxCq == link) then some (msInvalid, 8)
    else none)
  else if (s.slice c.sl).msixCount ≤ argN a 9 then some (msInvalid, 9)
  else none

/-- The number of a new queue (R61): 65,536 numbers serve each kind. A number that names no queue is taken first, the lowest;
where there is none, the lowest that names no queue of the kind (DESIGN CHOICE, log 56). -/
def queueSlot (s : State) (sq : Bool) : Option Nat :=
  let kind (n : Nat) : Bool := if sq then (s.sq n).st != .free else (s.cq n).active
  match lowestFree 65536 (fun n => (s.sq n).st != .free || (s.cq n).active) with
  | some n => some n
  | none => lowestFree 65536 kind

/-- queue.create (R61, R76). -/
def cmdQueueCreate : Cmd :=
  { opcode := 0x0401, len := fun _ => 10
    body := fun c a s =>
      let ctx := argN a 0
      let sq := argN a 1 == 0
      let ring := dLo (arg a 4)
      let shadow := dLo (arg a 6)
      match queueBad s c a with
      | some (st, i) => bad st i s
      | none =>
        match queueSlot s sq with
        | none => bad msQuota 0 s
        | some n =>
          if quotaFull s c.sl (if sq then 2 else 3) then bad msQuota 0 s
          else if sq then
            let q : Sq :=
              { st := .active, size := 2 ^ argN a 3, ctx := ctx, locl := argN a 2, ringMo := ring
                ringOff := argN a 5 - (s.moOf ring).base, shadowMo := shadow
                shadowOff := argN a 7 - (s.moOf shadow).base, cq := argN a 8 }
            (.ok [rw n], writeShadow n (touchSq n (s.updSq n (fun _ => q))))
          else
            let q : Cq :=
              { active := true, size := 2 ^ argN a 3, ctx := ctx, locl := argN a 2, ringMo := ring
                ringOff := argN a 5 - (s.moOf ring).base, vector := (s.slice c.sl).msixBase + argN a 9 }
            (.ok [rw n], touchCq n (s.updCq n (fun _ => q))) }

/-- Whether a number names an SQ, or a CQ, that the caller may name. -/
def sqNamed (s : State) (c : Caller) (n : Nat) : Bool := decide (n < 65536) && (s.sq n).st != .free && c.owns (s.ctx (s.sq n).ctx).slice
/-- Whether a number names a CQ that the caller may name. -/
def cqNamed (s : State) (c : Caller) (n : Nat) : Bool := decide (n < 65536) && (s.cq n).active && c.owns (s.ctx (s.cq n).ctx).slice

/-- Complete every fetched descriptor of a queue that has not started. -/
def endUnstarted (n status : Nat) (s : State) : State :=
  (s.ops.filter (fun e => e.1 / 16777216 == n && !e.2.done && e.2.stage != .running && e.2.stage != .armed)).foldl
    (fun s e => failDesc n (e.1 % 16777216) status 0 false s) s

/-- queue.destroy (R76, R77, R102): it answers at CLOSED. -/
def cmdQueueDestroy : Cmd :=
  { opcode := 0x0402, len := fun _ => 2
    body := fun c a s =>
      let n := argN a 0
      let abort := argN a 1 == 1
      if !sqNamed s c n && !cqNamed s c n then bad msNotFound 0 s
      else if 1 < argN a 1 then bad msInvalid 1 s
      else if sqNamed s c n then
        if (s.sq n).st == .closed then okRes s
        else
          let s := touchSq n (writeShadow n ((closeSq n abort s).updSq n (fun q => { q with destroyed := true })))
          okRes (if abort then endArmed n true (endUnstarted n stAborted s) else pumpFetch n (endArmed n false s))
      else if s.sqs.any (fun e => e.2.st != .free && e.2.cq == n) || s.qps.any (fun e => e.2.rxMo != 0 && e.2.rxCq == n) then
        bad msQueueBusy 0 s
      else okRes (touchCq n { s with cqs := Tab.del s.cqs n }) }

/-- queue.hold (R76): cause COMMAND. -/
def cmdQueueHold : Cmd :=
  { opcode := 0x0403, len := fun _ => 1
    body := fun c a s =>
      let n := argN a 0
      if !sqNamed s c n then bad msNotFound 0 s
      else if (s.sq n).st != .active then (.err msState (sqStateCode (s.sq n).st), s)
      else okRes (touchSq n (holdSq n .command s)) }

/-- queue.resume (R76, R88): FLUSH completes `FLUSHED` what is announced and not yet fetched, and behind a failed wait
also what is fetched and has not started. -/
def cmdQueueResume : Cmd :=
  { opcode := 0x0404, len := fun _ => 2
    body := fun c a s =>
      let n := argN a 0
      let q := s.sq n
      let flush := argN a 1 == 1
      if !sqNamed s c n then bad msNotFound 0 s
      else if q.st != .held then (.err msState (sqStateCode q.st), s)
      else if 1 < argN a 1 then bad msInvalid 1 s
      else
        let s := touchSq n (resumeSq n s)
        let s := if flush && q.cause == .waitFailed then endUnstarted n stFlushed s else s
        okRes (pumpFetch n (s.updSq n (fun q => { q with flush := flush && q.fi != q.pi }))) }

/-! ### QPs (R142-R146) -/

/-- Whether a number names a QP that the caller may name. -/
def qpNamed (s : State) (c : Caller) (n : Nat) : Bool :=
  match Tab.get s.qps n with
  | some q => c.owns (s.ctx q.ctx).slice
  | none => false

/-- Refuse for the state of a QP (R380). -/
def badQpState (n : Nat) (s : State) : CmdRes × State := (.err msState (qpStateCode (s.qp n).st), s)

/-- The number of a new QP: the lowest free one other than 0, else 0 (R142). -/
def qpSlot (s : State) : Option Nat :=
  match Tab.freeKey s.qps 1 131072 with
  | some n => if (Tab.get s.qps n).isNone then some n else none
  | none => if (Tab.get s.qps 0).isNone then some 0 else none

/-- queue.qp_create (R142, R144). -/
def cmdQpCreate : Cmd :=
  { opcode := 0x0405, len := fun _ => 2
    body := fun c a s =>
      let ctx := argN a 0
      if !ctxNamed s c ctx then bad msNotFound 0 s
      else if (s.ctx ctx).st != .active then badCtxState ctx s
      else if 1 < argN a 1 then bad msInvalid 1 s
      else
        match qpSlot s with
        | none => bad msQuota 0 s
        | some n =>
          if quotaFull s c.sl 1 then bad msQuota 0 s
          else
            let q : Qp := { mode := if argN a 1 = 0 then .ert else .roce, ctx := ctx }
            (.ok [rw n], touchQp n { s with qps := Tab.put s.qps n q }) }

/-- PORTS[16] (R382): logical port numbers, 0xFF unused. -/
def portsArg (a : List Word) : List Nat :=
  ((leBytes 8 (argN a 1) ++ leBytes 8 (argN a 2)).map (·.toNat)).filter (· ≠ 0xFF)

/-- Bytes of the largest frame of a QP (R143, R150, R182). -/
def qpFrameBytes (vlan roce ipv4 : Bool) (payload : Nat) : Nat :=
  if roce then 14 + (if vlan then 4 else 0) + (if ipv4 then 20 else 40) + 8 + 12 + 20 + payload + 4 + 4
  else ertFrameBytes vlan ipv4 payload

/-- The argument that keeps queue.qp_init from setting the local attributes (R143, R163). -/
def qpInitBad (s : State) (n : Nat) (a : List Word) : Option Nat :=
  let q := s.qp n
  let roce := q.mode == .roce
  let ports := portsArg a
  let mode := portMode s (lpPort (ports.headD 0))
  let pm := argN a 5
  let v4 := argN a 6 == 1
  let vlan (lp : Nat) : Bool := if roce then (roceVlan s (lpPort lp) 7).isSome else (portVlan s (lpPort lp)).isSome
  let rx := dLo (arg a 7)
  let cq := s.cq (argN a 10)
  if ports.isEmpty || 12 < ports.length || ports.any (fun p => 96 ≤ p || portMode s (lpPort p) != mode) then some 1
  else if argN a 3 = 0 || (if roce then 1 else 64) < argN a 3 then some 3
  else if argN a 4 % 64 ≠ 0 || argN a 4 < 49152 || 65472 < argN a 4 then some 4
  else if !(if roce then [1024, 2048, 4096] else [1024, 2048, 4096, 8192]).contains pm then some 5
  else if ports.any (fun p => maxFrame s (lpPort p) < qpFrameBytes (vlan p) roce v4 pm) then some 5
  else if 1 < argN a 6 then some 6
  else if rx ≠ 0 && (!moValid s rx || (s.moOf rx).ctx != q.ctx || (s.moOf rx).imported.isSome || !(s.moOf rx).rights.getLsbD 1) then some 7
  else if rx ≠ 0 && (argN a 9 < 6 || 20 < argN a 9) then some 9
  else if rx ≠ 0 && (65536 ≤ argN a 10 || !cq.active || cq.ctx != q.ctx || s.sqs.any (fun e => e.2.st != .free && e.2.cq == argN a 10) ||
      s.qps.any (fun e => e.1 != n && e.2.rxMo != 0 && e.2.rxCq == argN a 10)) then some 10
  else if rx ≠ 0 && (argN a 8 % 64 ≠ 0 || (s.moOf rx).len < argN a 8 + cq.size * 2 ^ argN a 9) then some 8
  else if 8 < argN a 11 then some 11
  else none

/-- queue.qp_init (R143, R144). -/
def cmdQpInit : Cmd :=
  { opcode := 0x0406, len := fun _ => 13
    body := fun c a s =>
      let n := argN a 0
      let ro := arg a 12
      if !qpNamed s c n then bad msNotFound 0 s
      else if (s.qp n).st != .reset then badQpState n s
      else
        match qpInitBad s n a with
        | some i => bad msInvalid i s
        | none =>
          okRes (touchQp n (s.updQp n (fun q => { q with
            st := .init
            localPorts := portsArg a
            npaths := argN a 3
            sportBase := argN a 4
            payloadMax := argN a 5
            ipv4 := argN a 6 == 1
            rxMo := dLo (arg a 7)
            rxOff := argN a 8
            rxLog2 := argN a 9
            rxCq := argN a 10
            sickHold := argN a 11
            roce := { q.roce with maxRetry := fld ro 2 0, maxRnr := fld ro 5 3, ackTimeout := fld ro 10 6 } }))) }

/-- The QPs of a needle. -/
def needleLoad (s : State) (k : Nat) : Nat := Tab.countWhere s.qps (fun _ q => q.needle == some k)

/-- The needle of a new connection (R146), of those in service. -/
def needleFor (s : State) : Option Nat :=
  (List.range 16).foldl (fun b k =>
    if 8192 ≤ needleLoad s k || !unitOk s k 0 then b
    else match b with | some j => if needleLoad s k < needleLoad s j then some k else b | none => some k) none

/-- The peer addresses of queue.qp_connect. -/
def addrsArg (a : List Word) : List (BitVec 128) := (List.range (argN a 1)).map (fun i => addrOf (arg a (5 + 2 * i)) (arg a (6 + 2 * i)))

/-- Whether an address is of a family (R143, R370): an IPv4 one is 4 bytes and 12 zero bytes, and an IPv6 one is not. -/
def addrFamily (ipv4 : Bool) (x : BitVec 128) : Bool := decide (x.toNat % 2 ^ 96 = 0) == ipv4

/-- The argument that keeps queue.qp_connect from connecting (R143, R151). -/
def qpConnectBad (s : State) (q : Qp) (a : List Word) : Option Nat :=
  let roce := q.mode == .roce
  let psn := if roce then 2 ^ 24 else 2 ^ 32
  if !roce && s.ertPort = 0 then some 0
  else if argN a 1 = 0 || 12 < argN a 1 then some 1
  else if (if roce then 2 ^ 24 else 2 ^ 17) ≤ argN a 2 then some 2
  else if psn ≤ argN a 3 then some 3
  else if psn ≤ argN a 4 then some 4
  else ((addrsArg a).findIdx? (fun x => !addrFamily q.ipv4 x)).map (fun i => 5 + 2 * i)

/-- A QP as queue.qp_connect leaves it (R144, R152, R155, R163, R190). -/
def Qp.connected (q : Qp) (s : State) (k : Nat) (a : List Word) : Qp :=
  let snd := argN a 3
  let rcv := argN a 4
  { q with
    st := .active, needle := some k, remoteAddrs := addrsArg a, remoteQpn := argN a 2
    sndPsn0 := BitVec.ofNat 32 snd, rcvPsn0 := BitVec.ofNat 32 rcv
    sndUna := BitVec.ofNat 32 snd, nextPsn := BitVec.ofNat 32 snd, nextMsg := 0, rxSeq := 0, cwnd := cwndInit s
    peerDelivered := 0xFFFFFF, delivered := 0xFFFFFF
    base := BitVec.ofNat 32 rcv, ackBase := BitVec.ofNat 32 rcv, recent := BitVec.ofNat 32 rcv
    roce := { q.roce with sndNext := BitVec.ofNat 24 snd, sndUna := BitVec.ofNat 24 snd, expect := BitVec.ofNat 24 rcv } }

/-- queue.qp_connect (R144, R146, R202): a RoCEv2 QP claims its tracker. -/
def cmdQpConnect : Cmd :=
  { opcode := 0x0407, len := fun a => 5 + 2 * min 12 (argN a 1)
    body := fun c a s =>
      let n := argN a 0
      let q := s.qp n
      if !qpNamed s c n then bad msNotFound 0 s
      else if q.st != .init then badQpState n s
      else
        match qpConnectBad s q a with
        | some i => bad msInvalid i s
        | none =>
          match needleFor s with
          | none => bad msQuota 0 s
          | some k =>
            let go (s : State) : CmdRes × State := (.ok [rw k], setAssigned k (touchQp n (s.updQp n (fun q => q.connected s k a))))
            if q.mode == .ert || s.trackers.any (fun t => t.2.qpn == n && t.2.use == .roce) then go s
            else
              match openTracker { qpn := n, msgId := 0, op := 0, use := .roce, shared := false, slice := (s.ctx q.ctx).slice, tc := 7 } s with
              | some (_, s) => go s
              | none => bad msQuota 0 s }

/-- queue.qp_hold (R144). -/
def cmdQpHold : Cmd :=
  { opcode := 0x0408, len := fun _ => 1
    body := fun c a s =>
      let n := argN a 0
      if !qpNamed s c n then bad msNotFound 0 s
      else if (s.qp n).st != .active then badQpState n s
      else okRes (touchQp n (s.updQp n (fun q => { q with st := .held, cmdHeld := true }))) }

/-- queue.qp_resume (R144). -/
def cmdQpResume : Cmd :=
  { opcode := 0x0409, len := fun _ => 1
    body := fun c a s =>
      let n := argN a 0
      let q := s.qp n
      if !qpNamed s c n then bad msNotFound 0 s
      else if q.st != .held || !q.cmdHeld then badQpState n s
      else
        let s := touchQp n (s.updQp n (fun q => { q with st := .active, cmdHeld := false }))
        okRes (pumpWork (if q.mode == .roce then pumpRoce n s else pumpQp 1024 n s)) }

/-- queue.qp_destroy (R144): it answers at DRAINING. -/
def cmdQpDestroy : Cmd :=
  { opcode := 0x040A, len := fun _ => 2
    body := fun c a s =>
      let n := argN a 0
      if !qpNamed s c n then bad msNotFound 0 s
      else if (s.qp n).st == .draining then badQpState n s
      else if 1 < argN a 1 then bad msInvalid 1 s
      else okRes (touchQp n (qpDrain n (argN a 1 == 1) s)) }

/-- A QP as queue.qp_reset leaves it (R143, R144): its kind, context and local attributes stay. -/
def Qp.cleared (q : Qp) : Qp :=
  { mode := q.mode, ctx := q.ctx, localPorts := q.localPorts, npaths := q.npaths, sportBase := q.sportBase, payloadMax := q.payloadMax
    ipv4 := q.ipv4, rxMo := q.rxMo, rxOff := q.rxOff, rxLog2 := q.rxLog2, rxCq := q.rxCq, sickHold := q.sickHold
    roce := { maxRetry := q.roce.maxRetry, maxRnr := q.roce.maxRnr, ackTimeout := q.roce.ackTimeout } }

/-- queue.qp_reset (R144). -/
def cmdQpReset : Cmd :=
  { opcode := 0x040B, len := fun _ => 1
    body := fun c a s =>
      let n := argN a 0
      let q := s.qp n
      if !qpNamed s c n then bad msNotFound 0 s
      else if q.st != .error then badQpState n s
      else if !qpIdle s n then bad msQpBusy 0 s
      else
        let s := touchQp n (s.updQp n Qp.cleared)
        okRes (match q.needle with | some k => setAssigned k s | none => s) }

/-- queue.qp_query (R382). -/
def cmdQpQuery : Cmd :=
  { opcode := 0x040C, len := fun _ => 1
    body := fun c a s =>
      let n := argN a 0
      let q := s.qp n
      let roce := q.mode == .roce
      if !qpNamed s c n then bad msNotFound 0 s
      else
        (.ok [rw (qpStateCode q.st), rw (b2n roce), rw (q.needle.getD 0), rw q.errCause,
          rw (if roce then q.roce.sndUna.toNat else q.sndUna.toNat), rw (if roce then q.roce.expect.toNat else q.base.toNat)], s) }

/-! ### Connection-management datagrams (R183, R383) -/

/-- Bytes as words, 8 to a word (R370). -/
def wordsOf (k : Nat) (bs : List Byte) : List Word := (List.range k).map (fun i => rw (ofLe (Sys2Proof.Machine.slice bs (8 * i) 8)))

/-- queue.cm_send: from UD QP 1 of the port, in TC7. -/
def cmdCmSend : Cmd :=
  { opcode := 0x040D, len := fun _ => 36
    body := fun _ a s =>
      let lp := argN a 0
      let dst := addrOf (arg a 1) (arg a 2)
      let n := argN a 3
      let v := roceVlan s (lpPort lp) 7
      let data := ((List.range 32).flatMap (fun i => leBytes 8 (argN a (4 + i)))).take n
      let bytes := 14 + (if v.isSome then 4 else 0) + (if dst.toNat % 2 ^ 96 = 0 then 20 else 40) + 8 + 12 + 8 + n + 4 + 4
      let fr := Frame.cm (netHdr s lp (decide (dst.toNat % 2 ^ 96 = 0)) dst 7 0 4791 v) data
      if 96 ≤ lp then bad msInvalid 0 s
      else if n = 0 || 256 < n then bad msInvalid 3 s
      else okRes (egressPut lp { kind := .roce, tc := 7, bytes := bytes, frame := fr } s) }

/-- queue.cm_recv: the oldest datagram of a port, of the slice or of the manager. -/
def cmdCmRecv : Cmd :=
  { opcode := 0x040E, anySlice := true, len := fun _ => 1
    body := fun c a s =>
      let lp := argN a 0
      let k := c.slice.getD 512
      let l := Tab.getD s.cm k []
      if 96 ≤ lp then bad msInvalid 0 s
      else
        match l.find? (fun d => d.lport == lp) with
        | none => (.ok (List.replicate 35 0), s)
        | some d => (.ok (rw d.data.length :: addrWords d.src ++ wordsOf 32 d.data), { s with cm := Tab.put s.cm k (l.erase d) }) }

/-- QUEUE_CREATE (R61). -/
def execQueueCreate (mb : Mbox) (s : State) : Host.Outcome State Fault Refusal := runCmd mb cmdQueueCreate s
/-- QUEUE_DESTROY (R77). -/
def execQueueDestroy (mb : Mbox) (s : State) : Host.Outcome State Fault Refusal := runCmd mb cmdQueueDestroy s
/-- QUEUE_HOLD (R76). -/
def execQueueHold (mb : Mbox) (s : State) : Host.Outcome State Fault Refusal := runCmd mb cmdQueueHold s
/-- QUEUE_RESUME (R76). -/
def execQueueResume (mb : Mbox) (s : State) : Host.Outcome State Fault Refusal := runCmd mb cmdQueueResume s
/-- QUEUE_QP_CREATE (R142). -/
def execQueueQpCreate (mb : Mbox) (s : State) : Host.Outcome State Fault Refusal := runCmd mb cmdQpCreate s
/-- QUEUE_QP_INIT (R143). -/
def execQueueQpInit (mb : Mbox) (s : State) : Host.Outcome State Fault Refusal := runCmd mb cmdQpInit s
/-- QUEUE_QP_CONNECT (R146). -/
def execQueueQpConnect (mb : Mbox) (s : State) : Host.Outcome State Fault Refusal := runCmd mb cmdQpConnect s
/-- QUEUE_QP_HOLD (R144). -/
def execQueueQpHold (mb : Mbox) (s : State) : Host.Outcome State Fault Refusal := runCmd mb cmdQpHold s
/-- QUEUE_QP_RESUME (R144). -/
def execQueueQpResume (mb : Mbox) (s : State) : Host.Outcome State Fault Refusal := runCmd mb cmdQpResume s
/-- QUEUE_QP_DESTROY (R144). -/
def execQueueQpDestroy (mb : Mbox) (s : State) : Host.Outcome State Fault Refusal := runCmd mb cmdQpDestroy s
/-- QUEUE_QP_RESET (R144). -/
def execQueueQpReset (mb : Mbox) (s : State) : Host.Outcome State Fault Refusal := runCmd mb cmdQpReset s
/-- QUEUE_QP_QUERY (R382). -/
def execQueueQpQuery (mb : Mbox) (s : State) : Host.Outcome State Fault Refusal := runCmd mb cmdQpQuery s
/-- QUEUE_CM_SEND (R383). -/
def execQueueCmSend (mb : Mbox) (s : State) : Host.Outcome State Fault Refusal := runCmd mb cmdCmSend s
/-- QUEUE_CM_RECV (R383). -/
def execQueueCmRecv (mb : Mbox) (s : State) : Host.Outcome State Fault Refusal := runCmd mb cmdCmRecv s

end Sys2Proof.Machine
end

