-- ==== Sys2Proof/Machine/CmdObj.lean ====
section
/-! DEFINITION. The memory-object, window, marker, group and skein commands of the mailboxes (13 R384-R386; 02 R29, R40-R59;
09 R255-R258). -/

namespace Sys2Proof.Machine

/-! ### Memory objects (R29, R40-R44) -/

/-- The index of a new object: the one that has been free longest (R29). -/
def moSlot (s : State) : Option (Nat × State) :=
  if s.moNext < 1048576 then some (s.moNext, { s with moNext := s.moNext + 1 })
  else match s.moFree with | i :: t => some (i, { s with moFree := t }) | [] => none

/-- Register an object on the index that is due: its handle. -/
def moNew (f : Mo → Mo) (s : State) : Option (BitVec 32 × State) :=
  match moSlot s with
  | none => none
  | some (i, s) =>
    let g := nextGen (s.mo i).gen 4095
    some (moHandle i g, touchMo i (s.updMo i (fun _ => f { gen := g, st := .valid })))

/-- A handle as a result. -/
def hw (h : BitVec 32) : Word := rw h.toNat

/-- Answer with a new object's handle, where an index is free. -/
def moAnswer (r : Option (BitVec 32 × State)) (s : State) : CmdRes × State :=
  match r with | some (h, s) => (.ok [hw h], s) | none => bad msQuota 0 s

/-- mem.register (R40, R41). -/
def cmdMemRegister : Cmd :=
  { opcode := 0x0501, len := fun _ => 5
    body := fun c a s =>
      let ctx := argN a 0
      let base := argN a 1
      let len := argN a 2
      let r := argN a 3
      let coh := argN a 4 == 1
      if !ctxNamed s c ctx then bad msNotFound 0 s
      else if (s.ctx ctx).st != .active then badCtxState ctx s
      else if base % 64 ≠ 0 then bad msInvalid 1 s
      else if len % 64 ≠ 0 || len = 0 then bad msInvalid 2 s
      else
        match rangePanel (s.ctx ctx) base len with
        | none => bad msInvalid 1 s
        | some (i, p) =>
          if 64 ≤ r then bad msInvalid 3 s
          else if BitVec.ofNat 6 r &&& ~~~p.rights ≠ 0 then bad msProtection 3 s
          else if 1 < argN a 4 || (coh && !(p.targetCode == 1 && p.direct)) then bad msInvalid 4 s
          else if quotaFull s c.sl 4 then bad msQuota 0 s
          else
            moAnswer (moNew (fun o => { o with
              ctx := ctx, panel := i, base := base, len := len, rights := BitVec.ofNat 6 r, coherent := coh }) s) s }

/-- Run a command's effect with its optional DRAIN marker (R43, R47): it must lie in another VALID object. -/
def withDrain (c : Caller) (st i : Nat) (w v : Word) (own : BitVec 32) (s : State) (go : Option (MarkRef × Word) → State → State) :
    CmdRes × State :=
  match cmdMark c w s with
  | (.none, s) => okRes (go none s)
  | (.wait, s) => (.wait, s)
  | (.ok r, s) => if r.mo == own then bad st i s else okRes (go (some (r, v)) s)
  | (.stale, s) => bad st i s
  | (.bad, s) => bad st i s

/-- mem.free (R42-R44): an object that an invalidation of kind 2 retired answers at once (R129). -/
def cmdMemFree : Cmd :=
  { opcode := 0x0502, len := fun _ => 3
    body := fun c a s =>
      let h := dLo (arg a 0)
      let i := moIndex h
      let o := s.mo i
      if moGen h ≠ 0 && o.gen = moGen h && o.inv && o.st == .free &&
          (match o.owner with | some (n, g) => c.owns n && (s.slice n).gen == g | none => false) then
        withDrain c msInvalid 1 (arg a 1) (arg a 2) h s (fun d s => signalDone d s)
      else if moGen h ≠ 0 && o.gen = moGen h && o.inv && o.st == .retiring && c.owns (s.ctx o.ctx).slice then
        withDrain c msInvalid 1 (arg a 1) (arg a 2) h s (fun d s => s.updMo i (fun o => { o with drain := d }))
      else if !moNamed s c h then bad msStale 0 s
      else
        match liveRing s h with
        | some q => (.err msState q, s)
        | none => withDrain c msInvalid 1 (arg a 1) (arg a 2) h s (fun d s => touchMo i (retireMo i d s)) }

/-- A memory object's state as a number (R41). -/
def objCode : ObjState → Nat | .free => 0 | .valid => 1 | .retiring => 2

/-- mem.query (R384). -/
def cmdMemQuery : Cmd :=
  { opcode := 0x0503, len := fun _ => 1
    body := fun c a s =>
      let h := dLo (arg a 0)
      let o := s.moOf h
      if moGen h = 0 || o.gen ≠ moGen h || o.st == .free || !c.owns (s.ctx o.ctx).slice then bad msStale 0 s
      else (.ok [rw (objCode o.st), rw o.ctx, rw o.base, rw o.len, rw o.rights.toNat, rw o.uses], s) }

/-! ### Windows (R45, R47) -/

/-- The rights of a window of a RIGHTS word: REMOTE_READ, REMOTE_WRITE, REMOTE_ATOMIC, REMOTE_SIGNAL. -/
def winRightsOf (r : Nat) : BitVec 4 := BitVec.ofNat 4 (bits r 4 2 + bits r 6 6 * 8)
/-- The rights that an object may grant: REMOTE_SIGNAL needs MARKER. -/
def winGrant (o : Mo) : BitVec 4 := BitVec.ofNat 4 (fld o.rights 4 2 + fld o.rights 5 5 * 8)

/-- The index of a new window: the one that has been free longest (R29). -/
def winSlot (s : State) : Option (Nat × State) :=
  if s.winNext < 262144 then some (s.winNext, { s with winNext := s.winNext + 1 })
  else match s.winFree with | i :: t => some (i, { s with winFree := t }) | [] => none

/-- win.register (R45). -/
def cmdWinRegister : Cmd :=
  { opcode := 0x0601, len := fun _ => 5
    body := fun c a s =>
      let h := dLo (arg a 0)
      let o := s.moOf h
      let off := argN a 1
      let len := argN a 2
      let r := argN a 3
      if !moNamed s c h then bad msStale 0 s
      else if off % 64 ≠ 0 then bad msInvalid 1 s
      else if len % 64 ≠ 0 || len = 0 || o.len < off + len then bad msInvalid 2 s
      else if r &&& 0x5C ≠ r then bad msInvalid 3 s
      else if winRightsOf r &&& ~~~(winGrant o) ≠ 0 then bad msProtection 3 s
      else if 131072 ≤ argN a 4 then bad msInvalid 4 s
      else if quotaFull s c.sl 5 then bad msQuota 0 s
      else
        match winSlot s with
        | none => bad msQuota 0 s
        | some (i, s) =>
          let g := nextGen (s.win i).gen 16383
          (.ok [hw (winHandle i g)], touchWin i (s.updWin i (fun _ =>
            { gen := g, st := .valid, mo := h, off := off, len := len, rights := winRightsOf r, allowedQp := argN a 4 }))) }

/-- win.revoke (R47). -/
def cmdWinRevoke : Cmd :=
  { opcode := 0x0602, len := fun _ => 3
    body := fun c a s =>
      let h := dLo (arg a 0)
      let i := winIndex h
      let w := s.win i
      if winGen h = 0 || w.gen ≠ winGen h || w.st != .valid || !c.owns (s.ctx (winCtx s w)).slice then bad msStale 0 s
      else withDrain c msStale 1 (arg a 1) (arg a 2) 0 s (fun d s => touchWin i (retireWin i d s)) }

/-! ### Markers (R54, R56, R59, R385) -/

/-- Whether a descriptor holds a hardware wait on a record that is pending (R54). -/
def Op.waitsOn (s : State) (o : Op) (key : Nat) : Bool :=
  let on (r : Option MarkRef) : Bool := r.any (fun r => (markNow s r).key == key)
  !o.done && o.mwait ≠ 0 &&
    (((o.stage == .waiting || o.stage == .armed) && o.woke.isNone && on o.wait) ||
     (o.opcode == 0x20 && o.stage == .running && o.skein.trigFail.isNone && (List.range (skNLayers o)).any (fun l =>
        (Tab.getD o.skein.layers l {}).st == .idle && on (skTrigger o l).1)))

/-- marker.reset (R54). -/
def cmdMarkerReset : Cmd :=
  { opcode := 0x0701, len := fun _ => 2
    body := fun c a s =>
      if (arg a 1).getLsbD 63 then bad msInvalid 1 s
      else if markNamed s c (dLo (arg a 0)) && (s.moOf (dLo (arg a 0))).imported.isSome then bad msProtection 0 s
      else
        match cmdMark c (arg a 0) s with
        | (.ok r, s) =>
          if s.ops.any (fun e => e.2.waitsOn s r.key) then bad msMarkerBusy 0 s
          else okRes (storeMarker r (resetRecord (markerAt s r.key) (arg a 1)) s)
        | (.wait, s) => (.wait, s)
        | (.bad, s) => bad msProtection 0 s
        | (.stale, s) => bad msStale 0 s
        | (.none, s) => bad msStale 0 s }

/-- Set a flag of a record. -/
def raiseFlag (r : MarkRef) (bit : Nat) (s : State) : State := storeMarker r ((markerAt s r.key).setFlag bit) s

/-- marker.export (R56, R385). -/
def cmdMarkerExport : Cmd :=
  { opcode := 0x0702, len := fun _ => 2
    body := fun c a s =>
      let t := argN a 1
      let h := dLo (arg a 0)
      if markNamed s c h && (s.moOf h).imported.isSome then bad msProtection 0 s
      else
        match cmdMark c (arg a 0) s with
        | (.wait, s) => (.wait, s)
        | (.bad, s) => bad msProtection 0 s
        | (.stale, s) => bad msStale 0 s
        | (.none, s) => bad msStale 0 s
        | (.ok r, s) =>
          if 512 ≤ t || (s.slice t).st != .active || c.slice == some t then bad msInvalid 1 s
          else if 4096 ≤ s.cookies.length then bad msQuota 0 s
          else
            let f := drawFree s
            let v : Word := BitVec.ofNat 64 (Config.random f.1).toNat
            let s := count 528 3 { f.2 with cookies := { value := v, mark := r, slice := t, gen := (s.slice t).gen } :: s.cookies }
            let s := s.updMo (moIndex h) (fun o => { o with exports := (r, none) :: o.exports })
            (.ok [v], raiseFlag r 5 s) }

/-- The cookie that a slice may import: of its present generation, from a slice that is still ACTIVE (R385). -/
def cookieFor (s : State) (c : Caller) (v : Word) : Option Cookie :=
  s.cookies.find? (fun k => k.value == v && k.slice == c.sl && k.gen == (s.slice k.slice).gen && moValid s k.mark.mo &&
    (s.slice (s.ctx (s.moOf k.mark.mo).ctx).slice).st == .active)

/-- marker.import (R56, R385): 16 bytes that hold only MARKER. -/
def cmdMarkerImport : Cmd :=
  { opcode := 0x0703, len := fun _ => 2
    body := fun c a s =>
      let ctx := argN a 1
      match cookieFor s c (arg a 0) with
      | none => bad msStale 0 s
      | some k =>
        if !ownCtx s c ctx then bad msNotFound 1 s
        else if (s.ctx ctx).st != .active then badCtxState ctx s
        else if quotaFull s c.sl 4 then bad msQuota 0 s
        else
          match moNew (fun o => { o with ctx := ctx, len := 16, rights := 0x20, imported := some k.mark }) s with
          | none => bad msQuota 0 s
          | some (h, s) =>
            let s := { s with cookies := s.cookies.erase k }
            (.ok [hw h], s.updMo (moIndex k.mark.mo) (fun o =>
              { o with exports := (k.mark, some h) :: o.exports.erase (k.mark, none) })) }

/-- SCOPE and QPN of marker.bind and marker.unbind. -/
def bindQp (a : List Word) : Option Nat := if argN a 2 = 1 then some (argN a 3) else none

/-- Whether CTX, and under SCOPE QP the QPN, name what the caller may bind to. -/
def bindNamed (s : State) (c : Caller) (a : List Word) : Option Nat :=
  let ctx := argN a 1
  if !ownCtx s c ctx then some 1
  else match bindQp a with
    | some n => if (match Tab.get s.qps n with | some q => q.ctx != ctx | none => true) then some 3 else none
    | none => none

/-- marker.bind (R59): an entry that is on the list already stays as it is (DESIGN CHOICE, log 136). -/
def cmdMarkerBind : Cmd :=
  { opcode := 0x0704, len := fun _ => 4
    body := fun c a s =>
      let ctx := argN a 1
      if 1 < argN a 2 then bad msInvalid 2 s
      else
        match bindNamed s c a, cmdMark c (arg a 0) s with
        | some i, _ => bad msNotFound i s
        | none, (.wait, s) => (.wait, s)
        | none, (.bad, s) => bad msProtection 0 s
        | none, (.stale, s) => bad msNotFound 0 s
        | none, (.none, s) => bad msNotFound 0 s
        | none, (.ok r, s) =>
          let b : Binding := { qp := bindQp a, mark := r }
          let l := (s.ctx ctx).bindings
          if l.contains b then okRes s
          else if 4096 ≤ l.length then bad msQuota 0 s
          else okRes (raiseFlag r 4 (touchCtx ctx (s.updCtx ctx (fun x => { x with bindings := x.bindings ++ [b] })))) }

/-- marker.unbind (R59). -/
def cmdMarkerUnbind : Cmd :=
  { opcode := 0x0705, len := fun _ => 4
    body := fun c a s =>
      let ctx := argN a 1
      let h := dLo (arg a 0)
      let off := fld (arg a 0) 63 32 * 16
      if 1 < argN a 2 then bad msInvalid 2 s
      else if !ownCtx s c ctx then bad msNotFound 1 s
      else
        match (s.ctx ctx).bindings.find? (fun b => b.qp == bindQp a && b.mark.mo == h && b.mark.off == off) with
        | none => bad msNotFound 0 s
        | some b =>
          okRes (unbound [b.mark] (touchCtx ctx (s.updCtx ctx (fun x => { x with bindings := x.bindings.erase b })))) }

/-! ### Groups (R255-R258) -/

/-- A member entry: the QPN, or none for SELF. -/
def memberOf (w : Word) : Option Nat := if w.getLsbD 17 then none else some (fld w 16 0)

/-- Whether the members' list names one SELF, and each QP once. -/
def membersDistinct (ms : List (Option Nat)) : Bool :=
  (ms.filter (·.isNone)).length == 1 && (ms.filter (·.isSome)).dedup.length + 1 == ms.length

/-- Whether a QPN names an ACTIVE ERT QP of a slice. -/
def ertLive (s : State) (sl n : Nat) : Bool :=
  match Tab.get s.qps n with | some q => q.st == .active && q.mode == .ert && (s.ctx q.ctx).slice == sl | none => false

/-- The argument, with its status, that keeps group.create from making a group, its member list aside (R256). -/
def groupBad (s : State) (c : Caller) (a : List Word) : Option (Nat × Nat) :=
  let n := argN a 2
  let mo := dLo (arg a 3)
  let m := s.moOf mo
  let sw := argN a 1 == 1
  if 4096 ≤ argN a 0 then some (msInvalid, 0)
  else if (s.group (argN a 0)).st != .free then some (msGroupBusy, 0)
  else if 1 < argN a 1 then some (msInvalid, 1)
  else if n < 2 || 1024 < n then some (msInvalid, 2)
  else if !moNamed s c mo || !m.rights.getLsbD 0 then some (msInvalid, 3)
  else if (argN a 4 - m.base) % 8 ≠ 0 || !inside (argN a 4) (8 * n) m.base m.len then some (msInvalid, 4)
  else if !sw && (argN a 5 < 2 || 16 < argN a 5) then some (msInvalid, 5)
  else if !sw && 1 < argN a 6 then some (msInvalid, 6)
  else if !sw && (argN a 7 = 0 || 8 < argN a 7) then some (msInvalid, 7)
  else if sw && !([0, 1, 2, 12].contains (argN a 8)) then some (msInvalid, 8)
  else if sw && !ertLive s c.sl (argN a 9) then some (msInvalid, 9)
  else if argN a 10 = 14 || 15 < argN a 10 then some (msInvalid, 10)
  else none

/-- Whether one more EXACT group, with its slots, fits (R255, R256). -/
def exactFull (s : State) (rsv : Nat) : Bool :=
  let g := s.groups.filter (fun e => e.2.st != .free && !e.2.switch)
  decide (64 ≤ g.length) || decide (144 < (g.map (fun e => e.2.rsv)).foldl (· + ·) 0 + rsv)

/-- The group that group.create makes (R256, R257). -/
def groupOf (c : Caller) (a : List Word) (ms : List (Option Nat)) : Group :=
  let sw := argN a 1 == 1
  let g : Group :=
    { st := .forming, slice := c.sl, switch := sw, members := ms, rank := (ms.findIdx? (·.isNone)).getD 0
      fanin := argN a 5, wide := argN a 6 == 1, rsv := if sw then 0 else argN a 7, wireFmt := argN a 8
      aggQpn := if sw then argN a 9 else 0, timeout := argN a 10, key := arg a 11 }
  { g with fprint := groupPrint (argN a 0) g }

/-- group.create (R256-R258): with the member list as read, or none where the read failed; HELLOs start. -/
def cmdGroupCreate (members : Option (List Word)) : Cmd :=
  { opcode := 0x0801, len := fun _ => 12
    body := fun c a s =>
      let n := argN a 0
      let sw := argN a 1 == 1
      match groupBad s c a, members with
      | some (st, i), _ => bad st i s
      | none, none => bad msInvalid 4 s
      | none, some ws =>
        let ms := (ws.take (argN a 2)).map memberOf
        let qs := ms.filterMap id
        if ms.length ≠ argN a 2 || !membersDistinct ms then bad msInvalid 4 s
        else if qs.any (fun q => (Tab.get s.qps q).isSome && (s.qp q).mode == .roce) then bad msUnsupportedQp 4 s
        else if qs.any (fun q => !ertLive s c.sl q) then bad msInvalid 4 s
        else if !sw && exactFull s (argN a 7) then bad msQuota 0 s
        else if quotaFull s c.sl 7 then bad msQuota 0 s
        else
          let s := setGroup n (fun _ => groupOf c a ms) s
          okRes ((unheard (s.group n)).foldl (fun s r => sendHello n r true s) s) }

/-- Whether a number names a group of the caller. -/
def groupNamed (s : State) (c : Caller) (n : Nat) : Bool := decide (n < 4096) && (s.group n).st != .free && c.owns (s.group n).slice

/-- group.destroy (R258): it answers at DRAINING. -/
def cmdGroupDestroy : Cmd :=
  { opcode := 0x0802, len := fun _ => 1
    body := fun c a s =>
      let n := argN a 0
      if !groupNamed s c n then bad msNotFound 0 s
      else if (s.group n).st == .draining then (.err msState 4, s)
      else okRes (groupDestroy n s) }

/-- group.query (R384). -/
def cmdGroupQuery : Cmd :=
  { opcode := 0x0803, len := fun _ => 1
    body := fun c a s =>
      let n := argN a 0
      let g := s.group n
      if !groupNamed s c n then bad msNotFound 0 s
      else (.ok [rw (groupCode g.st), rw (b2n g.switch), rw g.n, rw g.rank, rw g.nextSeq.toNat, rw g.reason, rw g.lostRank], s) }

/-! ### skein.query (R386) -/

/-- The started `SKEIN` of a queue with a ROW. -/
def skeinAt (s : State) (q row : Nat) : Option Op :=
  (s.ops.find? (fun e => e.1 / 16777216 == q && e.2.opcode == 0x20 && e.2.stage == .running && !e.2.done && dRow (e.2.w 0) == row)).map (·.2)

/-- Layers of a `SKEIN` in a state. -/
def layersIn (o : Op) (f : LayerState → Bool) : Nat :=
  ((List.range (skNLayers o)).filter (fun l => f (Tab.getD o.skein.layers l {}).st)).length

/-- skein.query. -/
def cmdSkeinQuery : Cmd :=
  { opcode := 0x0901, len := fun _ => 2
    body := fun c a s =>
      match (if sqNamed s c (argN a 0) then skeinAt s (argN a 0) (argN a 1) else none) with
      | none => bad msNotFound 0 s
      | some o =>
        (.ok [rw (layersIn o (fun l => l != .idle && l != .triggered)), rw (layersIn o (· == .landed)), rw (layersIn o (· == .failed)),
          rw (layersIn o (· == .idle))], s) }

/-- MEM_REGISTER (R40). -/
def execMemRegister (mb : Mbox) (s : State) : Host.Outcome State Fault Refusal := runCmd mb cmdMemRegister s
/-- MEM_FREE (R42). -/
def execMemFree (mb : Mbox) (s : State) : Host.Outcome State Fault Refusal := runCmd mb cmdMemFree s
/-- MEM_QUERY (R384). -/
def execMemQuery (mb : Mbox) (s : State) : Host.Outcome State Fault Refusal := runCmd mb cmdMemQuery s
/-- WIN_REGISTER (R45). -/
def execWinRegister (mb : Mbox) (s : State) : Host.Outcome State Fault Refusal := runCmd mb cmdWinRegister s
/-- WIN_REVOKE (R47). -/
def execWinRevoke (mb : Mbox) (s : State) : Host.Outcome State Fault Refusal := runCmd mb cmdWinRevoke s
/-- MARKER_RESET (R54). -/
def execMarkerReset (mb : Mbox) (s : State) : Host.Outcome State Fault Refusal := runCmd mb cmdMarkerReset s
/-- MARKER_EXPORT (R56). -/
def execMarkerExport (mb : Mbox) (s : State) : Host.Outcome State Fault Refusal := runCmd mb cmdMarkerExport s
/-- MARKER_IMPORT (R56). -/
def execMarkerImport (mb : Mbox) (s : State) : Host.Outcome State Fault Refusal := runCmd mb cmdMarkerImport s
/-- MARKER_BIND (R59). -/
def execMarkerBind (mb : Mbox) (s : State) : Host.Outcome State Fault Refusal := runCmd mb cmdMarkerBind s
/-- MARKER_UNBIND (R59). -/
def execMarkerUnbind (mb : Mbox) (s : State) : Host.Outcome State Fault Refusal := runCmd mb cmdMarkerUnbind s
/-- GROUP_CREATE (R256). -/
def execGroupCreate (mb : Mbox) (members : Option (List Word)) (s : State) : Host.Outcome State Fault Refusal :=
  runCmd mb (cmdGroupCreate members) s
/-- GROUP_DESTROY (R258). -/
def execGroupDestroy (mb : Mbox) (s : State) : Host.Outcome State Fault Refusal := runCmd mb cmdGroupDestroy s
/-- GROUP_QUERY (R384). -/
def execGroupQuery (mb : Mbox) (s : State) : Host.Outcome State Fault Refusal := runCmd mb cmdGroupQuery s
/-- SKEIN_QUERY (R386). -/
def execSkeinQuery (mb : Mbox) (s : State) : Host.Outcome State Fault Refusal := runCmd mb cmdSkeinQuery s

end Sys2Proof.Machine
end

