-- ==== Sys2Proof/Machine/CmdDev.lean ====
section
/-! DEFINITION. The governor, fault, measurement and debug commands of the mailboxes (13 R386, R387; 14 R398, R412; 16
R436, R448; 17 R462; 18 R473, R476). -/

namespace Sys2Proof.Machine

/-! ### gov.* (R386, R387, R448, R462) -/

/-- A figure as its receiver sees it: exact for the manager, in 10 W steps for a slice. -/
def coarseMw (c : Caller) (x : Nat) : Nat := if c.slice.isSome then x / 10000 * 10000 else x

/-- gov.query: a slice sees the means of the last whole second. -/
def cmdGovQuery : Cmd :=
  { opcode := 0x0A01, anySlice := true, len := fun _ => 0
    body := fun c _ s =>
      let g := s.gov
      let own := if c.slice.isSome then g.shownOwn else g.ownMw
      let die (p : Nat) : Nat := Tab.getD (if c.slice.isSome then g.shownDie else g.dieMw) p 0
      let pkg := own + ((List.range 4).map die).foldl (· + ·) 0
      (.ok ([rw (g.envelope / 1000), rw (coarseMw c pkg)] ++ (List.range 4).map (fun p => rw (coarseMw c (die p))) ++ [rw (coarseMw c own)]), s) }

/-- gov.set_envelope: the governor's next loop takes it. -/
def cmdGovSetEnvelope : Cmd :=
  { opcode := 0x0A02, manager := true, len := fun _ => 5
    body := fun _ a s =>
      let w := argN a 0
      if w < 100 || 1600 < w then bad msInvalid 0 s
      else okRes { s with gov := { s.gov with next := some (1000 * w), caps := (List.range 4).map (fun p => (p, 1000 * argN a (1 + p))) } } }

/-! ### fault.* (R386, R387, R392, R398, R412) -/

/-- A unit state as a number (R392). -/
def unitCode : UnitState → Nat | .inService => 0 | .fenced => 1 | .testing => 2

/-- SSTATE of a source (R392). -/
def sstate (s : State) (n : Nat) : UnitState := unitState s n (fcSrc s n).sstateUnit

/-- fault.query: SSTATE, FENCES and CLASS of FC_SRC_n. -/
def cmdFaultQuery : Cmd :=
  { opcode := 0x0B01, manager := true, len := fun _ => 1
    body := fun _ a s =>
      let n := argN a 0
      if 60 ≤ n then bad msInvalid 0 s
      else (.ok [rw (unitCode (sstate s n)), rw (fcSrc s n).fences, rw (fcSrc s n).cls], s) }

/-- The units of a source that are FENCED. -/
def fencedUnits (s : State) (n : Nat) : List Nat := (List.range 64).filter (fun u => oneUnit s n u == .fenced)

/-- fault.restore: FENCES is cleared, and every FENCED unit of the source is tested (R398). -/
def cmdFaultRestore : Cmd :=
  { opcode := 0x0B02, manager := true, len := fun _ => 1
    body := fun _ a s =>
      let n := argN a 0
      if 60 ≤ n then bad msInvalid 0 s
      else if (fencedUnits s n).isEmpty then (.err msState (unitCode (sstate s n)), s)
      else okRes ((fencedUnits s n).foldl (fun s u => setUnit n u .testing s) (updSrc n (fun c => { c with fences := 0 }) s)) }

/-- Whether R389 names a unit of a source. -/
def unitNamed (n u : Nat) : Bool :=
  if n < 16 then u == 0
  else if n ≤ 23 then decide (u < 4) || u == 7
  else if n ≤ 27 then u == 0
  else if n ≤ 31 then decide (u < (if n % 2 = 0 then 3 else 2))
  else if n ≤ 33 then decide (u < 4)
  else if n ≤ 35 then u == 0
  else if n ≤ 37 then decide (u < 16)
  else if n ≤ 41 then decide (u < 6) || u == 7
  else if n ≤ 47 then decide (u < 16)
  else if n ≤ 50 then decide (u < 4)
  else if n ≤ 52 then u == 0
  else if n = 53 then decide (u < 64)
  else if n = 54 then decide (u < 16)
  else if n = 55 then decide (u < 32)
  else if n = 58 then decide (u < 4)
  else u == 0

/-- The class with which a source and unit report a DETAIL, where R390 names it for the source. -/
def codeClass (s : State) (n detail unit : Nat) : Option Nat :=
  let on (p : Bool) (c : Nat) : Option Nat := if p then some c else none
  let engine := decide (n ≤ 35)
  let fabric := decide (42 ≤ n) && decide (n ≤ 47)
  let die := decide (38 ≤ n) && decide (n ≤ 41)
  let host := n == 48 || n == 49
  let sc := n == 36 || n == 37
  match detail with
  | 0x01 => some 1
  | 0x02 => on (engine || n == 50 || n == 52) 2
  | 0x03 => on engine 2
  | 0x04 => on (engine || n == 50 || n == 52) 2
  | 0x05 => on (fabric || die) 1
  | 0x06 => on fabric 2
  | 0x07 => on fabric 2
  | 0x08 => on die 2
  | 0x09 => on die (if holdsStash s (n - 38) then 3 else 2)
  | 0x0A => on host 2
  | 0x0B => on host 1
  | 0x0C => on sc 1
  | 0x0D => on sc 2
  | 0x0E => on sc 1
  | 0x0F => on host 2
  | 0x10 => on (n == 50) 2
  | 0x11 => on (n == 50) 3
  | 0x12 => on (n == 51) 2
  | 0x13 => on (n == 51) 3
  | 0x14 => on (n == 52) 2
  | 0x15 => on (n == 53) 2
  | 0x16 => on (n == 53) (if unit = 0 then 3 else 2)
  | 0x17 => on (n == 54) 2
  | 0x18 => on (n == 54) 3
  | 0x19 => on (n == 55) 2
  | 0x1A => on (n == 55) 3
  | 0x1B => on (n == 56) 3
  | 0x1C => on (n == 57) 2
  | 0x1D => on (n == 58) 2
  | 0x1E => on (n == 59) 1
  | 0x1F => on engine 3
  | 0x20 => on sc 2
  | _ => none

/-- fault.inject (R412): the event is reported once the response is valid. -/
def cmdFaultInject (two : Bool) : Cmd :=
  { opcode := 0x0B03, manager := true, len := fun _ => 4
    body := fun _ a s =>
      let n := argN a 0
      if 60 ≤ n then bad msInvalid 0 s
      else if (codeClass s n (argN a 2) (argN a 3)).isNone then bad msInvalid 2 s
      else if codeClass s n (argN a 2) (argN a 3) != some (argN a 1) then bad msInvalid 1 s
      else if !unitNamed n (argN a 3) then bad msInvalid 3 s
      else okRes s
    after := fun a s =>
      let x := ownEv (argN a 0) (argN a 1) (argN a 2) (argN a 3) none s
      onEvent (some two) { x.1 with injected := true } x.2 }

/-! ### sec.measure (R386, R436) -/

/-- sec.measure: the digest of the running image's CODE. -/
def cmdSecMeasure : Cmd :=
  { opcode := 0x0C02, anySlice := true, len := fun _ => 0
    body := fun _ _ s => (.ok (rw s.rumel.toNat :: wordsOf 6 (Tab.getD s.fnd.meas 3 (zeros 48))), s) }

/-! ### dbg.* (R386, R411, R448, R473, R476) -/

/-- A counter (R471). -/
def counterOf (s : State) (set i : Nat) : Nat := (Tab.getD s.counters (set * 8192 + i) 0).toNat

/-- A coarse bucket of the histograms (R476). -/
def coarseBucket (s : State) (i : Nat) : Nat :=
  let h := i / 11
  let j := i % 11
  if 88 ≤ i then 0
  else
    let ks := if j < 10 then (List.range 100).map (fun k => 1024 * h + 100 * j + k) else (List.range 24).map (fun k => 1024 * h + 1000 + k)
    (ks.map (counterOf s 530)).foldl (· + ·) 0

/-- A counter as its reader sees it (R448, R473, R476). -/
def counterSeen (s : State) (c : Caller) (set i : Nat) : Nat :=
  match c.slice with
  | none => counterOf s set i
  | some x =>
    if set = x then counterOf s set i
    else (if set = 530 then coarseBucket s i else counterOf s set i) / 65536 * 65536

/-- dbg.counters. -/
def cmdDbgCounters : Cmd :=
  { opcode := 0x0D01, anySlice := true, len := fun _ => 3
    body := fun c a s =>
      let set := argN a 0
      let start := argN a 1
      let k := argN a 2
      let may := match c.slice with | none => true | some x => set == x || decide (512 ≤ set)
      if 640 ≤ set || !may then bad msInvalid 0 s
      else if 8192 ≤ start then bad msInvalid 1 s
      else if k = 0 || 500 < k || 8192 < start + k then bad msInvalid 2 s
      else (.ok ((List.range k).map (fun i => rw (counterSeen s c set (start + i)))), s) }

/-- dbg.trace: it changes state, which DEBUG_ACCESS reports (R390). -/
def cmdDbgTrace : Cmd :=
  { opcode := 0x0D02, manager := true, len := fun _ => 2
    body := fun _ a s =>
      if 1 < argN a 0 then bad msInvalid 0 s
      else okRes (ceReport 59 0x1E 0 none (s.updFc (fun c => { c with recording := argN a 0 == 1, filter := arg a 1 }))) }

/-- Whether dbg.state's KIND and ID name an object. -/
def dbgFound (s : State) (kind id : Nat) : Bool :=
  match kind with
  | 0 => decide (id < 4096) && (s.ctx id).st != .free
  | 1 => (Tab.get s.qps id).isSome
  | 2 => decide (id < 65536) && ((s.sq id).st != .free || (s.cq id).active)
  | 3 => decide (id < 262144) && (s.win id).st != .free
  | 4 => decide (id < 1048576) && (s.mo id).st != .free
  | 5 => decide (id < 4096) && (s.group id).st != .free
  | _ => false

/-- dbg.state: the spec does not state the layout of the raw words, so each is a free value. -/
def cmdDbgState : Cmd :=
  { opcode := 0x0D03, manager := true, draining := true, len := fun _ => 3
    body := fun _ a s =>
      if 5 < argN a 0 then bad msNotFound 0 s
      else if !dbgFound s (argN a 0) (argN a 1) then bad msNotFound 1 s
      else (.ok ((List.range 64).map (fun i => Config.freeWord (s.freeCtr + i))), { s with freeCtr := s.freeCtr + 64 }) }

/-- GOV_QUERY (R448). -/
def execGovQuery (mb : Mbox) (s : State) : Host.Outcome State Fault Refusal := runCmd mb cmdGovQuery s
/-- GOV_SET_ENVELOPE (R462). -/
def execGovSetEnvelope (mb : Mbox) (s : State) : Host.Outcome State Fault Refusal := runCmd mb cmdGovSetEnvelope s
/-- FAULT_QUERY (R386). -/
def execFaultQuery (mb : Mbox) (s : State) : Host.Outcome State Fault Refusal := runCmd mb cmdFaultQuery s
/-- FAULT_RESTORE (R398). -/
def execFaultRestore (mb : Mbox) (s : State) : Host.Outcome State Fault Refusal := runCmd mb cmdFaultRestore s
/-- FAULT_INJECT (R412). -/
def execFaultInject (mb : Mbox) (twoRecent : Bool) (s : State) : Host.Outcome State Fault Refusal := runCmd mb (cmdFaultInject twoRecent) s
/-- SEC_MEASURE (R386). -/
def execSecMeasure (mb : Mbox) (s : State) : Host.Outcome State Fault Refusal := runCmd mb cmdSecMeasure s
/-- DBG_COUNTERS (R473). -/
def execDbgCounters (mb : Mbox) (s : State) : Host.Outcome State Fault Refusal := runCmd mb cmdDbgCounters s
/-- DBG_TRACE (R411). -/
def execDbgTrace (mb : Mbox) (s : State) : Host.Outcome State Fault Refusal := runCmd mb cmdDbgTrace s
/-- DBG_STATE (R386). -/
def execDbgState (mb : Mbox) (s : State) : Host.Outcome State Fault Refusal := runCmd mb cmdDbgState s

end Sys2Proof.Machine
end

