-- ==== Sys2Proof/Machine/Regs.lean ====
section
/-! DEFINITION. Writes to the registers and pages of BAR 0 (18 R467-R470): the manager page region, the slices' pages,
mailboxes, the fault collector, the State Cache and the MSI-X tables. -/

namespace Sys2Proof.Machine

/-! ### Fabric ports (R318, R319, R321) -/

/-- A field after a write (R7): a reserved encoding leaves it as it was. -/
def keepField (ok : Bool) (new old : Nat) : Nat := if ok then new else old

/-- NET_PORT_CFG from its fields: ENABLE, SPLIT, MODE, AN, VLAN, VID, MAX_FRAME. -/
def portCfgOfFields (en split mode an vlan vid frame : Nat) : BitVec 34 :=
  BitVec.ofNat 34 (en % 2 + split % 8 * 2 + mode % 4 * 2 ^ 4 + an % 2 * 2 ^ 6 + vlan % 2 * 2 ^ 7 + vid % 4096 * 2 ^ 8 + frame % 16384 * 2 ^ 20)

/-- The value that a write leaves in NET_PORT_CFG_n, and whether it is counted (R7, R319): SPLIT, MODE, AN and MAX_FRAME
stand while ENABLE is 1; ENABLE stays 0 beyond 48 sub-ports, or once spread spectrum was found on REFCLK. -/
def portCfgNext (s : State) (n : Nat) (v : BitVec 34) : BitVec 34 × Bool :=
  let o := s.portCfgOf n
  let split := keepField (fld v 3 1 < 4) (fld v 3 1) (fld o 3 1)
  let mode := keepField (fld v 5 4 < 3) (fld v 5 4) (fld o 5 4)
  let an := fld v 6 6
  let frame := keepField (1518 ≤ fld v 33 20 ∧ fld v 33 20 ≤ 9216) (fld v 33 20) (fld o 33 20)
  let vlan := fld v 7 7
  let vid := keepField (vlan = 0 ∨ (1 ≤ fld v 19 8 ∧ fld v 19 8 ≤ 4094)) (fld v 19 8) (fld o 19 8)
  let en := fld v 0 0
  if o.getLsbD 0 then
    let same := split == fld o 3 1 && mode == fld o 5 4 && an == fld o 6 6 && frame == fld o 33 20
    (portCfgOfFields en (fld o 3 1) (fld o 5 4) (fld o 6 6) vlan vid (fld o 33 20), !same)
  else
    let no := en == 1 && (decide (48 < subportsBut s n + 2 ^ split) || s.castOn.ssc)
    (portCfgOfFields (if no then 0 else en) split mode an vlan vid frame, no)

/-- Priority flow control has no effect on a sub-port where it is off (R206): nothing there stays paused. -/
def pfcClear (s : State) : State :=
  { s with lports := Tab.mapV s.lports (fun lp l => if pfcOn s (lpPort lp) then l else { l with paused := false, pauseSent := false }) }

/-- Store NET_PORT_CFG_n: its sub-ports start to train, or go down. -/
def portCfgSet (n : Nat) (c : BitVec 34) (s : State) : State :=
  let was := portEnabled s n
  let lps := portLps s n
  let s := pfcClear { s with portCfg := Tab.put s.portCfg n c }
  if was && !portEnabled s n then lps.foldl (fun s lp => portDown lp s) s
  else if !was && portEnabled s n then (portLps s n).foldl (fun s lp => trainStart lp s) s
  else s

/-- NET_PORT_CFG (R318, R319). -/
def execNetPortCfg (n : Nat) (w : RegWrite) (s : State) : Host.Outcome State Fault Refusal :=
  done (
    if 12 ≤ n then dropWrite s
    else mgrReg (.netPortCfg n w) w (fun s =>
      let x := portCfgNext s n (BitVec.ofNat 34 (mergeReg w ((s.portCfgOf n).setWidth 64)).toNat)
      portCfgSet n x.1 (if x.2 then count 524 (32 * (8 * n) + 9) s else s)) s)

/-- NET_LP_NEXTHOP_p (R321): 0 keeps the sub-port down. -/
def nextHopWrite (p : Nat) (w : RegWrite) (s : State) : State :=
  let old := Tab.getD s.nextHop p 0
  let v := BitVec.ofNat 48 (mergeReg w (old.setWidth 64)).toNat
  let s := { s with nextHop := Tab.put s.nextHop p v }
  if v = 0 then (if old = 0 then s else portDown p s) else if old = 0 then trainStart p s else s

/-! ### Transport and tension (R151, R187, R189, R200, R206) -/

/-- NET_ERT_UDP_PORT (R151): ignored while an ERT QP is ACTIVE, HELD or DRAINING. -/
def execNetErtUdpPort (w : RegWrite) (s : State) : Host.Outcome State Fault Refusal :=
  done (mgrReg (.netErtUdpPort w) w (fun s =>
    let busy := s.qps.any (fun q => q.2.mode == .ert && (q.2.st == .active || q.2.st == .held || q.2.st == .draining))
    let v := BitVec.ofNat 16 (mergeReg w (s.ertPort.setWidth 64)).toNat
    if busy then count 523 7 s else if v = 4791 then s else { s with ertPort := v }) s)

/-- The sum of the eight fields of NET_TRK_RSV. -/
def rsvSum (v : Word) : Nat := ((List.range 8).map (fun i => fld v (8 * i + 7) (8 * i))).foldl (· + ·) 0

/-- NET_TRK_RSV (R200): fields that sum to more than 128 are ignored as a whole. -/
def execNetTrkRsv (w : RegWrite) (s : State) : Host.Outcome State Fault Refusal :=
  done (mgrReg (.netTrkRsv w) w (fun s =>
    let v := mergeReg w s.trkRsv
    if 128 < rsvSum v then count 523 0 s else { s with trkRsv := v }) s)

/-- NET_PFC_CFG as a register. -/
def pfcReg (s : State) : Word :=
  BitVec.ofNat 64 (s.pfcEn.toNat + s.pfcPrio * 2 ^ 12 + s.xoff * 2 ^ 16 + s.xon * 2 ^ 32)

/-- NET_PFC_CFG (R206): XOFF 0 is reserved; a write that makes XON reach XOFF leaves both. -/
def execNetPfcCfg (w : RegWrite) (s : State) : Host.Outcome State Fault Refusal :=
  done (mgrReg (.netPfcCfg w) w (fun s =>
    let v := mergeReg w (pfcReg s)
    let off := keepField (fld v 25 16 ≠ 0) (fld v 25 16) s.xoff
    let on := fld v 41 32
    let s := pfcClear { s with pfcEn := BitVec.ofNat 12 (fld v 11 0), pfcPrio := fld v 14 12 }
    if off ≤ on then count 523 5 s else { s with xoff := off, xon := on }) s)

/-- NET_TENSION_CFG (R189): reserved values of BDP_TIME, TARGET_DELAY and CWND_INIT leave their field. -/
def tensionNext (old v : BitVec 22) : BitVec 22 :=
  let bdp := keepField (fld v 9 4 ≠ 0) (fld v 9 4) (fld old 9 4)
  let target := keepField (fld v 17 10 ≠ 0) (fld v 17 10) (fld old 17 10)
  let cwnd := keepField (3 ≤ fld v 21 18 ∧ fld v 21 18 ≤ 12) (fld v 21 18) (fld old 21 18)
  BitVec.ofNat 22 (fld v 3 0 + bdp * 2 ^ 4 + target * 2 ^ 10 + cwnd * 2 ^ 18)

/-- DL_ROUTE (R335): ignored while a context is ACTIVE. -/
def execDlRoute (w : RegWrite) (s : State) : Host.Outcome State Fault Refusal :=
  done (mgrReg (.dlRoute w) w (fun s =>
    if s.ctxs.any (fun c => c.2.st == .active) then count 526 1536 s else { s with dlRoute := mergeReg w s.dlRoute }) s)

/-! ### Host port (R297, R300, R301, R314) -/

/-- HP_LINK_CFG_n (R297): MAX_RATE 7 is reserved. -/
def linkCfgNext (old v : BitVec 4) : BitVec 4 :=
  BitVec.ofNat 4 (fld v 0 0 + keepField (fld v 3 1 ≠ 7) (fld v 3 1) (fld old 3 1) * 2)

/-- A write to the MSI-X table of the link it arrives on (R314): a vector that is unmasked sends its pending message. -/
def msixWrite (v off : Nat) (w : RegWrite) (s : State) : State :=
  let put (f : MsixEntry → MsixEntry) (s : State) : State := s.updLink w.link (fun l => { l with msix := Tab.upd l.msix v {} f })
  let s := put (fun e =>
    if off % 16 < 8 then { e with addr := mergeReg w e.addr }
    else
      let x := mergeReg w (BitVec.ofNat 64 (e.data.toNat + e.ctrl.toNat * 2 ^ 32))
      { e with data := BitVec.ofNat 32 (fld x 31 0), ctrl := BitVec.ofNat 32 (fld x 32 32) }) s
  releaseMsix w.link s

/-! ### The regions (R298, R299, R467) -/

/-- A register whose bits are all read-only: a write reaches it and changes nothing. -/
def roReg (s : State) : State := s

/-- A write to the manager page region that its own row does not name. -/
def mgrRegion (off : Nat) (w : RegWrite) (s : State) : State :=
  let reg (f : State → State) : State := mgrReg (.registerWrite off w) w f s
  if off = 0x2008 then reg (fun s => { s with tcWeight := mergeReg w s.tcWeight })
  else if off = 0x2010 then reg (fun s => { s with tcDscp := BitVec.ofNat 48 (mergeReg w (s.tcDscp.setWidth 64)).toNat })
  else if off = 0x2018 then reg (fun s => { s with tension := tensionNext s.tension (BitVec.ofNat 22 (mergeReg w (s.tension.setWidth 64)).toNat) })
  else if off = 0x1010 then reg (fun s => s.updXlt (fun x => { x with overflow := x.overflow && !(freshReg w).getLsbD 24 }))
  else if 0x2400 ≤ off ∧ off < 0x2400 + 8 * 96 then reg (nextHopWrite ((off - 0x2400) / 8) w)
  else if 0x3000 ≤ off ∧ off < 0x3020 then
    reg (fun s => s.updLink ((off - 0x3000) / 8) (fun l => { l with cfg := linkCfgNext l.cfg (BitVec.ofNat 4 (mergeReg w (l.cfg.setWidth 64)).toNat) }))
  else if off = 0x3080 then reg (fun s => { s with bar2Slide := fld (mergeReg w (BitVec.ofNat 64 s.bar2Slide)) 10 0 })
  else if 0x3200 ≤ off ∧ off < 0x3400 then
    let k := (off - 0x3200) / 8
    reg (fun s => { s with ridFilter := Tab.put s.ridFilter k (BitVec.ofNat 38 (mergeReg w ((Tab.getD s.ridFilter k 0).setWidth 64)).toNat) })
  else if off = 0 ∨ (0x3040 ≤ off ∧ off < 0x3060) then reg roReg
  else dropWrite s

/-- A write to the fault collector region (R391, R392, R411) that its own row does not name. -/
def fcRegion (o : Nat) (w : RegWrite) (s : State) : State :=
  let c := s.fc
  if o = 8 then
    fcReg w (fun s =>
      let v := mergeReg w (BitVec.ofNat 64 (b2n c.ftErrn + c.fenceLimit * 2 + b2n c.traceFreeze * 32))
      s.updFc (fun c => { c with ftErrn := v.getLsbD 0, fenceLimit := fld v 4 1, traceFreeze := v.getLsbD 5 })) s
  else if o = 0x18 then fcReg w (fun s => s.updFc (fun c => { c with traceSel := fld (mergeReg w (BitVec.ofNat 64 c.traceSel)) 18 0 })) s
  else if 0x100 ≤ o ∧ o < 0x100 + 8 * 60 then
    let n := (o - 0x100) / 8
    fcReg w (fun s => s.updFc (fun c => { c with react := Tab.put c.react n (BitVec.ofNat 13 (mergeReg w ((react s n).setWidth 64)).toNat) })) s
  else if o = 0x10 ∨ (0x300 ≤ o ∧ o < 0x300 + 8 * 60) ∨ (0x1000 ≤ o ∧ o < 0x2000) then fcReg w roReg s
  else dropWrite s

/-- SC_SCRUB_CFG (R424): RATE 6 to 16. -/
def scrubCfg (w : RegWrite) (s : State) : State :=
  let v := mergeReg w (BitVec.ofNat 64 (s.sc.rate + b2n s.sc.scrubOn * 32))
  updSc (fun c => { c with rate := keepField (6 ≤ fld v 4 0 ∧ fld v 4 0 ≤ 16) (fld v 4 0) c.rate, scrubOn := v.getLsbD 5 }) s

/-- A write to the State Cache region that its own row does not name: an operation 0 starts nothing (R424). -/
def scRegion (o : Nat) (w : RegWrite) (s : State) : State :=
  if o = 0 then scReg w (fun s => if s.sc.busy then count 527 3 s else s) s
  else if o = 0x20 then scReg w (scrubCfg w) s
  else if o = 0x10 ∨ o = 0x18 ∨ (0x30 ≤ o ∧ o < 0x50) then scReg w roReg s
  else dropWrite s

/-- A write into a request page (R368, R370, R470): during a warm re-init it takes effect too. -/
def pageWrite (n i : Nat) (w : RegWrite) (s : State) : State :=
  if s.fc.dstate == .halted || !mbLive s n || w.link != mbLink s n || !w.aligned then dropWrite s
  else s.updMbox n (fun m => { m with page := Tab.upd m.page i 0 (mergeReg w) })

/-- A write into a mailbox's 16 KiB, but for MB_DB. -/
def mboxRegion (n o : Nat) (w : RegWrite) (s : State) : State :=
  if o < 0x1000 then pageWrite n (o / 8) w s
  else if o < 0x2000 ∨ o = 0x2008 then
    (if s.fc.dstate == .halted || !mbLive s n || w.link != mbLink s n || !w.aligned then dropWrite s else s)
  else dropWrite s

/-- The doorbell write that a register write makes. -/
def regDb (w : RegWrite) (sl : Nat) : DbWrite :=
  { link := w.link, slice := sl, aligned8 := w.aligned && w.size == 8, value := w.value }

/-- A write into a slice's doorbell page. -/
def doorbellPage (sl o : Nat) (w : RegWrite) (s : State) : Host.Outcome State Fault Refusal :=
  if o = 0 then execSsuSqDb (regDb w sl) s
  else if o = 8 then execSsuCqDb (regDb w sl) s
  else if o = 0x10 then done (dbGate w.link sl s (fun _ s => if (regDb w sl).aligned8 then s else dbDrop sl s))
  else if o = 0x18 then execSsuCqNoticeAck (regDb w sl) s
  else if 0x800 ≤ o then execSsuPush { link := w.link, slice := sl, aligned64 := false, words := [w.value] } s
  else done (dropWrite s)

/-- REGISTER_WRITE (R299, R467, R470): a write to the BAR 0 register at an offset; a register with a row of its own has
that row's effect. -/
def execRegisterWrite (off : Nat) (w : RegWrite) (s : State) : Host.Outcome State Fault Refusal :=
  let off := off / 8 * 8
  let fc := off - 0xC00000
  let sc := off - 0xD00000
  if off < 0x100000 then
    if off = 0x1000 then execXltFringCfg w s
    else if off = 0x1008 then execXltFringDb w s
    else if off = 0x1018 then execFaultResolveFail w s
    else if off = 0x2000 then execNetErtUdpPort w s
    else if off = 0x2020 then execNetTrkRsv w s
    else if off = 0x2028 then execNetPfcCfg w s
    else if 0x2100 ≤ off ∧ off < 0x2160 then execNetPortCfg ((off - 0x2100) / 8) w s
    else if off = 0x4000 then execDlRoute w s
    else done (mgrRegion off w s)
  else if off < 0x300000 then doorbellPage ((off - 0x100000) / 4096) ((off - 0x100000) % 4096) w s
  else if off < 0xB04000 then
    let n := (off - 0x300000) / 0x4000
    let o := (off - 0x300000) % 0x4000
    if o = 0x2000 then execMbDb (if n = 512 then .manager else .slice n) w.link (w.aligned && w.size == 8) w.value s
    else done (mboxRegion n o w s)
  else if 0xC00000 ≤ off ∧ off < 0xC10000 then (if fc = 0 then execFcStatus w s else done (fcRegion fc w s))
  else if 0xD00000 ≤ off ∧ off < 0xD10000 then
    if sc = 8 then execScMaintAddr w s
    else if sc = 0 ∧ fld (freshReg w) 1 0 ≠ 0 then scStart (fld (freshReg w) 1 0) w s
    else done (scRegion sc w s)
  else if 0xE00000 ≤ off ∧ off < 0xE08000 then
    let v := (off - 0xE00000) / 16
    done (if v < msixVectors s w.link then heldReg (.registerWrite off w) true w (msixWrite v off w) s else dropWrite s)
  else if 0xE10000 ≤ off ∧ off < 0xE10100 then done (if !w.aligned || s.fc.dstate == .halted then dropWrite s else s)
  else done (dropWrite s)

end Sys2Proof.Machine
end

