-- ==== Sys2Proof/Machine/Security.lean ====
section
/-! DEFINITION. Foundation (16 R426-R446): sealed bundle loads, attestation, debug unlock, fuse re-reads and restarts. -/

namespace Sys2Proof.Machine

/-! ### Bundles (R430, R437, R438) -/

/-- The number that bytes hold at an offset, least significant first. -/
def leAt (b : List Byte) (off n : Nat) : Nat := ofLe (slice b off n)

/-- BUNDLE_ID, NDEV and PLAIN_LEN of a WEIGHTS header. -/
def bundleId (b : List Byte) : Word := BitVec.ofNat 64 (leAt b 16 8)
def bundleDevs (b : List Byte) : Nat := leAt b 24 8
def bundlePlain (b : List Byte) : Nat := leAt b 32 8

/-- Segments of a bundle. -/
def bundleSegs (plain : Nat) : Nat := ceilDiv plain 1048576

/-- Whether header and device entries break R430 or R437, or LENGTH differs from the argument (R439, reason 1). -/
def badBundle (b : List Byte) (len : Nat) : Bool :=
  let n := bundleDevs b
  let p := bundlePlain b
  b.length < 256 || leAt b 0 4 != 0x53544E4F || leAt b 4 1 != 2 || leAt b 5 1 != 2 || leAt b 6 2 / 4 != 0 ||
    leAt b 40 8 != 0 || leAt b 144 112 != 0 || n == 0 || decide (256 < n) || p == 0 || decide (2 ^ 41 < p) ||
    leAt b 8 8 != 256 + 64 * n + p + 16 * bundleSegs p || leAt b 8 8 != len || decide (b.length < 256 + 64 * n) ||
    (List.range n).any (fun i => leAt b (256 + 64 * i + 56) 8 != 0)

/-- The entry of this device, where there is one (R428, R439). -/
def ownEntry (b : List Byte) : Option (List Byte) :=
  ((List.range (bundleDevs b)).map (fun i => slice b (256 + 64 * i) 64)).find? (fun e => leAt e 0 16 == Config.deviceFpr.toNat)

/-- The bundle key of a header and this device's entry. -/
def bundleKey (head entry : List Byte) : Option (BitVec 256) := Config.unwrapKey (slice head 48 96) (bundleId head) (slice entry 16 40)

/-! ### The destination (R439, R441) -/

/-- The contiguous device ranges of a destination, in order, or why there are none: a walk to wait for, or a page that does
not translate to HBM. -/
inductive DestGot where
  | ok (rs : List (Nat × Nat))
  | wait
  | bad
  deriving DecidableEq, Repr

/-- Add a range to the runs, joined to the last where they touch. -/
def addRun (rs : List (Nat × Nat)) (a n : Nat) : List (Nat × Nat) :=
  match rs.getLast? with
  | some (b, m) => if b + m = a then rs.dropLast ++ [(b, m + n)] else rs ++ [(a, n)]
  | none => [(a, n)]

/-- Translate a destination to its runs. -/
def destRuns (mb ctx : Nat) : Nat → Nat → Nat → List (Nat × Nat) → State → DestGot × State
  | 0, _, _, _, s => (.bad, s)
  | fuel + 1, cva, left, rs, s =>
    if left = 0 then (.ok rs, s)
    else
      match translateOr (.command mb) (.direct ctx) { ctx := ctx, cva := cva, len := left, kind := .write } s with
      | (.ok e, s) =>
        let n := min left e.len
        if e.target != .hbm || n = 0 then (.bad, s) else destRuns mb ctx fuel (cva + n) (left - n) (addRun rs e.base n) s
      | (.wait, s) => (.wait, s)
      | (.fail _, s) => (.bad, s)

/-! ### sec.bundle_load (R439-R441) -/

/-- Entries of the sealed-range table that are free. -/
def sealFree (s : State) : Nat := 256 - s.fnd.sealTab.length

/-- PROTECTION with a reason (R439). -/
def refuseLoad (reason : Nat) (s : State) : CmdRes × State := (.err msProtection reason, s)

/-- The load that a command commits: a use of the destination, its sealed runs, and its place in the order. -/
def commitLoad (c : Caller) (a : List Word) (head entry : List Byte) (rs : List (Nat × Nat)) (sig : Option MarkRef) (s : State) : State :=
  let dst := dLo (arg a 3)
  let n := s.fnd.nextLoad
  let sealed := (leAt head 6 1).testBit 1
  let l : Load :=
    { slice := c.sl, ctx := (s.moOf dst).ctx, mo := dst, dst := argN a 4, dpas := rs, plainLen := bundlePlain head, bundleId := bundleId head
      header := slice head 0 256 ++ entry, sealRuns := sealed, done := sig.map (fun r => (r, arg a 6)), seq := (s.mbox c.mb).lastSeq.toNat }
  let s := count 529 0 (updFnd (fun f => { f with
    loads := Tab.put f.loads n l, nextLoad := n + 1
    sealTab := if sealed then f.sealTab ++ rs.map (fun r => { base := r.1, len := r.2, mo := dst, load := n }) else f.sealTab }) s)
  loadPump (useMo dst s)

/-- The checks from reason 4 on, and the commit. -/
def loadDest (c : Caller) (a : List Word) (head entry : List Byte) (sig : Option MarkRef) (s : State) : CmdRes × State :=
  let dst := dLo (arg a 3)
  let m := s.moOf dst
  let plain := bundlePlain head
  if !inside (argN a 4) plain m.base m.len || !m.rights.getLsbD 1 then refuseLoad 4 s
  else
    match destRuns c.mb m.ctx 131072 (argN a 4) plain [] s with
    | (.wait, s) => (.wait, s)
    | (.bad, s) => refuseLoad 4 s
    | (.ok rs, s) =>
      if rs.any (fun r => isSealed s r.1 r.2) then refuseLoad 5 s
      else if (leAt head 6 1).testBit 1 && decide (sealFree s < rs.length) then refuseLoad 6 s
      else if 64 ≤ Tab.countWhere s.fnd.loads (fun _ l => l.slice == c.sl) || 1024 ≤ s.fnd.loads.length then refuseLoad 7 s
      else if s.fnd.debug = 2 then refuseLoad 8 s
      else okRes (commitLoad c a head entry rs sig s)

/-- sec.bundle_load: handles first, then the decrypt units, then the reasons of R439 in their order. A bundle that cannot be
read through BUNDLE_MO is BAD_BUNDLE. -/
def cmdSecBundleLoad (head : Option (List Byte)) : Cmd :=
  { opcode := 0x0C01, len := fun _ => 7
    body := fun c a s =>
      let src := dLo (arg a 0)
      let mine (h : BitVec 32) : Bool := moValid s h && c.owns (s.ctx (s.moOf h).ctx).slice
      let sm := s.moOf src
      let readable := sm.rights.getLsbD 0 && inside (argN a 1) (argN a 2) sm.base sm.len
      if !mine src then bad msStale 0 s
      else if !mine (dLo (arg a 3)) then bad msStale 3 s
      else
        match cmdMark c (arg a 5) s with
        | (.stale, s) => bad msStale 5 s
        | (.wait, s) => (.wait, s)
        | (.bad, s) => bad msProtection 5 s
        | (m, s) =>
          let sig : Option MarkRef := match m with | .ok r => some r | _ => none
          if !decryptOk s 0 && !decryptOk s 1 then (.err msState 1, s)
          else
            match head with
            | none => refuseLoad 1 s
            | some b =>
              if !readable || badBundle b (argN a 2) then refuseLoad 1 s
              else
                match ownEntry b with
                | none => refuseLoad 2 s
                | some e => if (bundleKey b e).isNone then refuseLoad 3 s else loadDest c a b e sig s }

/-- SEC_BUNDLE_LOAD (R439). -/
def execSecBundleLoad (mb : Mbox) (head : Option (List Byte)) (s : State) : Host.Outcome State Fault Refusal := runCmd mb (cmdSecBundleLoad head) s

/-! ### The end of a load (R438, R440, R443) -/

/-- IV and AAD of segment `i` (R438). -/
def segIv (id : Word) (i : Nat) : List Byte := leBytes 8 id.toNat ++ leBytes 4 i
def segAad (id : Word) (i : Nat) (last : Bool) : List Byte := leBytes 8 id.toNat ++ leBytes 4 i ++ leBytes 1 (b2n last) ++ zeros 3

/-- Whether the segments of a bundle are as many and as long as its PLAIN_LEN says, and every tag matches. -/
def segsGood (key : BitVec 256) (id : Word) (plain : Nat) (segs : List (List Byte × BitVec 128)) : Bool :=
  let n := bundleSegs plain
  segs.length == n && segs.zipIdx.all (fun e =>
    let i := e.2
    e.1.1.length == min 1048576 (plain - 1048576 * i) &&
      (Config.gcmOpen key (segIv id i) (segAad id i (i + 1 == n)) e.1.1 e.1.2).isSome)

/-- Measurement block 8 after a load (R436). -/
def bundleChain (h : List Byte) (l : Load) : List Byte :=
  leBytes 48 (Config.sha384 (h ++ leBytes 8 l.bundleId.toNat ++ leBytes 48 (Config.sha384 (slice l.header 0 256)).toNat)).toNat

/-- Whether a load's segments, as they were read, open under this device's bundle key (R438, R440). -/
def loadGood (l : Load) (segs : Option (List (List Byte × BitVec 128))) : Bool :=
  match segs, bundleKey l.header (slice l.header 256 64) with
  | some g, some k => segsGood k l.bundleId l.plainLen g
  | _, _ => false

/-- BUNDLE_LOAD_DONE (R443): the unit's last write is answered, or its work failed. -/
def execBundleLoadDone (load : Nat) (segs : Option (List (List Byte × BitVec 128))) (written : Bool) (s : State) :
    Host.Outcome State Fault Refusal :=
  done (whenRunning (fun s =>
    match Tab.get s.fnd.loads load with
    | none => s
    | some l =>
      if l.running.isNone || l.doomed then s
      else
        if !loadGood l segs || !written then loadFail load s
        else
          let s := updFnd (fun f => { f with meas := Tab.put f.meas 8 (bundleChain (Tab.getD f.meas 8 (zeros 48)) l) }) s
          let s := match l.done with | some (r, v) => (applySignal r v s).2 | none => s
          loadGone load l s) s)

/-! ### SPDM (R435, R436) -/

/-- The transport's place in the negotiation table. -/
def mctpNum : Mctp → Nat | .vdm => 0 | .i3c => 1

/-- How far a transport has negotiated. -/
def spdmAt (s : State) (t : Mctp) : Spdm := Tab.getD s.fnd.spdm (mctpNum t) .none

/-- Note how far a transport has negotiated. -/
def spdmSet (t : Mctp) (x : Spdm) (s : State) : State := updFnd (fun f => { f with spdm := Tab.put f.spdm (mctpNum t) x }) s

/-- The standard's codes of the requests, of ERROR, and of the debug messages' answers (log 42). -/
def spVersion : Nat := 0x84
def spCapabilities : Nat := 0xE1
def spAlgorithms : Nat := 0xE3
def spDigests : Nat := 0x81
def spCertificate : Nat := 0x82
def spChallenge : Nat := 0x83
def spMeasurements : Nat := 0xE0
def spError : Nat := 0x7F
def spNonce : Nat := 0x100
def spUnlock : Nat := 0x101

/-- Answer a request: the response's code is the request's with its top bit clear, and its body is as the standard gives it, with
what this spec adds. -/
def spdmReply (t : Mctp) (code : Nat) (more : List Byte) (s : State) : State :=
  emit (.mctp t (code % 128) (Config.spdmBody code more ++ more)) s

/-- Answer ERROR. -/
def spdmError (t : Mctp) (s : State) : State := emit (.mctp t spError []) s

/-- A request that needs the negotiation before it, from a Foundation that is ready. -/
def spdmNeeds (t : Mctp) (ok : Bool) (f : State → State) (s : State) : Host.Outcome State Fault Refusal :=
  done (if !s.fnd.ready then s else if ok then f s else spdmError t s)

/-- GET_VERSION: the negotiation of its transport begins again. -/
def execGetVersion (t : Mctp) (s : State) : Host.Outcome State Fault Refusal :=
  spdmNeeds t true (fun s => spdmReply t spVersion [0x12, 0x13] (spdmSet t .version s)) s

/-- GET_CAPABILITIES. -/
def execGetCapabilities (t : Mctp) (s : State) : Host.Outcome State Fault Refusal :=
  spdmNeeds t (spdmAt s t == .version) (fun s => spdmReply t spCapabilities [] (spdmSet t .capabilities s)) s

/-- NEGOTIATE_ALGORITHMS: ECDSA P-384 with SHA-384 only. -/
def execNegotiateAlgorithms (t : Mctp) (p384Sha384 : Bool) (s : State) : Host.Outcome State Fault Refusal :=
  spdmNeeds t (spdmAt s t == .capabilities && p384Sha384) (fun s => spdmReply t spAlgorithms [] (spdmSet t .negotiated s)) s

/-- GET_DIGESTS: the chain of slot 0. -/
def execGetDigests (t : Mctp) (s : State) : Host.Outcome State Fault Refusal :=
  spdmNeeds t (spdmAt s t == .negotiated) (spdmReply t spDigests (leBytes 48 (Config.sha384 Config.certChain).toNat)) s

/-- GET_CERTIFICATE: bytes of the chain of slot 0. -/
def execGetCertificate (t : Mctp) (slot offset len : Nat) (s : State) : Host.Outcome State Fault Refusal :=
  spdmNeeds t (spdmAt s t == .negotiated && slot == 0 && decide (offset < Config.certChain.length))
    (spdmReply t spCertificate ((Config.certChain.drop offset).take len)) s

/-- CHALLENGE: signed by the identity key. -/
def execChallenge (t : Mctp) (slot : Nat) (nonce : BitVec 256) (s : State) : Host.Outcome State Fault Refusal :=
  let body := leBytes 48 (Config.sha384 Config.certChain).toNat ++ leBytes 32 nonce.toNat
  spdmNeeds t (spdmAt s t == .negotiated && slot == 0) (spdmReply t spChallenge (body ++ Config.identitySign body)) s

/-- A measurement block as it is reported: its number, its length and its value. -/
def measBlock (s : State) (k : Nat) : List Byte :=
  match Tab.get s.fnd.meas k with
  | some v => [BitVec.ofNat 8 k, BitVec.ofNat 8 v.length] ++ v
  | none => []

/-- GET_MEASUREMENTS (R436): index 0 asks for the number of blocks, 0xFF for all of them. -/
def execGetMeasurements (t : Mctp) (index : Nat) (signed : Bool) (nonce : BitVec 256) (s : State) : Host.Outcome State Fault Refusal :=
  let body := if index = 0 then [8] else if index = 0xFF then ((List.range 8).map (fun k => measBlock s (k + 1))).flatten else measBlock s index
  let sig := if signed then Config.identitySign (body ++ leBytes 32 nonce.toNat) else []
  spdmNeeds t (spdmAt s t == .negotiated && (decide (index ≤ 8) || index == 0xFF)) (spdmReply t spMeasurements (body ++ sig)) s

/-! ### Debug unlock (R445, R446) -/

/-- DBG_NONCE: a fresh single-use nonce. -/
def execDbgNonce (t : Mctp) (s : State) : Host.Outcome State Fault Refusal :=
  done (
    if !s.fnd.ready then s
    else
      let d := drawFree s
      let n := Config.random d.1
      emit (.mctp t spNonce (leBytes 32 n.toNat)) (updFnd (fun f => { f with nonce := some n }) d.2))

/-- Before CONTROL takes effect (R446): every load in flight fails, and zeros go over every sealed range. -/
def controlPrepare (s : State) : State :=
  let s := failLoads (fun _ => true) s
  let s := s.fnd.sealTab.foldl (fun s r => writeZeros (s.moOf r.mo).ctx [(r.base, r.len)] .marker s) s
  updFnd (fun f => { f with sealTab := [] }) s

/-- The level of an unlock takes effect; block 7 holds the highest level since cold reset. -/
def debugRaise (level : Nat) (s : State) : State :=
  let s := if level = 2 && s.fnd.debug < 2 then controlPrepare s else s
  let s := updFnd (fun f => { f with debug := max f.debug level, meas := Tab.put f.meas 7 [BitVec.ofNat 8 (max f.debug level)] }) s
  ceReport 59 0x1E 0 none s

/-- DBG_UNLOCK (R445): a signature over DEVICE_FPR, the nonce and LEVEL by the debug key; the nonce is spent. -/
def execDbgUnlock (t : Mctp) (level : BitVec 8) (pubkey sig : List Byte) (expired : Bool) (s : State) :
    Host.Outcome State Fault Refusal :=
  done (
    if !s.fnd.ready then s
    else
      let ok := match s.fnd.nonce with
        | none => false
        | some n =>
          !expired && (level == 1 || level == 2) && s.sec.debugHash != 0 && Config.sha384 pubkey == s.sec.debugHash &&
            Config.ecdsaOk pubkey (leBytes 16 Config.deviceFpr.toNat ++ leBytes 32 n.toNat ++ [level]) sig
      let s := updFnd (fun f => { f with nonce := none }) s
      emit (.mctp t spUnlock [BitVec.ofNat 8 (b2n ok)]) (if ok then debugRaise level.toNat s else s))

/-! ### Fuses and restarts (R427, R434) -/

/-- FUSE_RECHECK (R427): the hourly check; a failed one is FUSE_CHECK. -/
def execFuseRecheck (good : Bool) (s : State) : Host.Outcome State Fault Refusal :=
  done (
    if !s.fnd.ready || good || s.fc.dstate == .halted then s
    else
      let x := ownEv 56 3 0x1B 0 none s
      ftReport none x.1 x.2)

/-- FOUNDATION_RESTART (R434): measurements, key slots and what was accepted stay; negotiations and the nonce do not. -/
def execFoundationRestart (s : State) : Host.Outcome State Fault Refusal :=
  done (
    if !s.fnd.ready || s.fc.dstate == .halted then s
    else ucReport 51 0x12 0 none (updFnd (fun f => { f with spdm := [], nonce := none }) s))

end Sys2Proof.Machine
end

