-- ==== Sys2Proof/Machine/CastOn.lean ====
section
/-! DEFINITION. Supply and cast-on (17 R449-R460): cold reset, rails, the reference clock, Foundation's wait for an image and
the three routes that deliver one, its verification (16 R429-R432), and the steps to READY. -/

namespace Sys2Proof.Machine

/-- Change the cast-on state. -/
def updCo (f : CastOn → CastOn) (s : State) : State := { s with castOn := f s.castOn }

/-! ### The staging buffer (R457, R458): addressed bytes, of which an unlisted one is 0 -/

/-- The size of the image region. -/
def stageSize : Nat := 0x03000000

/-- One byte of the buffer. -/
def stageGet : List Host.Cell → Nat → Byte
  | [], _ => 0
  | (k, b) :: t, a => if a = k then b else stageGet t a

/-- Write one byte, in the canonical form: addresses strictly rising, and no byte 0 listed. -/
def stagePut : List Host.Cell → Nat → Byte → List Host.Cell
  | [], a, b => if b = 0 then [] else [(a, b)]
  | (k, x) :: t, a, b =>
    if a < k then (if b = 0 then (k, x) :: t else (a, b) :: (k, x) :: t)
    else if a = k then (if b = 0 then t else (k, b) :: t)
    else (k, x) :: stagePut t a b

/-- The canonical form of the buffer, above an address. -/
def stageWf : Option Nat → List Host.Cell → Bool
  | _, [] => true
  | lo, (k, b) :: t => (match lo with | none => true | some x => decide (x < k)) && b != 0 && stageWf (some k) t

/-- Write bytes from an address on. -/
def stageWrite (m : List Host.Cell) (a : Nat) : List Byte → List Host.Cell
  | [] => m
  | b :: t => stageWrite (stagePut m a b) (a + 1) t

/-- Read bytes from an address on. -/
def stageRead (m : List Host.Cell) (a n : Nat) : List Byte := (List.range n).map (fun i => stageGet m (a + i))

/-! ### Supply and clocks (R449-R456, R17) -/

/-- Every domain at its reset, with the fuses, and what is the model's own: the queue, what was sent, and the free values
drawn. PERST_N is a pin, so its level stays. -/
def coldState (on : Bool) (s : State) : State :=
  { pending := s.pending, sent := s.sent, freeCtr := s.freeCtr, castOnFuse := s.castOnFuse, sec := s.sec
    castOn := { powered := on, perst := s.castOn.perst } }

/-- COLD_RESET (R451, R454): VIN rises through 1.69 V. -/
def execColdReset (s : State) : Host.Outcome State Fault Refusal := done (coldState true s)

/-- VIN_LOSS (R451): VIN falls below 1.66 V; nothing survives, and the domains are held in reset. -/
def execVinLoss (s : State) : Host.Outcome State Fault Refusal := done (coldState false s)

/-- RAILS_IN_TOLERANCE (R450, R453): a group of rails follows the one before it; with the first, FLEET is sampled. -/
def execRailsInTolerance (group : Nat) (fleetBall : Bool) (s : State) : Host.Outcome State Fault Refusal :=
  done (
    if !s.castOn.powered || group ≠ s.castOn.rails + 1 || 5 < group then s
    else
      let s := updCo (fun c => { c with rails := group }) s
      if group = 1 then { s with fleet := s.castOnFuse.getLsbD 0 || fleetBall } else s)

/-- REFCLK_MEASURED (R17): spread spectrum keeps every fabric port down until the next cold reset. -/
def execRefclkMeasured (spreadSpectrum : Bool) (s : State) : Host.Outcome State Fault Refusal :=
  done (
    if s.castOn.rails ≠ 5 || s.castOn.measured then s
    else
      let s := updCo (fun c => { c with measured := true, ssc := spreadSpectrum }) s
      if spreadSpectrum then ucReport 53 0x15 0 none (allPortsDown s) else s)

/-! ### Foundation (R429, R436) -/

/-- The bytes of a digest, and of a fuse field that holds one. -/
def digestBytes (d : BitVec 384) : List Byte := leBytes 48 d.toNat

/-- The security fuse bank but for ID_KEY, the cast-on fuses, and what else measurement block 2 covers (R436). -/
def fuseImage (s : State) : List Byte :=
  digestBytes s.sec.rootHash0 ++ digestBytes s.sec.rootHash1 ++ leBytes 1 (b2n s.sec.revoke0 + 2 * b2n s.sec.revoke1) ++
    digestBytes s.sec.integratorHash ++ digestBytes s.sec.debugHash ++ leBytes 8 (2 ^ s.sec.minSvn - 1) ++
    leBytes 8 s.castOnFuse.toNat ++ Config.fuseBytes

/-- FOUNDATION_READY (R429): the fuses, then the ROM, then the random source; where all pass, Foundation waits for an image.
A random source that fails leaves it not ready (log 41). -/
def execFoundationReady (fusesOk romOk rngOk : Bool) (s : State) : Host.Outcome State Fault Refusal :=
  let event (source detail : Nat) (s : State) : State :=
    let x := ownEv source 3 detail 0 none s
    ftReport none x.1 x.2
  done (
    if s.castOn.rails ≠ 5 || s.fnd.ready || s.fc.dstate == .halted then s
    else if !fusesOk then event 56 0x1B s
    else if !romOk then event 51 0x13 s
    else if !rngOk then s
    else
      bootSync (updFnd (fun f => { f with
        ready := true
        meas := [(1, digestBytes Config.romDigest), (2, digestBytes (Config.sha384 (fuseImage s))),
          (6, [BitVec.ofNat 8 (b2n s.fleet), 0xB0]), (7, [0]), (8, zeros 48)] }) s))

/-! ### Claims (R457) -/

/-- Whether Foundation waits for an image: every route that the fuses leave enabled is open. -/
def imageWait (s : State) : Bool :=
  s.fnd.ready && s.fc.dstate != .halted && (s.castOn.st == .waiting || s.castOn.st == .rejected)

/-- Whether a route may deliver bytes now: its claim is held, or none is. -/
def routeOpen (s : State) (r : Route) : Bool := (imageWait s || claimedBy s r) && s.fc.dstate != .halted

/-- A route delivers bytes: it claims the buffer where nobody has. -/
def deliverBytes (r : Route) (off : Nat) (bs : List Byte) (s : State) : State :=
  let s := if imageWait s then bootSync (updCo (fun c => { c with st := .claimed, route := r, reason := 0, staging := [], total := none, held := 0 }) s)
    else s
  updCo (fun c => { c with staging := stageWrite c.staging off bs }) s

/-- The claim holder asks for the verification of `n` bytes. -/
def goVerify (r : Route) (n : Nat) (s : State) : State :=
  if s.castOn.st == .claimed && s.castOn.route == r then updCo (fun c => { c with st := .verifying, goLen := n }) s else s

/-- CO_STATUS (R458). -/
def coStatus (s : State) : Nat :=
  let c := s.castOn
  let st := match c.st with | .waiting => 0 | .claimed => 1 | .verifying => 2 | .accepted => 3 | .rejected => 4 | .ready => 5
  let r := match c.route with | .none => 0 | .bar4 => 1 | .i3c => 2 | .native => 3
  st + r * 8 + (if c.st == .rejected then c.reason else 0) * 256

/-- CLAIM_TIMEOUT (R457): 1 s without an image byte and without GO. -/
def execClaimTimeout (s : State) : Host.Outcome State Fault Refusal :=
  done (if s.castOn.st == .claimed then endClaim .waiting s else s)

/-! ### BAR 4 (R458) -/

/-- Count a BAR 4 write that is dropped. -/
def bar4Drop (s : State) : State := count 525 (256 * mgrLink s + 4) s

/-- BAR4_IMAGE_WRITE (R458). -/
def execBar4ImageWrite (offset : Nat) (data : List Byte) (s : State) : Host.Outcome State Fault Refusal :=
  done (
    if s.castOnFuse.getLsbD 13 || !routeOpen s .bar4 || stageSize < offset + data.length then bar4Drop s
    else deliverBytes .bar4 offset data s)

/-- GO (R458): CO_LEN, then CO_CTL.GO; ignored unless BAR 4 holds the claim. -/
def execGo (length : Nat) (s : State) : Host.Outcome State Fault Refusal :=
  done (goVerify .bar4 (length % 2 ^ 26) (updCo (fun c => { c with len := length % 2 ^ 26 }) s))

/-- ABORT (R458). -/
def execAbort (s : State) : Host.Outcome State Fault Refusal := done (if claimedBy s .bar4 then endClaim .waiting s else s)

/-! ### I3C (R459) -/

/-- Answer an image command: completion byte and what follows it. -/
def imgReply (code completion : Nat) (more : List Byte) (s : State) : State := emit (.mctp .i3c code (BitVec.ofNat 8 completion :: more)) s

/-- Whether the I3C route refuses: another route holds the claim, or the routes are closed. -/
def imgBusy (s : State) : Bool := s.castOnFuse.getLsbD 14 || !routeOpen s .i3c

/-- IMG_WRITE (R459): data that would pass the image region, and a message of another length than 1 to 240, is RANGE. -/
def execImgWrite (offset : Nat) (data : List Byte) (s : State) : Host.Outcome State Fault Refusal :=
  done (
    if imgBusy s then imgReply 0x10 1 [] s
    else if stageSize < offset + data.length || data.isEmpty || 240 < data.length then imgReply 0x10 2 [] s
    else imgReply 0x10 0 [] (deliverBytes .i3c offset data s))

/-- IMG_GO (R459). -/
def execImgGo (length : Nat) (s : State) : Host.Outcome State Fault Refusal :=
  done (if imgBusy s then imgReply 0x11 1 [] s else imgReply 0x11 0 [] (goVerify .i3c length s))

/-- IMG_STATUS (R459): CO_STATUS bits [15:0]. -/
def execImgStatus (s : State) : Host.Outcome State Fault Refusal := done (imgReply 0x12 0 (leBytes 2 (coStatus s)) s)

/-- IMG_ABORT (R459). -/
def execImgAbort (s : State) : Host.Outcome State Fault Refusal :=
  done (if imgBusy s then imgReply 0x13 1 [] s else imgReply 0x13 0 [] (if claimedBy s .i3c then endClaim .waiting s else s))

/-! ### Native boot (R460) -/

/-- Whether the boot port carries boot blocks now. -/
def bootUp (s : State) : Bool := s.castOn.bootPort && lportUp s (8 * (bootNum s - 1))

/-- Send a boot record in a BOOT block: its BOP, REASON and OFFSET, after the control word (R327). -/
def sendBoot (bop reason off : Nat) (s : State) : State :=
  dealBlock (8 * (bootNum s - 1)) 1 0 0xFFF
    (beBytes 8 (ctlWord 6 0 0 0 0 false).toNat ++ beBytes 8 (bop + reason % 16 * 2 ^ 8 + off % 2 ^ 32 * 2 ^ 16)) s

/-- BOOT_REQ_TIMER (R460): every 100 µs while the image is incomplete. -/
def execBootReqTimer (s : State) : Host.Outcome State Fault Refusal :=
  done (if bootUp s && s.castOn.st != .verifying then sendBoot 1 0 s.castOn.held s else s)

/-- BOOT_DATA (R460): the first block claims the buffer and fixes TOTAL; a gap in offsets draws a REQ at once. Bytes that are
held already are not taken again. -/
def execBootData (offset total : Nat) (data : List Byte) (s : State) : Host.Outcome State Fault Refusal :=
  let c := s.castOn
  let t := c.total.getD total
  done (
    if !bootUp s || !routeOpen s .native || c.st == .verifying || data.isEmpty || 2048 < data.length then s
    else if t ≠ total || stageSize < total || total < offset + data.length then countUnnamed s
    else if offset = c.held then
      let s := updCo (fun c => { c with total := some total, held := offset + data.length }) (deliverBytes .native offset data s)
      if s.castOn.held = total then goVerify .native total s else s
    else if c.held < offset then sendBoot 1 0 c.held s
    else s)

/-! ### Verification (R430-R432) -/

/-- Whether a key is one of Derholt's that is not revoked. -/
def derholtKey (f : SecFuses) (pub : List Byte) : Bool :=
  let h := Config.sha384 pub
  (h == f.rootHash0 && !f.revoke0) || (h == f.rootHash1 && !f.revoke1)

/-- The signature block at an offset: SIGNER, PUBKEY and SIG (R431). -/
def sigBlock (b : List Byte) (off : Nat) : Nat × List Byte × List Byte := (leAt b off 1, slice b (off + 16) 96, slice b (off + 112) 96)

/-- CODE_LEN and CONFIG_LEN of an image. -/
def codeLen (b : List Byte) : Nat := leAt b 32 8
def configLen (b : List Byte) : Nat := leAt b 40 8
/-- SVN of an image. -/
def imageSvn (b : List Byte) : Nat := leAt b 24 8

/-- Why an image delivered as `given` bytes is rejected (R430-R432, R458): 0 where it is accepted. -/
def imageReason (f : SecFuses) (given : Nat) (b : List Byte) : Nat :=
  let code := codeLen b
  let config := configLen b
  let len := leAt b 8 8
  let head := slice b 0 256
  let d := sigBlock b (256 + code + config)
  let i := sigBlock b (512 + code + config)
  let want := if f.integratorHash = 0 then 0 else 1
  if leAt b 0 4 ≠ 0x53544E4F || leAt b 4 1 ≠ 2 || leAt b 5 1 ≠ 1 then 1
  else if len ≠ code + config + 768 || code % 256 ≠ 0 || config % 256 ≠ 0 || 33554432 < code + config || len ≠ given then 1
  else if 63 < imageSvn b then 1
  else if imageSvn b < f.minSvn then 2
  else if d.1 ≠ 0 || !derholtKey f d.2.1 || !Config.ecdsaOk d.2.1 (head ++ slice b 256 code) d.2.2 then 3
  else if i.1 ≠ want || (want = 1 && Config.sha384 i.2.1 != f.integratorHash) || (want = 0 && !derholtKey f i.2.1) ||
      !Config.ecdsaOk i.2.1 (head ++ slice b (256 + code) config) i.2.2 then 4
  else 0

/-- An image is rejected: the claim ends, and native boot asks again from offset 0. -/
def rejectImage (reason : Nat) (s : State) : State :=
  let s := updCo (fun c => { c with reason := reason }) s
  let s := if s.castOn.route == .native then sendBoot 4 reason 0 s else s
  endClaim .rejected s

/-- An image is accepted (R432, R436): its measurements, and every route closes. -/
def acceptImage (b : List Byte) (s : State) : State :=
  let m (k : Nat) (v : List Byte) (t : Tab (List Byte)) : Tab (List Byte) := Tab.put t k v
  let s := updFnd (fun f => { f with
    accepted := true
    meas := m 5 [BitVec.ofNat 8 (imageSvn b), BitVec.ofNat 8 s.sec.minSvn]
      (m 4 (digestBytes (Config.sha384 (slice b (256 + codeLen b) (configLen b)))) (m 3 (digestBytes (Config.sha384 (slice b 256 (codeLen b)))) f.meas)) }) s
  let s := if s.castOn.route == .native then sendBoot 3 0 0 s else s
  bootSync (updCo (fun c => { c with st := .accepted }) s)

/-- IMAGE_VERIFIED (R432): RAISE_SVN programs MIN_SVN first; a raise that fails is FUSE_CHECK. -/
def execImageVerified (fuseOk : Bool) (s : State) : Host.Outcome State Fault Refusal :=
  let b := stageRead s.castOn.staging 0 s.castOn.goLen
  done (
    if s.castOn.st != .verifying || s.fc.dstate == .halted then s
    else
      match imageReason s.sec s.castOn.goLen b with
      | 0 =>
        if leAt b 6 1 % 2 = 1 && s.sec.minSvn < imageSvn b then
          if fuseOk then
            acceptImage b (emit (.fuse (imageSvn b)) { s with sec := { s.sec with minSvn := imageSvn b } })
          else
            let x := ownEv 56 3 0x1B 0 none (rejectImage 5 s)
            ftReport none x.1 x.2
        else acceptImage b s
      | r => rejectImage r s)

/-! ### The Hooks, and READY (R455) -/

/-- HOOKS_STARTED (R455, R468): the manager mailbox is active; BAR 2 has its reset size (R300). -/
def execHooksStarted (hbmGib : Nat) (s : State) : Host.Outcome State Fault Refusal :=
  done (
    if s.castOn.st != .accepted || s.hooksUp || s.fc.dstate == .halted then s
    else
      let s := updCo (fun c => { c with staging := [] }) { s with rumel := 0x0302, hbmGib := hbmGib, hooksUp := true }
      (presentLinks s).foldl (fun s l => s.updLink l (fun k => { k with bar2Log2 := bar2Cover hbmGib })) s)

/-- A unit fails its cast-on swatch: it is FENCED; the last of its kind is an FT event (R399, R455). -/
def castOnFence (s : State) (u : Nat × Nat) : State :=
  if lastOfKind s u.1 u.2 then
    let x := ownEv u.1 3 (if u.1 = 50 then 0x11 else 0x1F) u.2 none s
    ftReport none x.1 x.2
  else setUnit u.1 u.2 .fenced s

/-- CAST_ON_READY (R455): what CONFIG gives takes effect; units that failed their swatch are FENCED; CO_STATUS reads READY. -/
def execCastOnReady (route : Word) (stashGib envelopeW : Nat) (swatchFail : List (Nat × Nat)) (s : State) :
    Host.Outcome State Fault Refusal :=
  done (
    if s.castOn.st != .accepted || !s.hooksUp || s.fc.dstate == .halted then s
    else
      let s := { s with dlRoute := route, gov := { s.gov with envelope := envelopeW * 1000 } }
      let s := updSc (fun c => { c with stash := some stashGib }) s
      let s := swatchFail.foldl castOnFence s
      if s.fc.dstate == .halted then s else updCo (fun c => { c with st := .ready }) s)

end Sys2Proof.Machine
end

