-- ==== Sys2Proof/Machine/Fabric.lean ====
section
/-! DEFINITION. The commands of the fabric ports: native blocks and their replay (11 R328), training (R329), lanes and
width (R330-R332), and sub-ports that come up and go down (R331, R402). -/

namespace Sys2Proof.Machine

/-! ### Events (R332, R390) -/

/-- UNIT of a sub-port: its lowest lane. -/
def lowLane (s : State) (lp : Nat) : Nat := laneUnit s lp 0

/-- A lane fails: its sub-port narrows or goes down, and the collector is told. -/
def laneFails (lp lane : Nat) (s : State) : State :=
  if ((s.lport lp).lane lane).failed then s
  else
    let was := lportUp s lp
    let s := laneLost lp lane s
    let down := was && !lportUp s lp
    let s := ucReport (fabricSource lp) 0x06 (laneUnit s lp lane) none s
    if down then ucReport (fabricSource lp) 0x07 (lowLane s lp) none s else s

/-- A native sub-port that takes part in what R328 and R330 state. -/
def nativeUp (s : State) (lp : Nat) : Bool := lportUp s lp && portMode s (lpPort lp) == 0 && s.fc.dstate != .halted

/-- Blocks that were replayed 8 times fail every lane that carries them (R328): every active lane (log 28). -/
def blockLimit (lp : Nat) (s : State) : State :=
  if (s.lport lp).replay.any (fun b => decide (8 ≤ b.times)) then
    ((List.range 8).filter (fun i => (s.lport lp).mask.getLsbD i)).foldl (fun s i => laneFails lp i s) s
  else s

/-- Replay from a block, and report it. -/
def replayReport (lp : Nat) (from_ : BitVec 8) (s : State) : State :=
  if (s.lport lp).replay.any (fun b => b.seq == from_) then
    blockLimit lp (ceReport (fabricSource lp) 0x05 (lowLane s lp) none (replayFrom lp from_ s))
  else s

/-! ### Blocks (R328) -/

/-- Ask for a replay from the block expected next: no second time within 1 µs (625 ticks). -/
def sendBlockNak (lp : Nat) (s : State) : State :=
  let l := s.lport lp
  let again : Bool := match l.nakFor with | some (q, t) => q == l.rxSeq && decide (s.ticks < t + 625) | none => false
  if again then s
  else sendCtl lp (ctlWord 1 l.rxSeq.toNat 0 0 0 false) (s.updLport lp (fun l => { l with nakFor := some (l.rxSeq, s.ticks) }))

/-- NATIVE_DATA_BLOCK (R328): a block in order hands its frames on; a bad one, or a gap, draws a NAK; one that was
received before is only acknowledged. -/
def execNativeDataBlock (b : NativeBlk) (s : State) : Host.Outcome State Fault Refusal :=
  let lp := b.lport
  done (
    if !nativeUp s lp then s
    else if b.bad then sendBlockNak lp (count 524 (32 * lp + 7) s)
    else
      let s := match b.ack with | some a => ackBlocks lp a s | none => s
      let l := s.lport lp
      if b.seq == l.rxSeq then
        let s := s.updLport lp (fun l => { l with rxSeq := l.rxSeq + 1, nakFor := none, gotAny := true })
        sendIdle lp (countBy 524 (32 * lp + 1) b.frames.length s)
      else if (l.rxSeq - b.seq).toNat ≤ 64 then sendIdle lp s
      else sendBlockNak lp s)

/-- BLOCK_NAK (R328). -/
def execBlockNak (lport : Nat) (argSeq : BitVec 8) (s : State) : Host.Outcome State Fault Refusal :=
  done (if nativeUp s lport then replayReport lport argSeq s else s)

/-- BLOCK_ACK_TIMEOUT (R328): 2 µs without progress, with blocks held. -/
def execBlockAckTimeout (lport : Nat) (s : State) : Host.Outcome State Fault Refusal :=
  done (
    match (s.lport lport).replay with
    | [] => s
    | b :: _ => if nativeUp s lport then replayReport lport b.seq s else s)

/-- IDLE_BLOCK (R328): it acknowledges. -/
def execIdleBlock (lport : Nat) (ack : Option (BitVec 8)) (s : State) : Host.Outcome State Fault Refusal :=
  done (match ack with | some a => if nativeUp s lport then ackBlocks lport a s else s | none => s)

/-! ### Training (R329) -/

/-- TS_EQ (R329, R332): the peer's receiver and this side's, on one lane; the answer says whether this side's is
equalised. A sub-port aligns once every lane that trains is equalised on both sides. -/
def execTsEq (lport lane : Nat) (_eqReq _eqStatus : BitVec 8) (rxReady localReady : Bool) (s : State) : Host.Outcome State Fault Refusal :=
  done (
    if portMode s (lpPort lport) ≠ 0 || !lpMayRun s lport || lpWidth s lport ≤ lane then s
    else
      let l := s.lport lport
      match l.train with
      | .equalise =>
        let s := sendEq lport lane localReady (updLane lport lane (fun x => { x with localReady := localReady, peerReady := rxReady }) s)
        let l := s.lport lport
        let ls := (List.range (lpWidth s lport)).filter (fun i => !(l.lane i).failed)
        if !ls.isEmpty && ls.all (fun i => (l.lane i).localReady && (l.lane i).peerReady) then
          sendAlign lport (s.updLport lport (fun l => { l with train := .align }))
        else s
      | .up => if (l.lane lane).failed then sendEq lport lane localReady (updLane lport lane (fun x => { x with retraining := true }) s) else s
      | _ => s)

/-- TS_ALIGN (R329): the trained width, and the sub-port is up. -/
def execTsAlign (lport : Nat) (laneMask : BitVec 8) (widthOffer : Nat) (s : State) : Host.Outcome State Fault Refusal :=
  let l := s.lport lport
  let trains := l.train == .equalise || l.train == .align
  done (
    if portMode s (lpPort lport) ≠ 0 || !lpMayRun s lport || !trains then s
    else
      let w := lpWidth s lport
      let ok (i : Nat) : Bool := (l.lane i).localReady && (l.lane i).peerReady && !(l.lane i).failed && laneMask.getLsbD i
      match bestGroup w (min w widthOffer) ok with
      | none => s
      | some g => portUp lport g.1 (groupMask g) (if l.train == .equalise then sendAlign lport s else s))

/-- TRAINING_RETRY (R329): 10 ms after a failed step. -/
def execTrainingRetry (lport : Nat) (s : State) : Host.Outcome State Fault Refusal := done (trainStart lport s)

/-- IEEE_LINK_UP (R331): the sub-port comes up at the width that the partner accepted. -/
def execIeeeLinkUp (lport width : Nat) (s : State) : Host.Outcome State Fault Refusal :=
  let w := lpWidth s lport
  done (
    if portMode s (lpPort lport) = 0 || !lpMayRun s lport || lportUp s lport || !([1, 2, 4, 8].contains width) then s
    else
      match bestGroup w width (fun i => !((s.lport lport).lane i).failed) with
      | some g => if g.1 = width then portUp lport width (groupMask g) s else s
      | none => s)

/-! ### Lanes and width (R330-R332) -/

/-- LANE_FAIL (R330, R331). -/
def execLaneFail (lport lane : Nat) (s : State) : Host.Outcome State Fault Refusal :=
  done (if s.fc.dstate == .halted || !lpMayRun s lport || lpWidth s lport ≤ lane then s else laneFails lport lane s)

/-- WIDTH_REQ (R330): both ends switch to the group of lanes that the peer names. -/
def execWidthReq (lport : Nat) (argSeq laneMask : BitVec 8) (s : State) : Host.Outcome State Fault Refusal :=
  done (
    if !nativeUp s lport then s
    else
      match maskGroup (lpWidth s lport) laneMask.toNat with
      | none => countUnnamed s
      | some g => setWidth lport g (sendCtl lport (ctlWord 5 argSeq.toNat laneMask.toNat 0 0 false) s))

/-- WIDTH_ACK (R330). -/
def execWidthAck (lport : Nat) (argSeq laneMask : BitVec 8) (s : State) : Host.Outcome State Fault Refusal :=
  done (
    if nativeUp s lport && (s.lport lport).pending == some (laneMask, argSeq) then
      match maskGroup (lpWidth s lport) laneMask.toNat with
      | some g => setWidth lport g s
      | none => s
    else s)

/-- LANE_RETRAIN (R332, R398): the retrain is the lane's swatch. A lane that the collector keeps fenced, without
AUTO_RESTORE, does not rejoin. -/
def execLaneRetrain (lport lane : Nat) (passed : Bool) (s : State) : Host.Outcome State Fault Refusal :=
  let n := fabricSource lport
  let u := laneUnit s lport lane
  done (
    if !nativeUp s lport || !((s.lport lport).lane lane).failed || lpWidth s lport ≤ lane then s
    else if oneUnit s n u == .fenced && !autoOn s n then s
    else if passed then laneBack lport lane (setUnit n u .inService s)
    else
      let s := updLane lport lane (fun x => { x with retraining := false }) s
      if oneUnit s n u == .testing then setUnit n u .fenced s else s)

/-! ### Sub-ports (R402) -/

/-- SUBPORT_DOWN (R402): the link of a sub-port is lost. -/
def execSubportDown (lport : Nat) (s : State) : Host.Outcome State Fault Refusal :=
  done (if lportUp s lport && s.fc.dstate != .halted then ucReport (fabricSource lport) 0x07 (lowLane s lport) none (portDown lport s) else s)

/-- SUBPORT_UP (R402): paths of a sub-port that is up return on probation. -/
def execSubportUp (lport : Nat) (s : State) : Host.Outcome State Fault Refusal :=
  done (if lportUp s lport && s.fc.dstate != .halted then pathsUp lport s else s)

end Sys2Proof.Machine
end

