-- ==== Sys2Proof/Machine/DieLink.lean ====
section
/-! DEFINITION. The commands of the die links (11 R337, R343, R345, R346) and of the package governor (17 R461-R465). -/

namespace Sys2Proof.Machine

/-! ### Fencing (R346) -/

/-- A module is fenced, and a die port that has none left is lost (R346, R390). -/
def moduleFails (mi : Nat) (s : State) : State :=
  if !(s.mod mi).active then s
  else
    let s := fenceModule mi s
    let gone := (activeModules s (mi / 6)).isEmpty
    let s := ucReport (dieSource mi) 0x08 (mi % 6) none s
    if !gone then s
    else
      let x := ownEv (dieSource mi) 2 0x09 7 none s
      if holdsStash x.2 (mi / 6) then ftReport none x.1 x.2 else onEvent none x.1 x.2

/-- Replay the held flits of a module; one that was replayed 16 times fences it. -/
def flitReplay (mi : Nat) (s : State) : State :=
  if (s.mod mi).replay.isEmpty then s
  else
    let s := ceReport (dieSource mi) 0x05 (mi % 6) none (replayFlitsOf mi s)
    if overReplayed s mi then moduleFails mi s else s

/-! ### Flits (R337, R343) -/

/-- A module that carries flits. -/
def moduleLive (s : State) (mi : Nat) : Bool := (s.mod mi).up && s.fc.dstate != .halted

/-- BAD_FLIT (R343): the next command flit says from where to replay. -/
def execBadFlit (module : Nat) (s : State) : Host.Outcome State Fault Refusal :=
  done (
    if !moduleLive s module then s
    else
      let s := count 526 (64 * module + 3) (s.updMod module (fun m => { m with nak := true }))
      emit (.idleFlit module (s.mod module).lastGood true 0 0 0) s)

/-- FLIT_NAK (R343). -/
def execFlitNak (module : Nat) (ackFseq : BitVec 8) (s : State) : Host.Outcome State Fault Refusal :=
  done (if moduleLive s module then flitReplay module (ackFlits module ackFseq s) else s)

/-- FLIT_ACK_TIMEOUT (R343): 1 µs without progress, with flits held. -/
def execFlitAckTimeout (module : Nat) (s : State) : Host.Outcome State Fault Refusal :=
  done (if moduleLive s module then flitReplay module s else s)

/-- IDLE_FLIT (R337, R343): acknowledgement and credits. -/
def execIdleFlit (module : Nat) (ack : Option (BitVec 8)) (credReq credRsp credData : Nat) (s : State) : Host.Outcome State Fault Refusal :=
  done (
    if !moduleLive s module then s
    else
      let s := match ack with | some a => ackFlits module a s | none => s
      dlDrain 4096 module (s.updMod module (fun m => { m with
        credReq := min 256 (m.credReq + credReq), credRsp := min 256 (m.credRsp + credRsp), credData := min 512 (m.credData + credData) })))

/-! ### Modules (R345, R346) -/

/-- MODULE_LINK_LOSS (R346): failures beyond repair fence the module; a lost link retrains. -/
def execModuleLinkLoss (module : Nat) (beyondRepair : Bool) (s : State) : Host.Outcome State Fault Refusal :=
  done (
    if !moduleLive s module then s
    else if beyondRepair then moduleFails module s
    else s.updMod module (fun m => { m with up := false }))

/-- MODULE_RETRAIN_TIMEOUT (R346): 1 ms after the loss. -/
def execModuleRetrainTimeout (module : Nat) (s : State) : Host.Outcome State Fault Refusal :=
  done (if (s.mod module).active && !(s.mod module).up && s.fc.dstate != .halted then moduleFails module s else s)

/-- A BUDGET message (R345, R462). -/
def sendBudget (p b : Nat) (fast : Bool) (s : State) : State :=
  let r := (s.die p).budgetRow + 1
  let w := BitVec.ofNat 64 (b / 10 % 2 ^ 20 + b2n fast * 2 ^ 20 + r.toNat * 2 ^ 24)
  emit (.sideband p 0x22 w) (s.updDie p (fun d => { d with budget := b / 10 * 10, fast := fast, budgetRow := r }))

/-- The die ports with a die attached. -/
def diesOn (s : State) : List Nat := (List.range 4).filter (fun p => (s.die p).attached)

/-- SIDEBAND_HELLO (R343, R345, R462): the link-up exchange gives each end its credits; a new die receives its first
budget. A module that retrained goes on where it was. -/
def execSidebandHello (module : Nat) (kind version : BitVec 8) (s : State) : Host.Outcome State Fault Refusal :=
  let p := module / 6
  done (
    if version ≠ 1 || s.fc.dstate == .halted || (s.mod module).up then s
    else if (s.mod module).active then
      dlDrain 4096 module (flitReplay module (s.updMod module (fun m => { m with up := true })))
    else
      let fresh := !(s.die p).attached
      let ok := oneUnit s (38 + p) (module % 6) == .inService
      let s := s.updMod module (fun _ => { up := true, active := ok, credReq := 256, credRsp := 256, credData := 512 })
      let s := s.updDie p (fun d => { d with attached := true, kind := kind })
      let s := emit (.sideband p 0x01 (BitVec.ofNat 64 (Config.ownKind.toNat + 256))) s
      if fresh then sendBudget p ((s.gov.envelope - 240000) / (2 * max 1 (diesOn s).length)) false s else s)

/-! ### The package governor (R461-R465) -/

/-- Change the governor. -/
def updGov (f : Governor → Governor) (s : State) : State := { s with gov := f s.gov }

/-- TELEMETRY (R461): a newer row count is accepted; powers are in 10 mW. -/
def execTelemetry (port : Nat) (payload : Word) (s : State) : Host.Outcome State Fault Refusal :=
  let d := s.die port
  let row := BitVec.ofNat 8 (fld payload 55 48)
  let newer := !d.heard || (decide (1 ≤ (row - d.row).toNat) && decide ((row - d.row).toNat ≤ 127))
  done (
    if !d.attached || !newer || s.fc.dstate == .halted then s
    else
      let mw := fld payload 19 0 * 10
      let s := s.updDie port (fun d => { d with
        power := mw, temp := fld payload 31 20, current := fld payload 47 32, row := row, heard := true, stale := false })
      updGov (fun g => { g with telem := Tab.upd g.telem port [] (fun l => (mw :: l).take 10) }) s)

/-- TELEMETRY_STALE (R461, R475): after 3 ms the die's telemetry is invalid; after 30 ms more, GOV_FAULT. -/
def execTelemetryStale (port : Nat) (after30ms : Bool) (s : State) : Host.Outcome State Fault Refusal :=
  done (
    if !(s.die port).attached || s.fc.dstate == .halted then s
    else if after30ms then (if (s.die port).stale then ucReport 52 0x14 0 none s else s)
    else if (s.die port).stale then s
    else count 529 5 (s.updDie port (fun d => { d with stale := true })))

/-- The fast path (R464): at most once in 1 ms. -/
def fastPath (within1ms : Bool) (s : State) : State :=
  if s.fc.dstate == .halted || oneUnit s 52 0 != .inService then s
  else if within1ms then count 529 4 s
  else
    let s := count 529 3 (updGov (fun g => { g with fastAt := some s.ticks }) s)
    (diesOn s).foldl (fun s p => sendBudget p ((s.die p).budget * 3 / 4) true s) s

/-- OC_ALERT (R464). -/
def execOcAlert (port : Nat) (_row : BitVec 8) (within1ms : Bool) (s : State) : Host.Outcome State Fault Refusal :=
  done (if (s.die port).attached then fastPath within1ms s else s)

/-- VIN_OVERCURRENT (R464): above 135 A for 10 µs. -/
def execVinOvercurrent (within1ms : Bool) (s : State) : Host.Outcome State Fault Refusal := done (fastPath within1ms s)

/-- A die's want in the loop (R463): valid telemetry's greatest sample, or its budget, plus an eighth, within its cap. -/
def govWant (s : State) (p : Nat) : Nat :=
  let d := s.die p
  let ts := Tab.getD s.gov.telem p []
  let demand := if d.heard && !d.stale then ts.foldl max 0 else d.budget
  let want := demand + demand / 8
  let cap := Tab.getD s.gov.caps p 0
  if cap = 0 then want else min want cap

/-- A die's new budget (R463). -/
def govBudget (s : State) (avail : Int) (p : Nat) : Nat :=
  let dies := diesOn s
  let n : Int := dies.length
  let total : Int := (dies.map (govWant s)).foldl (· + ·) 0
  let w : Int := govWant s p
  let cap := Tab.getD s.gov.caps p 0
  let d := s.die p
  let b : Int :=
    if total ≤ avail then
      let b := w + Int.fdiv (avail - total) n
      if cap = 0 then b else min b cap
    else Int.fdiv avail (4 * n) + Int.fdiv (Int.fdiv (3 * avail) 4 * w) total
  let b := if d.heard && !d.stale then b else min b d.budget
  let b := min b (d.budget + 100000)
  Int.toNat b / 10 * 10

/-- GOVERNOR_LOOP (R463, R465, R448): every 10 ms; a new envelope takes effect, and a slice's figures change once in 100
loops. -/
def execGovernorLoop (ownMw : List Nat) (vinMv : Nat) (s : State) : Host.Outcome State Fault Refusal :=
  done (
    if s.fc.dstate == .halted || oneUnit s 52 0 != .inService then s
    else
      let s := updGov (fun g => { g with envelope := g.next.getD g.envelope, next := none }) s
      let own := ownMw.foldl max 0
      let env := s.gov.envelope
      let avail : Int := (env : Int) - own - (env / 50 : Nat)
      let dies := diesOn s
      let bs := dies.map (fun p => (p, govBudget s avail p))
      let mean (l : List Nat) : Nat := l.foldl (· + ·) 0 / max 1 l.length
      let dm (p : Nat) : Nat := mean (Tab.getD s.gov.telem p [])
      let s := count 529 2 (bs.foldl (fun s b => sendBudget b.1 b.2 false s) s)
      updGov (fun g =>
        let g := { g with
          ownMw := mean ownMw, dieMw := dies.map (fun p => (p, dm p)), loops := g.loops + 1
          limitMw := min 240000 (135 * vinMv), telem := [] }
        let g := { g with
          winOwn := g.winOwn + g.ownMw
          winDie := (List.range 4).map (fun p => (p, Tab.getD g.winDie p 0 + Tab.getD g.dieMw p 0)), window := g.window + 1 }
        if g.window < 100 then g
        else { g with
          shownOwn := g.winOwn / 100, shownDie := g.winDie.map (fun e => (e.1, e.2 / 100)), window := 0, winOwn := 0, winDie := [] }) s)

/-- GOV_FALLBACK_BUDGET (R400): 100 ms without a loop after the governor's reset. -/
def execGovFallbackBudget (s : State) : Host.Outcome State Fault Refusal :=
  done (
    if s.fc.dstate == .halted || oneUnit s 52 0 == .inService then s
    else (diesOn s).foldl (fun s p => sendBudget p ((s.die p).budget * 60 / 100) true s) s)

/-- SENSOR_THRESHOLD (R465): readings are in 0.25 °C; throttling begins at 105 °C and ends when every sensor is at
100 °C or below; the trip is at 125 °C. -/
def execSensorThreshold (sensor reading : Nat) (s : State) : Host.Outcome State Fault Refusal :=
  done (
    if s.fc.dstate == .halted then s
    else
      let was := s.gov.hot.contains sensor
      let hot := if 420 ≤ reading then (if was then s.gov.hot else sensor :: s.gov.hot)
        else if reading ≤ 400 then s.gov.hot.filter (· ≠ sensor) else s.gov.hot
      let begins := decide (420 ≤ reading) && !was
      let duty := !hot.isEmpty
      let s := if duty != s.gov.throttle then emit (.duty duty) s else s
      let s := updGov (fun g => { g with hot := hot, throttle := duty }) s
      let s := updSrc 55 (fun c => { c with causeActive := !hot.isEmpty }) s
      let s := if begins then
          (let x := ownEv 55 2 0x19 sensor none s
           onEvent none { x.1 with active := true } x.2)
        else s
      if 500 ≤ reading then
        let x := ownEv 55 3 0x1A sensor none s
        onEvent none { x.1 with active := true } x.2
      else s)

end Sys2Proof.Machine
end

