-- ==== Sys2Proof/Machine/Reinit.lean ====
section
/-! DEFINITION. The warm re-init (14 R406-R410): its five steps, what each keeps, and what Resume takes up again. -/

namespace Sys2Proof.Machine

/-- A re-init stands at a step. -/
def reinitAt (s : State) (k : Reinit) : Bool := s.fc.dstate == .reinit && s.fc.step == some k

/-- The re-init goes on to a step. -/
def reinitStep (k : Reinit) (s : State) : State := s.updFc (fun c => { c with step := some k })

/-! ### Quiesce and Reset (R406, R408) -/

/-- The descriptor stores, the marker-wait table, the placement tracker pool, the collective state and the commands in progress
go to the save area (R180, R408), whose layout the spec does not give: a line of free bytes stands for them (log 135). The
state keeps what they hold, as it is when Resume takes it up. -/
def savePool (s : State) : State := stashThrough 0 1 s

/-- REINIT_QUIESCE: every dirty State Cache line goes to the stash, with the rest of what R408 names. -/
def execReinitQuiesce (s : State) : Host.Outcome State Fault Refusal :=
  done (if reinitAt s .quiesce then reinitStep .reset (savePool ((s.sc.lines.map (·.1)).foldl (fun s k => scWriteBack k s) s)) else s)

/-- Whether a request that waits for its link is still asked for. -/
def outLives (l : Link) : HostOut → Bool
  | .read t _ _ _ => (Tab.get l.reqs t).isSome
  | .atomic t _ _ _ _ _ _ => (Tab.get l.reqs t).isSome
  | _ => true

/-- Requests of the fetch and of the walkers end: both ask again after Resume. -/
def dropCoreReads (s : State) : State :=
  let ps := (s.mods.flatMap (fun m => m.2.reqs.map (fun r => r.2.purp)) ++ s.links.flatMap (fun l => l.2.reqs.map (fun r => r.2.purp))).filter answeredLater
  let s := ps.eraseDups.foldl (fun s p => freeReqs p 64 s) s
  { s with links := Tab.mapV s.links (fun _ l => { l with waiting := l.waiting.filter (outLives l) }) }

/-- The core domain is reset (R10, R408): caches, packets held for a page, and register fields that are not kept. -/
def coreReset (s : State) : State :=
  let s := dropCoreReads s
  let s := { s with
    sqs := Tab.mapV s.sqs (fun _ q => { q with fetch := .idle })
    qps := Tab.mapV s.qps (fun _ q => { q with held := [] })
    mailboxes := Tab.mapV s.mailboxes (fun _ m => { m with ignored := 0 })
    cwc := [] }
  let s := s.updXlt (fun x => { x with
    cache := [], walks := [], queue := [], seen := [], faults := [], fenced := [], latched := [], summary := [], w := 0, c := 0, arm := false, overflow := false })
  updSc (fun c => { c with
    lines := [], scrubPos := [], cmd := 0, addr := 0, count := 0, linesDone := 0
    result := if c.cmd ≠ 0 ∧ c.result = 1 then 1 else 0 }) s

/-- REINIT_RESET (R406): a THERM_TRIP re-init holds until every sensor has cooled, and any holds without REFCLK. -/
def execReinitReset (sensorsCool refclk : Bool) (s : State) : Host.Outcome State Fault Refusal :=
  done (
    if !reinitAt s .reset || (s.fc.cause == 0x1A && !sensorsCool) || !refclk then s
    else reinitStep .verify (coreReset s))

/-- REFCLK_ABSENT_TIMEOUT (R406): after 100 ms without REFCLK the host links are reset. -/
def execRefclkAbsentTimeout (s : State) : Host.Outcome State Fault Refusal :=
  done (if s.fc.dstate == .reinit then (presentLinks s).foldl (fun s l => resetLink l false s) s else s)

/-! ### Verify and Restart (R408, R417, R423, R433) -/

/-- REINIT_VERIFY (R433): the first copy of the image store that passes; none is FOUNDATION_INTEGRITY. -/
def execReinitVerify (copy0 copy1 : List Byte) (s : State) : Host.Outcome State Fault Refusal :=
  let good (b : List Byte) : Bool := imageReason s.sec (leAt b 8 8) b == 0
  done (
    if !reinitAt s .verify then s
    else if good copy0 || good copy1 then reinitStep .restart s
    else
      let x := ownEv 51 3 0x13 0 none s
      ftReport none x.1 x.2)

/-- The FENCED units that Restart tests; State Cache ways stay disabled (R423). -/
def restartUnits (s : State) : List (Nat × Nat) :=
  (s.fc.units.filter (fun e => e.2 == .fenced && !(decide (36 ≤ e.1 / 64) && decide (e.1 / 64 ≤ 37)))).map (fun e => (e.1 / 64, e.1 % 64))

/-- Whether a stash line lies in a write-through region (R415). -/
def mirrored (line : Nat) : Bool :=
  let o := line * 256
  decide (o < 0x01000000) || (decide (0x04000000 ≤ o) && decide (o < 0x05000000))

/-- REINIT_RESTART (R408, R417): a line fails where it was ever written; a failed line of a write-back region loses its
context, one of a write-through region is taken from its mirror, and where that fails too the stash's die port is lost. -/
def execReinitRestart (badLines badMirror : List Nat) (swatchFail : List (Nat × Nat)) (s : State) :
    Host.Outcome State Fault Refusal :=
  done (
    if !reinitAt s .restart then s
    else
      let bad := badLines.filter (fun l => mirrored l || s.sc.written.contains l)
      if bad.any (fun l => mirrored l && badMirror.contains l) then
        let x := ownEv (38 + ((s.sc.stash.bind (fun g => dpaPort s (g <<< 30))).getD 0)) 3 0x09 7 none s
        ftReport none x.1 x.2
      else
        let lost := ((bad.filter (fun l => !mirrored l)).filterMap (lineCtx s)).eraseDups
        let s := { s with heldLost := lost }
        let s := (restartUnits s).foldl (fun s u =>
          if swatchFail.contains u then countUnnamed s else countUnnamed (unitReturns u.1 u.2 s)) s
        reinitStep .resume s)

/-! ### Resume (R139, R180, R284, R376, R409, R410, R444, R470) -/

/-- A QP takes part again: ACTIVE unless queue.qp_hold holds it; it sends RESUME (R144, R180). -/
def qpResumed (n : Nat) (s : State) : State :=
  qpRecovered n false (s.updQp n (fun q => if q.recovery && !q.cmdHeld then { q with st := .active, recovery := false } else { q with recovery := false }))

/-- A work extent that had not landed runs again from its start (R410); parts that the transport carries go on from there. -/
def extResumed (sq idx i : Nat) (s : State) : State :=
  match s.op sq idx with
  | none => s
  | some o =>
    let e := (o.ext i).st
    if e == .waiting || e == .sending || extEnded (o.ext i) || o.stage != .running then s
    else if o.kind == .local_ || o.kind == .write || o.kind == .send then extRerun sq idx i false s
    else extResume sq idx i s

/-- Operations take up what they waited for. -/
def opResumed (sq idx : Nat) (s : State) : State :=
  match s.op sq idx with
  | none => s
  | some o =>
    if o.done then s
    else if o.stage == .accepting then acceptGo sq idx s
    else
      let s := (List.range o.work.length).foldl (fun s i => extResumed sq idx i s) s
      if o.opcode = 0x20 then skResume sq idx s else s

/-- Delivered requests of peers that waited for a translation are executed. -/
def requestsResumed (s : State) : State :=
  let ts := s.trackers.filter (fun e => (e.2.op == 2 || e.2.op == 4) && e.2.use == .window && !e.2.executing &&
    !(s.qp e.2.qpn).complete.any (fun d => d.tracker == some e.1))
  ts.foldl (fun s e => execRequest e.1 s) s

/-- Collectives restart the chunks that held slots, and go on (R284). -/
def collsResumed (s : State) : State :=
  let s := slotsLost (fun _ => true) s
  (s.groups.map (·.1)).foldl (fun s g => purlPumpGroup g (slotsGive 4096 g s)) s

/-- Queues: CQs write what waits, shadow words are written again, and fetching restarts at each FI. -/
def queuesResumed (s : State) : State :=
  let s := (s.cqs.map (·.1)).foldl (fun s n => cqFlush n s) s
  pumpAll ((Tab.keysWhere s.sqs (fun _ q => q.st != .free)).foldl (fun s n => writeShadow n s) s)

/-- A held register write takes effect, as its own command does now (R470). -/
def reapply (s : State) (i : Instr) : State :=
  let o : Host.Outcome State Fault Refusal :=
    match i with
    | .xltFringCfg w => execXltFringCfg w s
    | .xltFringDb w => execXltFringDb w s
    | .faultResolveRetry w r => execFaultResolveRetry w r s
    | .faultResolveFail w => execFaultResolveFail w s
    | .netPortCfg n w => execNetPortCfg n w s
    | .netErtUdpPort w => execNetErtUdpPort w s
    | .netTrkRsv w => execNetTrkRsv w s
    | .netPfcCfg w => execNetPfcCfg w s
    | .dlRoute w => execDlRoute w s
    | .registerWrite off w => execRegisterWrite off w s
    | _ => done s
  match o with
  | .next t => t
  | _ => s

/-- The recorded doorbells, in queue order, as if each value had been written once (R409). -/
def doorbellsApplied (s : State) : State :=
  let sq := s.heldSq
  let cq := s.heldCq
  let ack := s.heldAck
  let mb := s.heldMb
  let live (s : State) (ctx : Nat) : Bool := dbCtxOk s ctx (s.ctx ctx).slice
  let s := { s with heldSq := [], heldCq := [], heldAck := [], heldMb := [] }
  let s := sq.foldl (fun s e => if (s.sq e.1).st != .free && live s (s.sq e.1).ctx then sqDoorbell e.1 e.2 s else s) s
  let s := cq.foldl (fun s e =>
    if (s.cq e.1).active && live s (s.cq e.1).ctx then cqDoorbell e.1 e.2.1 e.2.2 (s.ctx (s.cq e.1).ctx).slice s else s) s
  let s := ack.foldl (fun s e => noticeAck e.1 e.2 s) s
  mb.foldl (fun s e => if mbLive s e.1 then mbDoorbell e.1 e.2.1 e.2.2 s else s) s

/-- Loads start again from the bundle's first byte (R444). -/
def loadsResumed (s : State) : State :=
  loadPump (updFnd (fun f => { f with loads := Tab.mapV f.loads (fun _ l => { l with running := none }) }) s)

/-- What Resume takes up, in its order (R409, R410): links and slices, lost contexts, QPs, answers, waits, operations, requests of
peers, collectives, direct streams, queues, and then what hosts wrote meanwhile. -/
def takenUp (off lost : List Nat) (ans : List (Purpose × Nat × Answer)) (ws : List Instr) (s : State) : State :=
  let s := (presentLinks s).foldl (fun s l => releaseMsix l (releaseLink l s)) s
  let s := off.foldl (fun s l => bindOffLink l s) s
  let s := lost.foldl (fun s c => contextLost c 6 s) s
  let s := (s.qps.map (·.1)).foldl (fun s n => qpResumed n s) s
  let s := ans.foldl (fun s a => answer a.1 a.2.1 a.2.2 s) s
  let s := (s.markers.map (·.1)).foldl (fun s k => wakeWaits k (markerAt s k) s) s
  let s := (s.ops.map (·.1)).foldl (fun s k => opResumed (k / 16777216) (k % 16777216) s) s
  let s := pumpWork (requestsResumed s)
  let s := collsResumed s
  let s := (Tab.keysWhere s.qps (fun _ q => q.mode == .roce)).foldl (fun s n => roceResume n s) s
  let s := (s.directWait.filter (fun d => d.2.1.len == 0)).foldl (fun s d => sigResume d.2.1.module d.2.1.txn s) (directAll s)
  let s := queuesResumed (loadsResumed s)
  let s := ws.foldl reapply s
  doorbellsApplied s

/-- The device runs again, and nothing is held any more. -/
def runsAgain (s : State) : State :=
  { s.updFc (fun c => { c with dstate := .normal, step := none, reinits := min 65535 (c.reinits + 1), intPending := false }) with
    heldOff := [], heldLost := [], heldAns := [], heldWrites := [] }

/-- REINIT_RESUME (R408-R410). -/
def execReinitResume (s : State) : Host.Outcome State Fault Refusal :=
  done (
    if !reinitAt s .resume then s
    else
      let t := takenUp s.heldOff s.heldLost s.heldAns s.heldWrites (runsAgain s)
      if s.fc.intPending then fcInterrupt t else t)

end Sys2Proof.Machine
end

