-- ==== Sys2Proof/Machine/Dispatch.lean ====
section
/-! DEFINITION. The dispatch of a command to its meaning. -/

namespace Sys2Proof.Machine

/-- The effect of a command on everything but the queue. -/
def exec (i : Instr) (s : State) : Host.Outcome State Fault Refusal :=
  match i with
  | .ssuSqDb a0 => Sys2Proof.Machine.execSsuSqDb a0 s
  | .ssuCqDb a0 => Sys2Proof.Machine.execSsuCqDb a0 s
  | .ssuCqNoticeAck a0 => Sys2Proof.Machine.execSsuCqNoticeAck a0 s
  | .ssuPush a0 => Sys2Proof.Machine.execSsuPush a0 s
  | .descriptorFetch a0 a1 => Sys2Proof.Machine.execDescriptorFetch a0 a1 s
  | .rowReread a0 a1 a2 => Sys2Proof.Machine.execRowReread a0 a1 a2 s
  | .nop a0 a1 => Sys2Proof.Machine.execNop a0 a1 s
  | .copy a0 a1 => Sys2Proof.Machine.execCopy a0 a1 s
  | .fill a0 a1 => Sys2Proof.Machine.execFill a0 a1 s
  | .convert a0 a1 => Sys2Proof.Machine.execConvert a0 a1 s
  | .writeRemote a0 a1 => Sys2Proof.Machine.execWriteRemote a0 a1 s
  | .readRemote a0 a1 => Sys2Proof.Machine.execReadRemote a0 a1 s
  | .send a0 a1 => Sys2Proof.Machine.execSend a0 a1 s
  | .atomicFadd a0 a1 => Sys2Proof.Machine.execAtomicFadd a0 a1 s
  | .atomicCas a0 a1 => Sys2Proof.Machine.execAtomicCas a0 a1 s
  | .skein a0 a1 a2 a3 => Sys2Proof.Machine.execSkein a0 a1 a2 a3 s
  | .collective a0 a1 => Sys2Proof.Machine.execCollective a0 a1 s
  | .markerSignal a0 a1 => Sys2Proof.Machine.execMarkerSignal a0 a1 s
  | .markerWait a0 a1 => Sys2Proof.Machine.execMarkerWait a0 a1 s
  | .triggerArm a0 a1 => Sys2Proof.Machine.execTriggerArm a0 a1 s
  | .invalidate a0 a1 => Sys2Proof.Machine.execInvalidate a0 a1 s
  | .invalidateDrained a0 a1 => Sys2Proof.Machine.execInvalidateDrained a0 a1 s
  | .triggerFire a0 a1 => Sys2Proof.Machine.execTriggerFire a0 a1 s
  | .operationComplete a0 a1 => Sys2Proof.Machine.execOperationComplete a0 a1 s
  | .cqFullTimeout a0 => Sys2Proof.Machine.execCqFullTimeout a0 s
  | .cqDrainDiscard a0 => Sys2Proof.Machine.execCqDrainDiscard a0 s
  | .cqWriteRetry a0 a1 => Sys2Proof.Machine.execCqWriteRetry a0 a1 s
  | .queueFree a0 => Sys2Proof.Machine.execQueueFree a0 s
  | .walkDone a0 a1 => Sys2Proof.Machine.execWalkDone a0 a1 s
  | .xltFringDb a0 => Sys2Proof.Machine.execXltFringDb a0 s
  | .xltFringCfg a0 => Sys2Proof.Machine.execXltFringCfg a0 s
  | .faultResolveRetry a0 a1 => Sys2Proof.Machine.execFaultResolveRetry a0 a1 s
  | .faultResolveFail a0 => Sys2Proof.Machine.execFaultResolveFail a0 s
  | .faultTimeout a0 => Sys2Proof.Machine.execFaultTimeout a0 s
  | .contextFree a0 => Sys2Proof.Machine.execContextFree a0 s
  | .ctxDrainTimeout a0 => Sys2Proof.Machine.execCtxDrainTimeout a0 s
  | .moRetired a0 => Sys2Proof.Machine.execMoRetired a0 s
  | .windowFreed a0 => Sys2Proof.Machine.execWindowFreed a0 s
  | .firmwareErrorBinding => Sys2Proof.Machine.execFirmwareErrorBinding s
  | .write a0 => Sys2Proof.Machine.execWrite a0 s
  | .rxSend a0 => Sys2Proof.Machine.execRxSend a0 s
  | .readReq a0 => Sys2Proof.Machine.execReadReq a0 s
  | .readResp a0 => Sys2Proof.Machine.execReadResp a0 s
  | .atomic a0 => Sys2Proof.Machine.execAtomic a0 s
  | .atomicResp a0 => Sys2Proof.Machine.execAtomicResp a0 s
  | .ack a0 => Sys2Proof.Machine.execAck a0 s
  | .nak a0 => Sys2Proof.Machine.execNak a0 s
  | .grant a0 => Sys2Proof.Machine.execGrant a0 s
  | .resume a0 => Sys2Proof.Machine.execResume a0 s
  | .skeinData a0 => Sys2Proof.Machine.execSkeinData a0 s
  | .purlData a0 => Sys2Proof.Machine.execPurlData a0 s
  | .purlResult a0 => Sys2Proof.Machine.execPurlResult a0 s
  | .hello a0 => Sys2Proof.Machine.execHello a0 s
  | .credit a0 => Sys2Proof.Machine.execCredit a0 s
  | .purlRestart a0 => Sys2Proof.Machine.execPurlRestart a0 s
  | .purlAbort a0 => Sys2Proof.Machine.execPurlAbort a0 s
  | .rocePacket a0 => Sys2Proof.Machine.execRocePacket a0 s
  | .cnp a0 => Sys2Proof.Machine.execCnp a0 s
  | .cmDatagram a0 a1 a2 => Sys2Proof.Machine.execCmDatagram a0 a1 a2 s
  | .rxFrameDiscard a0 a1 => Sys2Proof.Machine.execRxFrameDiscard a0 a1 s
  | .pfcFrame a0 a1 a2 => Sys2Proof.Machine.execPfcFrame a0 a1 a2 s
  | .deliver a0 => Sys2Proof.Machine.execDeliver a0 s
  | .ackTimer a0 => Sys2Proof.Machine.execAckTimer a0 s
  | .tink a0 a1 => Sys2Proof.Machine.execTink a0 a1 s
  | .noProgressTimeout a0 => Sys2Proof.Machine.execNoProgressTimeout a0 s
  | .rxStalled a0 => Sys2Proof.Machine.execRxStalled a0 s
  | .sickHoldExpiry a0 a1 => Sys2Proof.Machine.execSickHoldExpiry a0 a1 s
  | .retryDelayExpiry a0 a1 => Sys2Proof.Machine.execRetryDelayExpiry a0 a1 s
  | .pageHoldTimeout a0 a1 => Sys2Proof.Machine.execPageHoldTimeout a0 a1 s
  | .grantResend a0 => Sys2Proof.Machine.execGrantResend a0 s
  | .grantReclaim a0 => Sys2Proof.Machine.execGrantReclaim a0 s
  | .grantEngine a0 a1 => Sys2Proof.Machine.execGrantEngine a0 a1 s
  | .dcqcnAlphaTimer a0 => Sys2Proof.Machine.execDcqcnAlphaTimer a0 s
  | .dcqcnIncreaseTimer a0 a1 => Sys2Proof.Machine.execDcqcnIncreaseTimer a0 a1 s
  | .roceAckTimeout a0 => Sys2Proof.Machine.execRoceAckTimeout a0 s
  | .qpDrainTimeout a0 => Sys2Proof.Machine.execQpDrainTimeout a0 s
  | .qpFreed a0 => Sys2Proof.Machine.execQpFreed a0 s
  | .layerOpen a0 a1 => Sys2Proof.Machine.execLayerOpen a0 a1 s
  | .helloTimer a0 => Sys2Proof.Machine.execHelloTimer a0 s
  | .formationTimeout a0 => Sys2Proof.Machine.execFormationTimeout a0 s
  | .progressTimeout a0 a1 => Sys2Proof.Machine.execProgressTimeout a0 a1 s
  | .slotAssign a0 => Sys2Proof.Machine.execSlotAssign a0 s
  | .groupFree a0 => Sys2Proof.Machine.execGroupFree a0 s
  | .rspData a0 a1 a2 a3 => Sys2Proof.Machine.execRspData a0 a1 a2 a3 s
  | .rspAck a0 a1 a2 => Sys2Proof.Machine.execRspAck a0 a1 a2 s
  | .directLd a0 a1 a2 a3 a4 => Sys2Proof.Machine.execDirectLd a0 a1 a2 a3 a4 s
  | .directSt a0 a1 a2 a3 => Sys2Proof.Machine.execDirectSt a0 a1 a2 a3 s
  | .markerSig a0 a1 a2 a3 a4 a5 => Sys2Proof.Machine.execMarkerSig a0 a1 a2 a3 a4 a5 s
  | .badFlit a0 => Sys2Proof.Machine.execBadFlit a0 s
  | .flitNak a0 a1 => Sys2Proof.Machine.execFlitNak a0 a1 s
  | .flitAckTimeout a0 => Sys2Proof.Machine.execFlitAckTimeout a0 s
  | .moduleRetrainTimeout a0 => Sys2Proof.Machine.execModuleRetrainTimeout a0 s
  | .tfAck a0 a1 => Sys2Proof.Machine.execTfAck a0 a1 s
  | .tfViolation a0 a1 a2 => Sys2Proof.Machine.execTfViolation a0 a1 a2 s
  | .sidebandHello a0 a1 a2 => Sys2Proof.Machine.execSidebandHello a0 a1 a2 s
  | .telemetry a0 a1 => Sys2Proof.Machine.execTelemetry a0 a1 s
  | .ocAlert a0 a1 a2 => Sys2Proof.Machine.execOcAlert a0 a1 a2 s
  | .vinOvercurrent a0 => Sys2Proof.Machine.execVinOvercurrent a0 s
  | .governorLoop a0 a1 => Sys2Proof.Machine.execGovernorLoop a0 a1 s
  | .telemetryStale a0 a1 => Sys2Proof.Machine.execTelemetryStale a0 a1 s
  | .govFallbackBudget => Sys2Proof.Machine.execGovFallbackBudget s
  | .sensorThreshold a0 a1 => Sys2Proof.Machine.execSensorThreshold a0 a1 s
  | .nativeDataBlock a0 => Sys2Proof.Machine.execNativeDataBlock a0 s
  | .blockNak a0 a1 => Sys2Proof.Machine.execBlockNak a0 a1 s
  | .blockAckTimeout a0 => Sys2Proof.Machine.execBlockAckTimeout a0 s
  | .widthReq a0 a1 a2 => Sys2Proof.Machine.execWidthReq a0 a1 a2 s
  | .widthAck a0 a1 a2 => Sys2Proof.Machine.execWidthAck a0 a1 a2 s
  | .tsEq a0 a1 a2 a3 a4 a5 => Sys2Proof.Machine.execTsEq a0 a1 a2 a3 a4 a5 s
  | .tsAlign a0 a1 a2 => Sys2Proof.Machine.execTsAlign a0 a1 a2 s
  | .laneFail a0 a1 => Sys2Proof.Machine.execLaneFail a0 a1 s
  | .trainingRetry a0 => Sys2Proof.Machine.execTrainingRetry a0 s
  | .laneRetrain a0 a1 a2 => Sys2Proof.Machine.execLaneRetrain a0 a1 a2 s
  | .ieeeLinkUp a0 a1 => Sys2Proof.Machine.execIeeeLinkUp a0 a1 s
  | .subportDown a0 => Sys2Proof.Machine.execSubportDown a0 s
  | .subportUp a0 => Sys2Proof.Machine.execSubportUp a0 s
  | .bar2Read a0 a1 => Sys2Proof.Machine.execBar2Read a0 a1 s
  | .bar2Write a0 a1 a2 => Sys2Proof.Machine.execBar2Write a0 a1 a2 s
  | .bar2Atomic a0 a1 a2 a3 => Sys2Proof.Machine.execBar2Atomic a0 a1 a2 a3 s
  | .cxlMemRead a0 a1 a2 a3 => Sys2Proof.Machine.execCxlMemRead a0 a1 a2 a3 s
  | .cxlMemWrite a0 a1 a2 a3 => Sys2Proof.Machine.execCxlMemWrite a0 a1 a2 a3 s
  | .hostSnoop a0 a1 a2 a3 => Sys2Proof.Machine.execHostSnoop a0 a1 a2 a3 s
  | .hostReadCompletion a0 a1 a2 => Sys2Proof.Machine.execHostReadCompletion a0 a1 a2 s
  | .hostReadTimeout a0 a1 => Sys2Proof.Machine.execHostReadTimeout a0 a1 s
  | .linkReset a0 a1 => Sys2Proof.Machine.execLinkReset a0 a1 s
  | .linkLossTimeout a0 => Sys2Proof.Machine.execLinkLossTimeout a0 s
  | .powerStateChange a0 a1 => Sys2Proof.Machine.execPowerStateChange a0 a1 s
  | .perstDeassert => Sys2Proof.Machine.execPerstDeassert s
  | .faultEvent a0 => Sys2Proof.Machine.execFaultEvent a0 s
  | .escalationTimer a0 a1 => Sys2Proof.Machine.execEscalationTimer a0 a1 s
  | .unitResetDone a0 a1 => Sys2Proof.Machine.execUnitResetDone a0 a1 s
  | .swatchDone a0 a1 a2 => Sys2Proof.Machine.execSwatchDone a0 a1 a2 s
  | .fcStatus a0 => Sys2Proof.Machine.execFcStatus a0 s
  | .reinitQuiesce => Sys2Proof.Machine.execReinitQuiesce s
  | .reinitReset a0 a1 => Sys2Proof.Machine.execReinitReset a0 a1 s
  | .reinitVerify a0 a1 => Sys2Proof.Machine.execReinitVerify a0 a1 s
  | .reinitRestart a0 a1 a2 => Sys2Proof.Machine.execReinitRestart a0 a1 a2 s
  | .reinitResume => Sys2Proof.Machine.execReinitResume s
  | .refclkAbsentTimeout => Sys2Proof.Machine.execRefclkAbsentTimeout s
  | .scrubLine a0 a1 => Sys2Proof.Machine.execScrubLine a0 a1 s
  | .wayDisable a0 a1 => Sys2Proof.Machine.execWayDisable a0 a1 s
  | .scClean a0 => Sys2Proof.Machine.execScClean a0 s
  | .scInvalidate a0 => Sys2Proof.Machine.execScInvalidate a0 s
  | .scCleanInvalidate a0 => Sys2Proof.Machine.execScCleanInvalidate a0 s
  | .scMaintComplete => Sys2Proof.Machine.execScMaintComplete s
  | .scMaintAddr a0 => Sys2Proof.Machine.execScMaintAddr a0 s
  | .netPortCfg a0 a1 => Sys2Proof.Machine.execNetPortCfg a0 a1 s
  | .netErtUdpPort a0 => Sys2Proof.Machine.execNetErtUdpPort a0 s
  | .netTrkRsv a0 => Sys2Proof.Machine.execNetTrkRsv a0 s
  | .netPfcCfg a0 => Sys2Proof.Machine.execNetPfcCfg a0 s
  | .dlRoute a0 => Sys2Proof.Machine.execDlRoute a0 s
  | .registerWrite a0 a1 => Sys2Proof.Machine.execRegisterWrite a0 a1 s
  | .devInfo a0 => Sys2Proof.Machine.execDevInfo a0 s
  | .devPortAddr a0 => Sys2Proof.Machine.execDevPortAddr a0 s
  | .sliceCreate a0 => Sys2Proof.Machine.execSliceCreate a0 s
  | .sliceDestroy a0 => Sys2Proof.Machine.execSliceDestroy a0 s
  | .sliceSetQuota a0 => Sys2Proof.Machine.execSliceSetQuota a0 s
  | .sliceSetRights a0 => Sys2Proof.Machine.execSliceSetRights a0 s
  | .sliceQuery a0 => Sys2Proof.Machine.execSliceQuery a0 s
  | .sliceFree a0 => Sys2Proof.Machine.execSliceFree a0 s
  | .sliceDrainTimeout a0 => Sys2Proof.Machine.execSliceDrainTimeout a0 s
  | .ctxCreate a0 => Sys2Proof.Machine.execCtxCreate a0 s
  | .ctxSetPanel a0 => Sys2Proof.Machine.execCtxSetPanel a0 s
  | .ctxQuery a0 => Sys2Proof.Machine.execCtxQuery a0 s
  | .ctxDestroy a0 => Sys2Proof.Machine.execCtxDestroy a0 s
  | .ctxInvalidate a0 => Sys2Proof.Machine.execCtxInvalidate a0 s
  | .ctxLose a0 => Sys2Proof.Machine.execCtxLose a0 s
  | .queueCreate a0 => Sys2Proof.Machine.execQueueCreate a0 s
  | .queueDestroy a0 => Sys2Proof.Machine.execQueueDestroy a0 s
  | .queueHold a0 => Sys2Proof.Machine.execQueueHold a0 s
  | .queueResume a0 => Sys2Proof.Machine.execQueueResume a0 s
  | .queueQpCreate a0 => Sys2Proof.Machine.execQueueQpCreate a0 s
  | .queueQpInit a0 => Sys2Proof.Machine.execQueueQpInit a0 s
  | .queueQpConnect a0 => Sys2Proof.Machine.execQueueQpConnect a0 s
  | .queueQpHold a0 => Sys2Proof.Machine.execQueueQpHold a0 s
  | .queueQpResume a0 => Sys2Proof.Machine.execQueueQpResume a0 s
  | .queueQpDestroy a0 => Sys2Proof.Machine.execQueueQpDestroy a0 s
  | .queueQpReset a0 => Sys2Proof.Machine.execQueueQpReset a0 s
  | .queueQpQuery a0 => Sys2Proof.Machine.execQueueQpQuery a0 s
  | .queueCmSend a0 => Sys2Proof.Machine.execQueueCmSend a0 s
  | .queueCmRecv a0 => Sys2Proof.Machine.execQueueCmRecv a0 s
  | .memRegister a0 => Sys2Proof.Machine.execMemRegister a0 s
  | .memFree a0 => Sys2Proof.Machine.execMemFree a0 s
  | .memQuery a0 => Sys2Proof.Machine.execMemQuery a0 s
  | .winRegister a0 => Sys2Proof.Machine.execWinRegister a0 s
  | .winRevoke a0 => Sys2Proof.Machine.execWinRevoke a0 s
  | .markerReset a0 => Sys2Proof.Machine.execMarkerReset a0 s
  | .markerExport a0 => Sys2Proof.Machine.execMarkerExport a0 s
  | .markerImport a0 => Sys2Proof.Machine.execMarkerImport a0 s
  | .markerBind a0 => Sys2Proof.Machine.execMarkerBind a0 s
  | .markerUnbind a0 => Sys2Proof.Machine.execMarkerUnbind a0 s
  | .groupCreate a0 a1 => Sys2Proof.Machine.execGroupCreate a0 a1 s
  | .groupDestroy a0 => Sys2Proof.Machine.execGroupDestroy a0 s
  | .groupQuery a0 => Sys2Proof.Machine.execGroupQuery a0 s
  | .skeinQuery a0 => Sys2Proof.Machine.execSkeinQuery a0 s
  | .govQuery a0 => Sys2Proof.Machine.execGovQuery a0 s
  | .govSetEnvelope a0 => Sys2Proof.Machine.execGovSetEnvelope a0 s
  | .faultQuery a0 => Sys2Proof.Machine.execFaultQuery a0 s
  | .faultRestore a0 => Sys2Proof.Machine.execFaultRestore a0 s
  | .faultInject a0 a1 => Sys2Proof.Machine.execFaultInject a0 a1 s
  | .secBundleLoad a0 a1 => Sys2Proof.Machine.execSecBundleLoad a0 a1 s
  | .bundleLoadDone a0 a1 a2 => Sys2Proof.Machine.execBundleLoadDone a0 a1 a2 s
  | .secMeasure a0 => Sys2Proof.Machine.execSecMeasure a0 s
  | .dbgCounters a0 => Sys2Proof.Machine.execDbgCounters a0 s
  | .dbgTrace a0 => Sys2Proof.Machine.execDbgTrace a0 s
  | .dbgState a0 => Sys2Proof.Machine.execDbgState a0 s
  | .getVersion a0 => Sys2Proof.Machine.execGetVersion a0 s
  | .getCapabilities a0 => Sys2Proof.Machine.execGetCapabilities a0 s
  | .negotiateAlgorithms a0 a1 => Sys2Proof.Machine.execNegotiateAlgorithms a0 a1 s
  | .getDigests a0 => Sys2Proof.Machine.execGetDigests a0 s
  | .getCertificate a0 a1 a2 a3 => Sys2Proof.Machine.execGetCertificate a0 a1 a2 a3 s
  | .challenge a0 a1 a2 => Sys2Proof.Machine.execChallenge a0 a1 a2 s
  | .getMeasurements a0 a1 a2 a3 => Sys2Proof.Machine.execGetMeasurements a0 a1 a2 a3 s
  | .dbgNonce a0 => Sys2Proof.Machine.execDbgNonce a0 s
  | .dbgUnlock a0 a1 a2 a3 a4 => Sys2Proof.Machine.execDbgUnlock a0 a1 a2 a3 a4 s
  | .fuseRecheck a0 => Sys2Proof.Machine.execFuseRecheck a0 s
  | .foundationRestart => Sys2Proof.Machine.execFoundationRestart s
  | .coldReset => Sys2Proof.Machine.execColdReset s
  | .vinLoss => Sys2Proof.Machine.execVinLoss s
  | .railsInTolerance a0 a1 => Sys2Proof.Machine.execRailsInTolerance a0 a1 s
  | .refclkMeasured a0 => Sys2Proof.Machine.execRefclkMeasured a0 s
  | .foundationReady a0 a1 a2 => Sys2Proof.Machine.execFoundationReady a0 a1 a2 s
  | .bar4ImageWrite a0 a1 => Sys2Proof.Machine.execBar4ImageWrite a0 a1 s
  | .go a0 => Sys2Proof.Machine.execGo a0 s
  | .abort => Sys2Proof.Machine.execAbort s
  | .imgWrite a0 a1 => Sys2Proof.Machine.execImgWrite a0 a1 s
  | .imgGo a0 => Sys2Proof.Machine.execImgGo a0 s
  | .imgStatus => Sys2Proof.Machine.execImgStatus s
  | .imgAbort => Sys2Proof.Machine.execImgAbort s
  | .bootReqTimer => Sys2Proof.Machine.execBootReqTimer s
  | .bootData a0 a1 a2 => Sys2Proof.Machine.execBootData a0 a1 a2 s
  | .claimTimeout => Sys2Proof.Machine.execClaimTimeout s
  | .imageVerified a0 => Sys2Proof.Machine.execImageVerified a0 s
  | .hooksStarted a0 => Sys2Proof.Machine.execHooksStarted a0 s
  | .castOnReady a0 a1 a2 a3 => Sys2Proof.Machine.execCastOnReady a0 a1 a2 a3 s
  | .mbDb a0 a1 a2 a3 => Sys2Proof.Machine.execMbDb a0 a1 a2 a3 s
  | .configurationRequest a0 a1 => Sys2Proof.Machine.execConfigurationRequest a0 a1 s
  | .cxlCacheResponse a0 a1 a2 => Sys2Proof.Machine.execCxlCacheResponse a0 a1 a2 s
  | .backInvalidateResponse a0 a1 a2 => Sys2Proof.Machine.execBackInvalidateResponse a0 a1 a2 s
  | .idleFlit a0 a1 a2 a3 a4 => Sys2Proof.Machine.execIdleFlit a0 a1 a2 a3 a4 s
  | .idleBlock a0 a1 => Sys2Proof.Machine.execIdleBlock a0 a1 s
  | .dataLinkLayerLoss a0 => Sys2Proof.Machine.execDataLinkLayerLoss a0 s
  | .dataLinkLayerUp a0 a1 a2 a3 a4 a5 => Sys2Proof.Machine.execDataLinkLayerUp a0 a1 a2 a3 a4 a5 s
  | .moduleLinkLoss a0 a1 => Sys2Proof.Machine.execModuleLinkLoss a0 a1 s
  | .egressPacketSelect a0 a1 => Sys2Proof.Machine.execEgressPacketSelect a0 a1 s
  | .rnrTimerExpiry a0 => Sys2Proof.Machine.execRnrTimerExpiry a0 s

end Sys2Proof.Machine
end

