-- ==== Sys2Proof/Machine/Reads.lean ====
section
/-! DEFINITION. What a read of BAR 0 returns (10 R298, R299, R405; 14 R391, R392, R411; 15 R424; 18 R467-R472). No command of
the table reads a register, and a read changes nothing, so these are functions of the state. -/

namespace Sys2Proof.Machine

/-- A field's value at its low bit. -/
def atBit (v lo : Nat) : Nat := v * 2 ^ lo

/-- DEV_INFO (R468). -/
def readDevInfo (s : State) : Nat :=
  0xB0 + atBit (b2n s.fleet) 8 + ((List.range 4).map (fun n => if linkPresent s n then atBit 1 (9 + n) else 0)).foldl (· + ·) 0 +
    atBit s.rumel.toNat 16 + atBit s.hbmGib 32 + atBit (b2n s.hooksUp) 48

/-- XLT_FRING_CFG and XLT_FRING_STATUS (R134); the other registers of the group are write-only. -/
def readXlt (o : Nat) (s : State) : Nat :=
  let x := s.xlt
  if o = 0 then b2n x.enable + atBit x.logSize 1 + atBit x.ringBase.toNat 12
  else if o = 0x10 then x.w.toNat + atBit (b2n x.overflow) 24 + atBit x.summary.length 32
  else 0

/-- HP_LINK_STATUS_n (R297). -/
def readLink (n : Nat) (s : State) : Nat :=
  let l := s.link n
  b2n l.up + atBit (b2n l.cxl) 1 + atBit (b2n l.cache) 2 + atBit (b2n l.flit) 3 + atBit l.rate 4 + atBit l.width 7 +
    atBit (b2n (linkPresent s n)) 12

/-- The manager page region. -/
def readMgr (o : Nat) (s : State) : Nat :=
  if o = 0 then readDevInfo s
  else if 0x1000 ≤ o ∧ o < 0x1020 then readXlt (o - 0x1000) s
  else if o = 0x2000 then s.ertPort.toNat
  else if o = 0x2008 then s.tcWeight.toNat
  else if o = 0x2010 then s.tcDscp.toNat
  else if o = 0x2018 then s.tension.toNat
  else if o = 0x2020 then s.trkRsv.toNat
  else if o = 0x2028 then (pfcReg s).toNat
  else if 0x2100 ≤ o ∧ o < 0x2160 then (s.portCfgOf ((o - 0x2100) / 8)).toNat
  else if 0x2400 ≤ o ∧ o < 0x2700 then (Tab.getD s.nextHop ((o - 0x2400) / 8) 0).toNat
  else if 0x3000 ≤ o ∧ o < 0x3020 then (s.link ((o - 0x3000) / 8)).cfg.toNat
  else if 0x3040 ≤ o ∧ o < 0x3060 then readLink ((o - 0x3040) / 8) s
  else if o = 0x3080 then s.bar2Slide
  else if 0x3200 ≤ o ∧ o < 0x3400 then (Tab.getD s.ridFilter ((o - 0x3200) / 8) 0).toNat
  else if o = 0x4000 then s.dlRoute.toNat
  else 0

/-- MB_STATUS (R368). -/
def readMbStatus (n : Nat) (s : State) : Nat :=
  let m := s.mbox n
  m.lastSeq.toNat + atBit (b2n m.running) 16 + atBit m.ignored.toNat 32

/-- A mailbox's pages. -/
def readMbox (n o : Nat) (s : State) : Nat :=
  if o < 0x1000 then (Tab.getD (s.mbox n).page (o / 8) 0).toNat
  else if o < 0x2000 then ((s.mbox n).resp.getD ((o - 0x1000) / 8) 0).toNat
  else if o = 0x2008 then readMbStatus n s
  else 0

/-- FC_SRC_n (R392). -/
def readSrc (n : Nat) (s : State) : Nat :=
  let f := fcSrc s n
  f.cls + atBit (b2n f.causeActive) 2 + atBit (unitCode (sstate s n)) 3 + atBit (b2n f.escalated) 5 + atBit f.detail 8 +
    atBit f.ceCount 16 + atBit f.ucCount 32 + atBit f.fences 48 + atBit f.unit 52 + atBit (b2n f.injected) 58 + atBit (b2n f.errn) 59

/-- DSTATE as a number (R392). -/
def dstateCode : DState → Nat | .normal => 0 | .reinit => 1 | .halted => 2

/-- Half `i` of trace record `j` (R411). -/
def readTrace (j i : Nat) (s : State) : Nat := (Tab.getD s.fc.trace j 0).toNat / 2 ^ (64 * i) % 2 ^ 64

/-- The fault collector region (R391). -/
def readFc (o : Nat) (s : State) : Nat :=
  let c := s.fc
  if o = 0 then c.status.toNat
  else if o = 8 then b2n c.ftErrn + atBit c.fenceLimit 1 + atBit (b2n c.traceFreeze) 5
  else if o = 0x10 then dstateCode c.dstate + atBit c.lastFtSource 2 + atBit c.reinits 8 + atBit c.lastFtRow.toNat 32
  else if o = 0x18 then c.traceSel
  else if 0x100 ≤ o ∧ o < 0x2E0 then (react s ((o - 0x100) / 8)).toNat
  else if 0x300 ≤ o ∧ o < 0x4E0 then readSrc ((o - 0x300) / 8) s
  else if 0x1000 ≤ o ∧ o < 0x2000 then readTrace (c.traceSel / 256 * 256 + (o - 0x1000) / 16) (o / 8 % 2) s
  else 0

/-- The State Cache maintenance region (R424): SC_STASH is X until the Hooks have started. -/
def readSc (o : Nat) (s : State) : Nat :=
  let c := s.sc
  if o = 8 then (scAddrReg s).toNat
  else if o = 0x10 then b2n c.busy + atBit c.result 1 + atBit c.linesDone 16
  else if o = 0x18 then (match c.stash with | some g => g | none => Config.stashBaseX.toNat)
  else if o = 0x20 then c.rate + atBit (b2n c.scrubOn) 5
  else if 0x30 ≤ o ∧ o < 0x40 then
    let h := (o - 0x30) / 8
    (scDisabled s h).toNat + atBit (Tab.getD c.passes h 0) 16
  else if 0x40 ≤ o ∧ o < 0x50 then
    ((List.range 16).map (fun w => atBit (scErrs s ((o - 0x40) / 8) w) (4 * w))).foldl (· + ·) 0
  else 0

/-- The MSI-X table and pending bits of a link (R314). -/
def readMsix (link o : Nat) (s : State) : Nat :=
  let l := s.link link
  if o < 0x8000 then
    if o / 16 < msixVectors s link then
      let e := Tab.getD l.msix (o / 16) {}
      if o % 16 < 8 then e.addr.toNat else e.data.toNat + atBit e.ctrl.toNat 32
    else 0
  else if 0x10000 ≤ o ∧ o < 0x10100 then
    ((List.range 64).map (fun b => if l.msixPend.contains ((o - 0x10000) * 8 + b) then 2 ^ b else 0)).foldl (· + ·) 0
  else 0

/-- Counters and trace (R471, R472). -/
def readCounters (o : Nat) (s : State) : Nat :=
  if o < 0x2800000 then counterOf s (o / 0x10000) (o % 0x10000 / 8)
  else if o < 0x3000000 then readTrace ((o - 0x2800000) / 16) (o / 8 % 2) s
  else 0

/-- The 8 bytes at an aligned offset of BAR 0, of a region that is active on the link and served in the device's state: during a
warm re-init MB_STATUS reads RUNNING 1, the fault collector reads normally and everything else reads 0 (R409); a HALTED
device serves the fault collector region alone (R405). -/
def reg8 (link off : Nat) (s : State) : Nat :=
  let mgr := link == mgrLink s
  let d := s.fc.dstate
  let mb (n o : Nat) : Nat :=
    if !mbLive s n || link != mbLink s n then 0
    else match d with
      | .normal => readMbox n o s
      | .reinit => if o = 0x2008 then (s.mbox n).lastSeq.toNat + atBit 1 16 else 0
      | .halted => 0
  if 0xC00000 ≤ off ∧ off < 0xC10000 then (if mgr then readFc (off - 0xC00000) s else 0)
  else if 0x300000 ≤ off ∧ off < 0xB04000 then mb ((off - 0x300000) / 0x4000) ((off - 0x300000) % 0x4000)
  else if d != .normal then 0
  else if off < 0x100000 then (if mgr then readMgr off s else 0)
  else if off < 0x300000 then
    let sl := (off - 0x100000) / 4096
    if off % 4096 = 0x10 ∧ (s.slice sl).st ≠ .free ∧ (s.slice sl).link = link then cqNoticeReg s sl else 0
  else if 0xD00000 ≤ off ∧ off < 0xD10000 then (if mgr then readSc (off - 0xD00000) s else 0)
  else if 0xE00000 ≤ off ∧ off < 0xE20000 then readMsix link (off - 0xE00000) s
  else if 0x1000000 ≤ off ∧ off < 0x4000000 then (if mgr then readCounters (off - 0x1000000) s else 0)
  else 0

/-- Whether a register accepts only aligned 8-byte reads: SSU_CQ_NOTICE (R69), counters (R471) and trace records (R472). -/
def only8 (off : Nat) : Bool := (decide (0x100000 ≤ off) && decide (off < 0x300000)) || decide (0x1000000 ≤ off)

/-- What a read of BAR 0 returns (R299): an aligned read of 4 or 8 bytes; any other returns 0. -/
def bar0Read (link off size : Nat) (s : State) : Word :=
  if size = 8 ∧ off % 8 = 0 then BitVec.ofNat 64 (reg8 link off s)
  else if size = 4 ∧ off % 4 = 0 ∧ !only8 off then BitVec.ofNat 64 (reg8 link (off / 8 * 8) s >>> (8 * (off % 8)) % 2 ^ 32)
  else 0

end Sys2Proof.Machine
end

