-- ==== Sys2Proof/Safety.lean ====
section
/-! DEFINITION. What the claims speak of: when a command meets nothing that turns it away, and what a halted device keeps. -/

namespace Sys2Proof.Machine

/-- The command removes VIN, or raises it anew (R451). -/
def vinChanges : Instr → Bool
  | .coldReset => true
  | .vinLoss => true
  | _ => false

/-- What was sent to a host, but for vector 2 of the manager link (R405). -/
def hostSent (s : State) : List Emission :=
  s.sent.filter (fun e => match e with
    | .host l (.msix v _ _) => !(v == 2 && l == mgrLink s)
    | .host _ _ => true
    | _ => false)

/-- What a halted device keeps (R405): its state, the fuses, its queues, completions and markers, and what the hosts got. -/
def haltKept (s t : State) : Prop :=
  t.fc.dstate = .halted ∧ t.castOnFuse = s.castOnFuse ∧ t.sqs = s.sqs ∧ t.cqs = s.cqs ∧ t.ops = s.ops ∧ t.markers = s.markers ∧
    hostSent t = hostSent s

/-- A doorbell write that R67 takes for a queue of context `ctx`, of an active page, by a running block. -/
def dbTaken (s : State) (link slice ctx : Nat) : Prop :=
  s.fc.dstate = .normal ∧ pageActive s link slice = true ∧ dbCtxOk s ctx slice = true

/-- A descriptor of an opcode that is next to start, with every condition of R85, R86 and R145 met, at its queue's turn (R355). -/
def startsNow (s : State) (sq idx opcode : Nat) (o : Op) : Prop :=
  s.op sq idx = some o ∧ o.opcode = opcode ∧ mayStart s sq idx = true ∧ schedTurn s sq = true ∧ admitted (s.ctx o.ctx) = true ∧
    (dSbWait (o.w 0) = false ∨ (localSq s o.ctx (dSbQueue (o.w 0))).isSome = true) ∧ o.stale = none ∧ qpGate s o = .run

/-- A mailbox command whose header and length pass (R369-R378), from a caller. -/
def cmdAdmitted (s : State) (mb : Mbox) (k : Cmd) (c : Caller) (a : List Word) : Prop :=
  let m := s.mbox (mbNum mb)
  let h := m.req.getD 0 0
  m.running = true ∧ fld h 15 0 = k.opcode ∧ s.fc.dstate = .normal ∧ mbLive s (mbNum mb) = true ∧ a = m.req.drop 2 ∧
    cmdCaller s (mbNum mb) k h = .inl c ∧ fld h 31 16 % 8 = 0 ∧ fld h 31 16 ≤ 8 * k.len a

/-- The state in which a command has answered OK with results. -/
def answered (mb : Mbox) (rs : List Word) (s : State) : State :=
  mbFinish (mbNum mb) 0 0 rs (forgetSeen (.command (mbNum mb)) s)

/-- A packet that passes the tests of R145, R150 and R152, and is not a NAK. -/
def packetTaken (s : State) (p : ErtPkt) : Bool := match rxGate p false s with | .take => true | _ => false

/-- A packet that its QP takes as NEW (R158). -/
def packetNew (s : State) (p : ErtPkt) : Bool :=
  let q := s.qp p.hdr.dstQpn.toNat
  packetTaken s p && classify q p.hdr.psn == .new && !q.held.any (fun h => h.1.hdr.psn == p.hdr.psn)

/-- The state in which the tests on an arriving ERT packet run: its frame is counted (R474). -/
def arrived (p : ErtPkt) (s : State) : State := count 524 (32 * p.lport + 1) s

/-- The state in which a NEW packet of a QP is looked at: the QP's record is in the State Cache. -/
def packetIn (p : ErtPkt) (s : State) : State := touchQp p.hdr.dstQpn.toNat (arrived p s)

/-- A request of a peer on a range of one of the device's windows that passes its checks in state `t`: its window admits it, and the
translation of its range ends at once, which leaves state `u` (R159). -/
def requestOk (n : Nat) (p : ErtPkt) (k : ReqKind) (r : Nat × Nat) (t u : State) : Prop :=
  winCheck t n p.hdr.window k [r] none = none ∧ ∃ e b v,
    xlateRange (.place n p.hdr.psn) (.qp n) (reqAcc t k (t.win (winIndex p.hdr.window)) r.1 r.2) [] (xfuel r.2) 0 r.2 t = (.ok e b, v) ∧
    u = forgetSeen (.place n p.hdr.psn) v

/-- A RoCEv2 packet that passes the tests of R145, R182 and R203, for a QP that is connected. -/
def roceTaken (s : State) (p : RocePkt) : Prop :=
  let n := p.dstQp.toNat - 0x20000
  s.fc.dstate = .normal ∧ roceNoRoom (count 524 (32 * p.lport + 1) s) p = false ∧ 0x20000 ≤ p.dstQp.toNat ∧ (Tab.get s.qps n).isSome = true ∧ p.icrcOk = true ∧ (s.qp n).mode = .roce ∧
    (s.qp n).remoteAddrs.contains p.src = true ∧ ((s.qp n).st = .active ∨ (s.qp n).st = .held)

/-- An aligned write on the manager link to a running block. -/
def regTaken (s : State) (w : RegWrite) : Prop := s.fc.dstate = .normal ∧ w.link = mgrLink s ∧ w.aligned = true

/-- A contribution in units of 2^-160; 0 where it is no finite value (R267). -/
def Num.units : Num → Int
  | .fin neg num den => rowUnits neg num den
  | _ => 0

/-- A finite contribution. -/
def Num.finite : Num → Bool
  | .fin _ _ _ => true
  | _ => false

/-- Signals applied to a marker record one after another (R50, R51). -/
def signals (m : Marker) (vs : List Word) : Marker := vs.foldl (fun m v => (signalRecord m v).2) m

/-- A signal of a legal value, below 2^63 (R51). -/
def legalSignal (v : Word) : Prop := v.toNat < 2 ^ 63

end Sys2Proof.Machine
end

