-- ==== Sys2Proof/Certificates/Slice0/Obligations.lean ====
section
/-! DEFINITION. The statements for the provers. -/

open Sys2Proof Sys2Proof.Machine

/-- The block's queue rule: a step with a command at the front of the queue is that command's meaning, on the state with the
queue's rest. On an empty queue the block idles for one tick of the transport stamp and does nothing else. The queue and the tick are
the model's own (a block has no program; log 17). -/
def Obligations.StepRunsTheFrontCommand : Prop :=
  (∀ (c : Instr) (rest : List Instr) (s : State), step { s with pending := c :: rest } = exec c { s with pending := rest }) ∧
  (∀ s : State, s.pending = [] → step s = .next { s with ticks := s.ticks + 1 })

/-- Registers after reset, at the values the spec's register tables give. That Foundation is not ready, with debug level 0, and that no
command waits, is the model's (log 16, log 17). -/
def Obligations.ResetRegisterValues : Prop :=
  State.reset.tcWeight = 0x0808103040402010#64 ∧ State.reset.tcDscp = 0x60829A922BB0#48 ∧
    State.reset.tension = 0x20C10B#22 ∧ State.reset.trkRsv = 0x0404081008100701#64 ∧
    State.reset.pfcEn = 0#12 ∧ State.reset.pfcPrio = 3 ∧ State.reset.xoff = 512 ∧ State.reset.xon = 384 ∧
    State.reset.fc.ftErrn = true ∧ State.reset.fc.fenceLimit = 3 ∧ State.reset.fc.traceFreeze = true ∧
    State.reset.fc.dstate = .normal ∧ State.reset.fc.lastFtSource = 0x3F ∧ State.reset.fc.status = 0#60 ∧
    State.reset.sc.rate = 10 ∧ State.reset.sc.scrubOn = true ∧ State.reset.castOn.st = .waiting ∧
    State.reset.fnd.debug = 0 ∧ State.reset.fnd.ready = false ∧ State.reset.pending = []

/-- Every command ends in a next state: no command of the model stops it (R405: a halted device still answers). -/
def Obligations.EveryCommandAnswersANextState : Prop :=
  ∀ (i : Instr) (s : State), ∃ t, exec i s = .next t

/-- Accepted SQ doorbells (R70): a new index within the ring is taken; a stale or repeated one is ignored; one beyond the
ring holds the queue. During a warm re-init the last value is recorded (R409). -/
def Obligations.SqDoorbellTakesAStaleOrHolds : Prop :=
  ∀ (w : DbWrite) (s : State),
    let n := fld w.value 15 0
    let pi := BitVec.ofNat 24 (fld w.value 39 16)
    let q := s.sq n
    w.aligned8 = true → q.st ≠ .free → pageActive s w.link w.slice = true → dbCtxOk s q.ctx w.slice = true →
    (s.fc.dstate = .normal → q.st = .active →
      exec (.ssuSqDb w) s = .next (
        if 2 ^ 23 ≤ ringDiff pi q.fi ∨ ringDiff pi q.fi ≤ ringDiff q.pi q.fi then pumpFetch n s
        else if q.size < ringDiff pi q.fi then holdSq n .doorbellRange s
        else pumpFetch n (s.updSq n (fun q => { q with pi := pi })))) ∧
    (s.fc.dstate = .normal → q.st = .closed → exec (.ssuSqDb w) s = .next s) ∧
    (s.fc.dstate = .normal → q.st = .held → (q.cause = .doorbellAhead ∨ q.cause = .ringRead) →
      (2 ^ 23 ≤ ringDiff pi q.fi ∨ ringDiff pi q.fi ≤ ringDiff q.pi q.fi) →
      exec (.ssuSqDb w) s = .next (pumpFetch n (resumeSq n s))) ∧
    (s.fc.dstate = .reinit → exec (.ssuSqDb w) s = .next { s with heldSq := Tab.put s.heldSq n pi })

/-- Accepted CQ doorbells (R68): C moves to an index between C and W, ARM is added, and what waits is written; an index
outside is dropped whole, ARM included, and counted in the slice's doorbell-drop counter. -/
def Obligations.CqDoorbellMovesTheConsumerOrIsDropped : Prop :=
  ∀ (w : DbWrite) (s : State),
    let n := fld w.value 15 0
    let c := BitVec.ofNat 24 (fld w.value 39 16)
    let q := s.cq n
    w.aligned8 = true → q.active = true → dbTaken s w.link w.slice q.ctx →
    (ringDiff c q.c ≤ ringDiff q.w q.c →
      exec (.ssuCqDb w) s = .next (cqFlush n (s.updCq n (fun q => { q with c := c, arm := q.arm || w.value.getLsbD 40 })))) ∧
    (ringDiff q.w q.c < ringDiff c q.c → exec (.ssuCqDb w) s = .next (count w.slice 0 s))

/-- R67: a doorbell that is not one aligned 8-byte write has no effect beyond the slice's drop counter, and so has one
for a queue whose context is DRAINING or FREE. -/
def Obligations.DroppedDoorbellOnlyCounts : Prop :=
  ∀ (w : DbWrite) (s : State), s.fc.dstate = .normal → pageActive s w.link w.slice = true →
    (w.aligned8 = false ∨ (s.ctx (s.sq (fld w.value 15 0)).ctx).st = .draining ∨ (s.ctx (s.sq (fld w.value 15 0)).ctx).st = .free →
      exec (.ssuSqDb w) s = .next (count w.slice 0 s)) ∧
    (w.aligned8 = false ∨ (s.ctx (s.cq (fld w.value 15 0)).ctx).st = .draining ∨ (s.ctx (s.cq (fld w.value 15 0)).ctx).st = .free →
      exec (.ssuCqDb w) s = .next (count w.slice 0 s)) ∧
    (w.aligned8 = false → exec (.ssuCqNoticeAck w) s = .next (count w.slice 0 s))

/-- A push doorbell (R71): the pushed copy is executed where the queue stands still at the descriptor's row, and is an
ordinary doorbell otherwise; a stale one is ignored. -/
def Obligations.PushDoorbellExecutesTheCopyOrRings : Prop :=
  ∀ (w : PushWrite) (s : State),
    let d := w.words.getD 0 0
    let n := dQueue d
    let q := s.sq n
    let rel := (dRow d + 65536 - q.fi.toNat % 65536) % 65536
    w.aligned64 = true → w.words.length = 8 → q.st ≠ .free → dbTaken s w.link w.slice q.ctx →
    (2 ^ 15 ≤ rel → exec (.ssuPush w) s = .next s) ∧
    (rel = 0 → q.st = .active → q.pi = q.fi → dExt d = false → q.fetch = .idle → storeRoom s n = true → admitted (s.ctx q.ctx) = true →
      exec (.ssuPush w) s =
        .next (shadowIfDue n (acceptDesc n q.fi.toNat w.words (s.updSq n (fun q => { q with pi := q.fi + 1, fi := q.fi + 1 }))))) ∧
    (rel < 2 ^ 15 → q.st ≠ .active ∨ q.pi ≠ q.fi ∨ rel ≠ 0 ∨ dExt d = true ∨ q.fetch ≠ .idle →
      exec (.ssuPush w) s = .next (sqDoorbell n (q.fi + BitVec.ofNat 24 rel + 1) s))

/-- Ring reads (R72-R74, R76): matching data is taken at FI, a mismatch is read again, a re-read before the eighth that
mismatches again is counted, the eighth holds the queue, a poisoned read fails the fetch, and a queue that no longer
fetches drops what comes. -/
def Obligations.RingReadTakesRereadsOrHolds : Prop :=
  (∀ (sq k : Nat) (s : State), (s.sq sq).fetch = .reading k → s.fc.dstate = .normal → sqFetches (s.sq sq) = true →
    (∀ ws, ws.length = 8 * k →
      let s' := freeReqs (.ring sq) k s
      exec (.descriptorFetch sq (.words ws)) s = .next (if rowOk ws (s'.sq sq).fi then takeSlots sq ws s' else issueRereads sq k s')) ∧
    exec (.descriptorFetch sq .poison) s = .next (ringFailed sq true (freeReqs (.ring sq) k s))) ∧
  (∀ (sq k : Nat) (r : RingRead) (s : State), (s.sq sq).fetch = .reading k → s.fc.dstate = .normal → sqFetches (s.sq sq) = false →
    exec (.descriptorFetch sq r) s = .next (ringDropped sq k r s)) ∧
  (∀ (sq slots seen j : Nat) (s : State), (s.sq sq).fetch = .reread slots seen → s.fc.dstate = .normal → sqFetches (s.sq sq) = true →
    (∀ ws, ws.length = 8 * slots → rowOk ws (s.sq sq).fi = true → wantsSecond ws = false →
      exec (.rowReread sq j (.words ws)) s = .next (takeSlots sq ws (freeReqs (.ring sq) 32 s))) ∧
    (∀ ws, ws.length = 8 * slots → rowOk ws (s.sq sq).fi = false → seen < 7 →
      exec (.rowReread sq j (.words ws)) s =
        .next ((freeReqs (.ring sq) slots s).updSq sq (fun q => { q with fetch := .reread slots (seen + 1) }))) ∧
    (∀ ws, ws.length = 8 * slots → rowOk ws (s.sq sq).fi = false → 7 ≤ seen →
      exec (.rowReread sq j (.words ws)) s = .next (holdSq sq .doorbellAhead (freeReqs (.ring sq) 32
        ((freeReqs (.ring sq) slots s).updSq sq (fun q => { q with fetch := .idle }))))) ∧
    exec (.rowReread sq j .poison) s = .next (ringFailed sq true (freeReqs (.ring sq) 32 s)))

/-- Descriptors that start and are their own effect or begin their work extents (R79, R93): a `NOP` and a local `MARKER_SIGNAL`
complete GOOD with one landed extent; the others run the extents they divide into. A start is charged to its slice's credit, a
descriptor whose queue's turn has not come stays, and a new round gives each slice with a runnable queue as many starts
as SCHED_WEIGHT says, and any other none (R355). When a round begins, and that a weight of 0 gives one start, is the model's
choice (log 102). -/
def Obligations.StartedDescriptorsRunTheirExtents : Prop :=
  ∀ (s : State) (sq idx : Nat) (o : Op),
    let run (work : Op → List WorkExt) : State := (count 520 5 s).updOp sq idx (fun o => { o with stage := .running, work := work o })
    let empty : State := schedTake sq idx s (completeOp sq idx stGood 0 (run (fun _ => oneExtent)))
    let effect : State := schedTake sq idx s (startExts sq idx (run Op.splits))
    (startsNow s sq idx 0x00 o → exec (.nop sq idx) s = .next empty) ∧
    (startsNow s sq idx 0x01 o → exec (.copy sq idx) s = .next effect) ∧
    (startsNow s sq idx 0x02 o → exec (.fill sq idx) s = .next effect) ∧
    (startsNow s sq idx 0x03 o → exec (.convert sq idx) s = .next effect) ∧
    (startsNow s sq idx 0x10 o → exec (.writeRemote sq idx) s = .next effect) ∧
    (startsNow s sq idx 0x11 o → exec (.readRemote sq idx) s = .next effect) ∧
    (startsNow s sq idx 0x12 o → exec (.send sq idx) s = .next effect) ∧
    (startsNow s sq idx 0x18 o → exec (.atomicFadd sq idx) s = .next effect) ∧
    (startsNow s sq idx 0x19 o → exec (.atomicCas sq idx) s = .next effect) ∧
    (startsNow s sq idx 0x30 o → earlierDone s sq idx = true → dWindow (o.w 5) = 0 →
      exec (.markerSignal sq idx) s = .next empty) ∧
    (startsNow s sq idx 0x30 o → earlierDone s sq idx = true → dWindow (o.w 5) ≠ 0 →
      exec (.markerSignal sq idx) s = .next effect) ∧
    (schedTurn s sq = false → exec (.nop sq idx) s = .next s ∧ exec (.copy sq idx) s = .next s ∧ exec (.writeRemote sq idx) s = .next s ∧
      exec (.markerWait sq idx) s = .next s ∧ exec (.triggerArm sq idx) s = .next s ∧ exec (.collective sq idx) s = .next s) ∧
    ((∀ x ∈ runnableSlices s, (s.slice x).credit = 0) → ∀ sl,
      ((newRound s).slice sl).credit =
        if (Tab.get s.slices sl).isNone then 0 else if sl ∈ runnableSlices s then max 1 ((s.slice sl).quota.getD 10 0) else 0)

/-- `INVALIDATE` (R127, R129): an invalidation of a panel or range starts on its panel and waits for the panel's old uses;
INVALIDATE_DRAINED completes a running one once they have ended (R128). -/
def Obligations.InvalidateStartsAndDrains : Prop :=
  (∀ (s : State) (sq idx : Nat) (o : Op), startsNow s sq idx 0x40 o → invKind o ≠ 2 →
    canInvalidate s o.ctx (invScope s o).1 = true →
    let s' := startInvalidate o.ctx (invScope s o).1 (invScope s o).2 s
    exec (.invalidate sq idx) s = .next (schedTake sq idx s (count 520 5 (s'.updOp sq idx (fun o' =>
      { o' with stage := .running, work := [{ off := 0, len := 0 }]
                invAt := some ((invScope s o).1, ((s'.ctx o.ctx).panel (invScope s o).1).tgen) }))))) ∧
  (∀ (s : State) (sq idx : Nat) (o : Op), s.op sq idx = some o → o.opcode = 0x40 → o.done = false → o.stage = .running →
    o.stop = none → s.fc.dstate = .normal → invDrained s o = true →
    exec (.invalidateDrained sq idx) s = .next (completeOp sq idx stGood 0 (s.updOp sq idx (fun o => { o with work := oneExtent }))))

/-- `MARKER_WAIT` (R52, R88, R90): a satisfied wait completes GOOD with the VALUE read, a failed one completes MARKER_ERROR with
the STATUS and holds the queue WAIT_FAILED, and a pending one takes a wait entry. -/
def Obligations.MarkerWaitFollowsItsMarker : Prop :=
  ∀ (s : State) (sq idx : Nat) (o : Op) (r : MarkRef), startsNow s sq idx 0x31 o → o.woke = none → o.wait = some r →
    o.stage ≠ .waiting → markLive s r = true →
    let m := markerAt s r.key
    let started (t : State) : State := schedTake sq idx s t
    (waitState m (o.w 3).toNat = .satisfied → exec (.markerWait sq idx) s =
      .next (started (completeOp sq idx stGood 0 (count 520 5 (s.updOp sq idx (fun o =>
        { o with stage := .running, work := oneExtent, result := m.value })))))) ∧
    (waitState m (o.w 3).toNat = .failed → exec (.markerWait sq idx) s =
      .next (started (completeOp sq idx stMarkerError (BitVec.ofNat 64 m.status).toNat
        ((holdSq sq .waitFailed s).updOp sq idx (fun o => { o with upstream := true }))))) ∧
    (waitState m (o.w 3).toNat = .pending → mwaitFree s (s.ctx o.ctx).slice ≠ 0 → skeinsWaiting s = [] →
      exec (.markerWait sq idx) s =
        .next (started (s.updOp sq idx (fun o => { o with stage := .waiting, mwait := 1, target := o.w 3 }))))

/-- Triggered work (R97-R101): an arm whose armed descriptor passes its checks attaches it; a fired descriptor runs, or
completes MARKER_ERROR where its marker failed. -/
def Obligations.TriggersArmAndFire : Prop :=
  (∀ (s s' : State) (sq idx : Nat) (o b : Op) (r : MarkRef), startsNow s sq idx 0x38 o → trgMarker o = true → o.wait = some r →
    markLive s r = true → mwaitFree s (s.ctx o.ctx).slice ≠ 0 → skeinsWaiting s = [] →
    checkArmed (.accept (sq + 65536) idx) sq (armedHalf o s.ticks) s = (.ok b, s') →
    exec (.triggerArm sq idx) s =
      .next (schedTake sq idx s (attach sq idx o b (count 520 5 (forgetSeen (.accept (sq + 65536) idx) s'))))) ∧
  (∀ (s : State) (sq idx : Nat) (o : Op), s.op (sq + 65536) idx = some o → o.done = false → o.stage = .armed → s.fc.dstate = .normal →
    (∀ v, o.woke = some (true, v) → exec (.triggerFire sq idx) s = .next (fire sq idx o s)) ∧
    (∀ v, o.woke = some (false, v) → exec (.triggerFire sq idx) s =
      .next (completeOp (sq + 65536) idx stMarkerError v.toNat (s.updOp (sq + 65536) idx (fun o => { o with upstream := true })))))

/-- `SKEIN` and `COLLECTIVE` start (R211-R213, R261): a skein whose list and map are read begins where every entry is in range, and
completes SKEIN_BLOCK_RANGE where one is not; a member of an ACTIVE group starts the next collective in its order, and one that is
behind that order completes COLL_SEQ. -/
def Obligations.SkeinsAndCollectivesBegin : Prop :=
  (∀ (s : State) (sq idx : Nat) (o : Op) (l m : List Word) (slot : Nat), startsNow s sq idx 0x20 o → skeinSlot s = some slot → skTrigMo o = 0 →
    l.length = skNBlk o → m.length = skNBlk o →
    (skEntryFail s o (l.map dCva) (m.map dOff) = none → exec (.skein sq idx (some l) (some m)) s =
      .next (schedTake sq idx s (skBegin sq idx slot (l.map dCva) (m.map dOff) o.skein.marks (count 520 5 s)))) ∧
    (∀ d, skEntryFail s o (l.map dCva) (m.map dOff) = some d → exec (.skein sq idx (some l) (some m)) s =
      .next (schedTake sq idx s (completeOp sq idx stSkeinBlockRange d (count 520 5 s))))) ∧
  (∀ (s : State) (sq idx : Nat) (o : Op), startsNow s sq idx 0x21 o → (s.group (pcGroup o)).st = .active →
    (s.group (pcGroup o)).slice = (s.ctx o.ctx).slice →
    ((pcSeq o + 2 ^ 20 - (s.group (pcGroup o)).nextSeq.toNat) % 2 ^ 20 = 0 → (s.group (pcGroup o)).colls.length < 16 →
      exec (.collective sq idx) s = .next (schedTake sq idx s (collStart sq idx (count 520 5 s)))) ∧
    (2 ^ 19 ≤ (pcSeq o + 2 ^ 20 - (s.group (pcGroup o)).nextSeq.toNat) % 2 ^ 20 →
      exec (.collective sq idx) s = .next (schedTake sq idx s (completeOp sq idx stCollSeq (s.group (pcGroup o)).nextSeq.toNat s))))

/-- OPERATION_COMPLETE (R96, R403): an operation whose extents have ended completes with the status that stopped it, GOOD
where every extent landed, or PARTIAL. A skein is one where it has nothing left to send (R214). -/
def Obligations.EndedOperationCompletes : Prop :=
  ∀ (s : State) (sq idx : Nat) (o : Op), s.op sq idx = some o → o.done = false → o.stage = .running → s.fc.dstate = .normal →
    allEnded o = true → o.fence ≠ 1 → o.opcode ≠ 0x21 → (o.opcode = 0x20 → skEnd sq idx s = s) →
    (∀ st d, o.stop = some (st, d) → exec (.operationComplete sq idx) s = .next (completeOp sq idx st d s)) ∧
    (o.stop = none → (∀ e ∈ o.work, e.st = .landed) → exec (.operationComplete sq idx) s = .next (completeOp sq idx stGood 0 s)) ∧
    (o.stop = none → (∃ e ∈ o.work, e.st ≠ .landed) → exec (.operationComplete sq idx) s = .next (completeOp sq idx stPartial o.detail s))

/-- Completion-queue timers, the acknowledgement of a notice, and the end of a queue (R66, R69, R76, R477). -/
def Obligations.CompletionQueueTimers : Prop :=
  ∀ (s : State) (n : Nat), s.fc.dstate = .normal →
    let q := s.cq n
    (q.active = true → q.waiting ≠ [] → (cqRoom q = false ∨ q.unwritable = true) → q.notice = false →
      exec (.cqFullTimeout n) s = .next (sliceMsix (s.ctx q.ctx).slice q.vector
        (count (s.ctx q.ctx).slice 2 (s.updCq n (fun q => { q with notice := true }))))) ∧
    (∀ r, q.active = true → (s.ctx q.ctx).st = .draining → cqRoom q = false → q.unwritable = false →
      q.waiting.find? recEnded = some r → exec (.cqDrainDiscard n) s = .next (cqFlush n (dropRecord n r s))) ∧
    (q.active = true → q.unwritable = true → q.waiting ≠ [] → exec (.cqWriteRetry n false) s = .next (cqFlush n s)) ∧
    (∀ w : DbWrite, n = fld w.value 15 0 → w.aligned8 = true → pageActive s w.link w.slice = true → q.active = true →
      (s.ctx q.ctx).slice = w.slice → exec (.ssuCqNoticeAck w) s = .next (s.updCq n (fun q => { q with notice := false }))) ∧
    (sqIdle s n = true →
      let s' : State := { s with ops := s.ops.filter (fun e => e.1 / 16777216 % 65536 != n) }
      exec (.queueFree n) s = .next (writeShadow n (s'.updSq n (fun q => { q with st := .free, cause := .none }))))

/-- WALK_DONE (R110, R115): the slot is free for the next walk, and the requester goes on where its page is known. -/
def Obligations.WalkReturnsToItsRequester : Prop :=
  ∀ (s : State) (w : Nat) (r : WalkRead) (k : Walk), s.fc.dstate = .normal → Tab.get s.xlt.walks w = some k →
    let x := walkTake (walkGroup s w) k r (freeReqs (.walk w) 1 (s.updXlt (fun x => { x with walks := Tab.del x.walks w })))
    exec (.walkDone w r) s = .next (if x.1 then resume k.purp (pumpWalks 256 x.2) else pumpWalks 256 x.2)

/-- The fault ring's registers (R134, R136): SIZE and BASE change only while ENABLE is 0, a LOG_SIZE outside 6 to 16 keeps the field,
and XLT_FRING_DB sets C and ARM. -/
def Obligations.FaultRingRegisters : Prop :=
  ∀ (w : RegWrite) (s : State), s.fc.dstate = .normal → w.link = mgrLink s → w.aligned = true → w.size = 8 →
    (s.xlt.enable = true →
      exec (.xltFringCfg w) s = .next (s.updXlt (fun x => { x with enable := w.value.getLsbD 0 }))) ∧
    (s.xlt.enable = false → w.value.getLsbD 0 = false → ∃ t, exec (.xltFringCfg w) s = .next t ∧ t.xlt.enable = false ∧
      t.xlt.ringBase = BitVec.ofNat 52 (fld w.value 63 12) ∧
      t.xlt.logSize = (if 6 ≤ fld w.value 5 1 ∧ fld w.value 5 1 ≤ 16 then fld w.value 5 1 else s.xlt.logSize) ∧
      t = { s with xlt := t.xlt }) ∧
    exec (.xltFringDb w) s = .next (fringScan (s.updXlt (fun x =>
      { x with c := BitVec.ofNat 24 (fld w.value 23 0), arm := x.arm || w.value.getLsbD 24 })))

/-- Resolutions (R137, R138): RETRY takes a present entry, and raises the fault again over one that is not; FAIL and the
timer of a reported fault end it. A stale name only counts. -/
def Obligations.FaultResolutions : Prop :=
  (∀ (w : RegWrite) (s : State), s.fc.dstate = .normal → w.link = mgrLink s → w.aligned = true → w.size = 8 →
    (∀ e f x, fld w.value 53 52 = 0 → resolveEntry s w.value = some (e, f) → inHbm s (entryAt s f.ctx f.panel f.page) 8 = true →
      cePresent x = true →
      exec (.faultResolveRetry w (.entry x)) s =
        .next (resolved e f (takeEntry (walkGroup s (gapFrom 0 (s.xlt.walks.map (·.1)))) (f.joiners.map (·.purp))
          f.ctx f.panel f.page x (count 521 0 s)))) ∧
    (∀ e f x, fld w.value 53 52 = 0 → resolveEntry s w.value = some (e, f) → inHbm s (entryAt s f.ctx f.panel f.page) 8 = true →
      cePresent x = false →
      exec (.faultResolveRetry w (.entry x)) s = .next (reportFault e ((count 521 0 s).updXlt (fun y =>
        { y with faults := Tab.adj y.faults e (fun f => { f with rep := min 15 (f.rep + 1) }) })))) ∧
    (∀ e f, fld w.value 53 52 = 1 → resolveEntry s w.value = some (e, f) →
      exec (.faultResolveFail w) s = .next (resolved e f (noteJoiners f .faultFailed s))) ∧
    (fld w.value 53 52 = 1 → resolveEntry s w.value = none → exec (.faultResolveFail w) s = .next (count 521 6 s))) ∧
  (∀ (s : State) (n : Nat) (f : PFault), s.fc.dstate = .normal → Tab.get s.xlt.faults n = some f → f.reported = true →
    exec (.faultTimeout n) s = .next (contextLost f.ctx 1 (expireFault n s)))

/-- The end of contexts, objects and windows (R32, R36, R43, R47): an idle draining context without records, windows or
objects left sends its tag's rejection; 2 s of draining abort it; a retired object without uses and a retired window without
trackers return to their free lists. -/
def Obligations.LifecyclesEnd : Prop :=
  (∀ (s : State) (c : Nat), ctxIdle s c = true → s.fc.dstate = .normal → ctxCqs s c = [] → ctxWins s c = [] → ctxMos s c = [] →
    exec (.contextFree c) s = .next (
      if ((tagUpdate c false s).ctx c).tagWait.isEmpty then ctxFreed c (tagUpdate c false s) else tagUpdate c false s)) ∧
  (∀ (s : State) (c : Nat), s.fc.dstate = .normal → (s.ctx c).st = .draining → (s.ctx c).abort = false →
    exec (.ctxDrainTimeout c) s = .next (abortCtx c s)) ∧
  (∀ (s : State) (i : Nat), s.fc.dstate = .normal → (s.mo i).st = .retiring → moUnused s i = true → s.fnd.sealTab = [] →
    (s.mo i).drain = none →
    exec (.moRetired i) s = .next { s.updMo i (fun o => { gen := o.gen, inv := o.inv, owner := some ((s.ctx o.ctx).slice, (s.slice (s.ctx o.ctx).slice).gen) }) with
      moFree := s.moFree ++ [i] }) ∧
  (∀ (s : State) (i : Nat), s.fc.dstate = .normal → (s.win i).st = .retiring → (s.win i).trackers = 0 → (s.win i).drain = none →
    exec (.windowFreed i) s = .next { s.updWin i (fun w => { gen := w.gen }) with winFree := s.winFree ++ [i] })

/-- Rumel's error binding (R59, R60): the oldest job's error is written in order to those of its markers whose object has not retired,
each where its record lies now (log 116). -/
def Obligations.ErrorBindingServesTheOldestJob : Prop :=
  ∀ (s : State) (j : BindJob) (rest : List BindJob), s.bindJobs = j :: rest → s.fc.dstate = .normal → j.code.toNat ≠ meSliceBoundOff →
    exec .firmwareErrorBinding s =
      .next ((j.marks.filter (markValid s)).foldl (fun s r => applyError (markNow s r) j.code.toNat j.detail.toNat s)
        { s with bindJobs := rest })

/-- The tag fence (R124, R125): the last acknowledgement of a rejected tag frees its draining context; a violation of a tag
that is not rejected loses the context with cause 4, and one of a rejected tag is only counted. -/
def Obligations.TagFenceAnswers : Prop :=
  (∀ (s : State) (p c : Nat) (q : BitVec 8), s.fc.dstate ≠ .halted →
    (s.die p).updates.find? (fun u => u.1 == q) = some (q, c) → (s.ctx c).tagWait = [p] → (s.ctx c).rejecting = true →
    (s.ctx c).st = .draining →
    exec (.tfAck p q) s = .next (ctxFreed c ((s.updDie p (fun d => { d with updates := d.updates.erase (q, c) })).updCtx c
      (fun c => { c with tagWait := c.tagWait.filter (· ≠ p) })))) ∧
  (∀ (s : State) (p c : Nat) (q : BitVec 8) (r : Nat) (rs : List Nat), s.fc.dstate ≠ .halted →
    (s.die p).updates.find? (fun u => u.1 == q) = some (q, c) → (s.ctx c).tagWait.filter (· ≠ p) = r :: rs →
    exec (.tfAck p q) s = .next ((s.updDie p (fun d => { d with updates := d.updates.erase (q, c) })).updCtx c
      (fun c => { c with tagWait := c.tagWait.filter (· ≠ p) }))) ∧
  (∀ (s : State) (p : Nat) (tag : BitVec 24) (dpa : BitVec 44), s.fc.dstate ≠ .halted →
    let c := fld tag 14 3
    let s' := count 526 (64 * (6 * p) + 5) s
    (accessTag s c = tag → (s.ctx c).st ≠ .free → (s.ctx c).rejecting = false →
      exec (.tfViolation p tag dpa) s = .next (contextLost c 4 s')) ∧
    ((s.ctx c).rejecting = true → exec (.tfViolation p tag dpa) s = .next (count 521 8 s')))

/-- ERT requests and data that pass every check (R155, R158-R165, R174): a `WRITE` is placed in its window, a `SEND` in its receive
slot, and a `READ_REQ` or an `ATOMIC` is accepted and waits for its delivery. -/
def Obligations.DataPacketsThatPassTheirChecksAreTaken : Prop :=
  ∀ (p : ErtPkt) (s : State), packetNew (arrived p s) p = true →
    let n := p.hdr.dstQpn.toNat
    let t := packetIn p s
    (∀ data short i t', p.hdr.op = 0 → rxPayload p = some (data, short) → flagsLegal p.hdr = true →
      (short = true → fLast p.hdr.flags = true) →
      winCheck t n p.hdr.window .write (writeRanges p.hdr data.length) ((findTracker t n p.hdr.msgId false).map (·.2.window)) = none →
      trackerFor n p { newTracker n p 0 .window t with window := p.hdr.window } t = some (i, t') →
      exec (.write p) s = .next (writeInto n p i data t')) ∧
    (∀ data short i t', p.hdr.op = 1 → rxPayload p = some (data, short) → flagsLegal p.hdr = true →
      (short = true → fLast p.hdr.flags = true) → (fLast p.hdr.flags = true → data.length ≤ p.hdr.offsetLen.toNat) →
      (s.qp n).rxMo ≠ 0 → (pktLen p.hdr).getD 0 ≤ (rxSlot t (s.qp n) p.hdr.window).2 →
      otherOff p.hdr data.length + data.length ≤ (rxSlot t (s.qp n) p.hdr.window).2 → rxSlotFree t (s.qp n) p.hdr.window = true →
      trackerFor n p { newTracker n p 1 .ring t with rxSeq := p.hdr.window } t = some (i, t') →
      exec (.rxSend p) s = .next (sendInto n p i data t')) ∧
    (∀ i u t', let r := (beWord p.payload 0, beWord p.payload 1)
      p.hdr.op = 2 → readReqBad p = false → requestOk n p .read r t u →
      rxTracker (requestTracker n p r u) u = some (i, t') →
      exec (.readReq p) s = .next (completeMsg i true (consume n p t'))) ∧
    (∀ i u t', let r := (pktAopOff p, aopBytes (pktAop p))
      p.hdr.op = 4 → atomicBad p = false → requestOk n p (if pktAop p = 4 then .signal else .atomic) r t u →
      rxTracker (requestTracker n p r u) u = some (i, t') →
      exec (.atomic p) s = .next (completeMsg i true (consume n p t')))

/-- ERT responses (R160, R165, R171): the bytes of a `READ_RESP` go to the operation that asked for them, and an `ATOMIC_RESP` ends its
operation; one without a tracker is consumed and counted. -/
def Obligations.ResponsesReachTheirOperations : Prop :=
  ∀ (p : ErtPkt) (s : State), packetNew (arrived p s) p = true →
    let n := p.hdr.dstQpn.toNat
    let t := packetIn p s
    (∀ i k sq idx ext o data short, p.hdr.op = 3 → findTracker t n p.hdr.msgId true = some (i, k) → k.use = .readResp sq idx ext →
      rxPayload p = some (data, short) → t.op sq idx = some o → flagsLegal p.hdr = true → (short = true → fLast p.hdr.flags = true) →
      (fFirst p.hdr.flags = true ∨ fLast p.hdr.flags = true → p.hdr.offsetLen.toNat = k.msgLen.getD 0) →
      otherOff p.hdr data.length + data.length ≤ k.msgLen.getD 0 →
      exec (.readResp p) s = .next (respInto n p i sq idx ext o k data t)) ∧
    (∀ i k sq idx, p.hdr.op = 5 → findTracker t n p.hdr.msgId true = some (i, k) → k.use = .atomicResp sq idx →
      exec (.atomicResp p) s = .next (atomicAnswer p sq idx (closeTracker i (consume n p t)))) ∧
    (findTracker t n p.hdr.msgId true = none →
      (p.hdr.op = 3 → exec (.readResp p) s = .next (count 522 (64 * (s.qp n).needle.getD 0 + 9) (consume n p t))) ∧
      (p.hdr.op = 5 → exec (.atomicResp p) s = .next (count 522 (64 * (s.qp n).needle.getD 0 + 9) (consume n p t))))

/-- ERT control packets at a sender: `ACK` (R167), `NAK` by its code (R170, R176), `GRANT` (R192) and RESUME (R180). -/
def Obligations.AcknowledgementsAndRefusalsReachTheSender : Prop :=
  ∀ (p : ErtPkt) (s : State), packetTaken (arrived p s) p = true →
    let n := p.hdr.dstQpn.toNat
    let t := arrived p s
    let code := bits (beWord p.payload 0) 7 0
    (p.hdr.op = 6 → p.payload.length = 40 → exec (.ack p) s = .next (takeAck n p t)) ∧
    (p.hdr.op = 7 → code = 39 → exec (.nak p) s = .next (qpError n 4 none t)) ∧
    (∀ f, p.hdr.op = 7 → (s.qp n).flight.find? (fun f => f.psn == p.hdr.psn) = some f →
      (code = 2 ∨ code = 3 → exec (.nak p) s = .next (t.updQp n (fun q => { q with
        flight := q.flight.map (fun x => if x.psn == f.psn then { x with retryWait := true } else x) }))) ∧
      (code = 16 → exec (.nak p) s = .next (afterAck n ((flightFail n f t).updQp n (fun q => q.ackFlights (fun x => x.psn == f.psn))))) ∧
      (code = 32 → exec (.nak p) s = .next (qpError n 5 ((flightOp (s.qp n) f).map (fun k => (k.1, k.2, stStaleHandle, 0x2C))) t))) ∧
    (p.hdr.op = 8 → (s.qp n).msgs.any (fun m => m.id == p.hdr.msgId && m.resp == (bits (beWord p.payload 0) 48 48 == 1)) = true →
      exec (.grant p) s = .next (pumpQp 1024 n (t.updQp n (fun q => { q with msgs := q.msgs.map (fun m =>
        if m.id == p.hdr.msgId && m.resp == (bits (beWord p.payload 0) 48 48 == 1)
        then { m with granted := min m.len (max m.granted (bits (beWord p.payload 0) 47 0)) } else m) })))) ∧
    (p.hdr.op = 9 → code = 1 → qpMaySend s (s.qp n) = true → exec (.resume p) s = .next (resendAll n true t))

/-- Packets of skeins and collectives that pass their checks (R215-R218, R275): headers and blocks of a skein, partials and results of a
collective; a packet for work that is over is consumed. -/
def Obligations.SkeinAndCollectivePacketsAreTaken : Prop :=
  ∀ (p : ErtPkt) (s : State), packetNew (arrived p s) p = true →
    let n := p.hdr.dstQpn.toNat
    let t := packetIn p s
    let ft := findTracker t n p.hdr.msgId false
    let pin := ft.map (fun e => e.2.window)
    (∀ i t', p.hdr.op = 10 → skBad p = false → skHdrPkt p.hdr = true →
      skHdrCheck t n p.hdr.window (ft.bind (fun e => if e.2.req.isEmpty then none else some e.2.req)) p.payload pin = none →
      trackerFor n p (skTracker n p t) t = some (i, t') → exec (.skeinData p) s = .next (skHeaderInto n p i t')) ∧
    (∀ i t' data short, p.hdr.op = 10 → skBad p = false → skHdrPkt p.hdr = false → rxPayload p = some (data, short) →
      winCheck t n p.hdr.window .write [(p.hdr.offsetLen.toNat, data.length)] pin = none →
      trackerFor n p (skTracker n p t) t = some (i, t') → exec (.skeinData p) s = .next (skBlocksInto n p i data t')) ∧
    (∀ i t' data k o, purlJudge t n p = .take data → t.coll (fld p.hdr.window 31 20) (fld p.hdr.window 19 0) = some (k, o) →
      trackerFor n p (purlTracker n p t) t = some (i, t') →
      (p.hdr.op = 11 → exec (.purlData p) s = .next (purlInto n p i o data t')) ∧
      (p.hdr.op = 12 → exec (.purlResult p) s = .next (purlInto n p i o data t'))) ∧
    (purlJudge t n p = .stale →
      (p.hdr.op = 11 → exec (.purlData p) s = .next (consumeStale n p (countUnnamed t))) ∧
      (p.hdr.op = 12 → exec (.purlResult p) s = .next (consumeStale n p (countUnnamed t))))

/-- The control messages of a group that is not over (R257, R277, R283, R285): each is accepted and has its KIND's effect. -/
def Obligations.GroupControlMessagesHaveTheirEffect : Prop :=
  ∀ (p : ErtPkt) (s : State), packetNew (arrived p s) p = true → p.hdr.op = 13 →
    let n := p.hdr.dstQpn.toNat
    let t := packetIn p s
    let grp := fld p.hdr.window 31 20
    let kind := fld p.hdr.imm 26 24
    groupOver (t.group grp) = false → ctlBad p = false → (rankOf (t.group grp) n).isSome = true →
    let u := purlCtlIn n grp (fld p.hdr.window 19 0) kind (fld p.hdr.imm 19 0) (fld p.hdr.imm 23 20) p.payload (consumeWhole n p t)
    (kind = 0 → exec (.hello p) s = .next u) ∧ (kind = 1 → exec (.credit p) s = .next u) ∧
      (kind = 2 → exec (.purlRestart p) s = .next u) ∧ (kind = 3 → exec (.purlAbort p) s = .next u)

/-- RoCEv2 packets, notifications and datagrams (R182, R183, R204-R206), and frames that a port discards (R474). -/
def Obligations.RoceTrafficIsTaken : Prop :=
  (∀ (p : RocePkt) (s : State), roceTaken s p →
    let n := p.dstQp.toNat - 0x20000
    let t := count 524 (32 * p.lport + 1) s
    exec (.rocePacket p) s =
      .next (if roceIsReq p.kind then roceRequest n p (sendCnp n p t) else roceResponse n p (sendCnp n p t)) ∧
    ((∀ k, (s.qp n).roce.lastCnpIn = some k → k + 31250 ≤ s.ticks) → exec (.cnp p) s = .next (updRoce n (fun r => { r with
      rt := r.rc, rc := clampRc (r.rc * (1 - r.alpha / 2)), alpha := r.alpha * 255 / 256 + 1 / 256,
      stageT := 0, stageB := 0, bytes := 0, lastCnpIn := some s.ticks }) t))) ∧
  (∀ (lp : Nat) (src : BitVec 128) (data : List Byte) (s : State), s.fc.dstate = .normal →
    let k := match s.qps.find? (fun e => e.2.mode == .roce && e.2.remoteAddrs.contains src) with
      | some e => (s.ctx e.2.ctx).slice
      | none => 512
    let l := Tab.getD s.cm k []
    let t := count 524 (32 * lp + 1) s
    let d : Datagram := { lport := lp, src := src, data := data }
    (l.length < 64 → exec (.cmDatagram lp src data) s = .next { t with cm := Tab.put t.cm k (l ++ [d]) }) ∧
    (64 ≤ l.length → exec (.cmDatagram lp src data) s = .next (count 528 2 { t with cm := Tab.put t.cm k (l.drop 1 ++ [d]) }))) ∧
  (∀ (lp tc : Nat) (s : State),
    exec (.rxFrameDiscard lp .fcsOrSize) s = .next (count 524 (32 * lp + 2) s) ∧
    exec (.rxFrameDiscard lp .vlan) s = .next (count 524 (32 * lp + 3) s) ∧
    exec (.rxFrameDiscard lp .macOrIp) s = .next (count 524 (32 * lp + 4) s) ∧
    exec (.rxFrameDiscard lp .pausedFrame) s = .next (count 524 (32 * lp + 5) s) ∧
    exec (.rxFrameDiscard lp (.bufferFull tc)) s = .next (count 524 (32 * lp + 10 + tc % 8) s)) ∧
  (∀ (lp : Nat) (pause : Bool) (s : State), pfcOn s (lpPort lp) = true →
    let t := count 524 (32 * lp + 1) s
    exec (.pfcFrame lp s.pfcPrio pause) s =
      .next ((if pause then count 523 3 t else t).updLport lp (fun l => { l with paused := pause })))

/-- Timers of an ERT QP (R162, R163, R166, R168-R170, R173): delivery in MSG_ID order, the delayed ACK, tinks and their limit, the 2 s
limits, and what the expiry of a hold or delay does. -/
def Obligations.TransportTimersActOnTheirQp : Prop :=
  ∀ (s : State) (n : Nat), s.fc.dstate = .normal → (s.qp n).st = .active → (s.qp n).mode = .ert →
    let q := s.qp n
    let sl := (s.ctx q.ctx).slice
    (∀ d, q.complete.find? (fun d => d.id == q.delivered + 1) = some d → d.tracker = none → d.imm = none →
      let after (t : State) : State :=
        let t := touchQp n (t.updQp n (fun q => { q with delivered := q.delivered + 1, complete := q.complete.erase d }))
        if d.act then sendAck n t else t
      (d.op = 0 → exec (.deliver n) s = .next (after s)) ∧
      (d.op = 1 → exec (.deliver n) s = .next (after (postRecv n d.len d.failed none d.id none s)))) ∧
    (0 < q.sinceAck → exec (.ackTimer n) s = .next (sendAck n s)) ∧
    (∀ psn f, q.flight.find? (fun f => f.psn == psn) = some f → f.retryWait = false →
      (f.otherAcked = false → exec (.tink n psn) s =
        .next (resend n psn (some f.path) (fun x => { x with sends := x.sends + 1, tinks := x.tinks + b2n false })
          ((count sl 17 s).updQp n (fun q => q.loss f s.ticks)))) ∧
      (f.otherAcked = true → 15 ≤ f.tinks → exec (.tink n psn) s =
        .next (qpError n 1 ((flightOp q f).map (fun k => (k.1, k.2, stTransport, 1)))
          ((count sl 16 s).updQp n (fun q => q.loss f s.ticks))))) ∧
    (∀ f, q.flight.find? (fun f => f.psn == oldestPsn q) = some f →
      exec (.noProgressTimeout n) s = .next (qpError n 2 ((flightOp q f).map (fun k => (k.1, k.2, stTransport, 2))) s)) ∧
    (∀ i t, Tab.get s.trackers i = some t → t.qpn = n → t.use = .ring →
      exec (.rxStalled i) s = .next (qpError n 3 none (closeTracker i s))) ∧
    (∀ path, (q.path path).sick = true → (q.path path).portDown = false → exec (.sickHoldExpiry n path) s =
      .next (pumpQp 1024 n (s.updQp n (fun q => q.updPath path (fun p => { p with sick := false, trial := true, weight := 1, credit := 1 }))))) ∧
    (∀ psn,
      let t := s.updQp n (fun q => { q with msgs := q.msgs.map (fun m => { m with busyHold := m.busyHold.filter (· ≠ psn) }) })
      (q.flight.any (fun f => f.psn == psn && f.retryWait) = true → exec (.retryDelayExpiry n psn) s =
        .next (pumpQp 1024 n (resend n psn none (fun x => { x with sends := 1, tinks := 0 }) t))) ∧
      (q.flight.any (fun f => f.psn == psn && f.retryWait) = false → exec (.retryDelayExpiry n psn) s = .next (pumpQp 1024 n t))) ∧
    (∀ psn h, q.held.find? (fun h => h.1.hdr.psn == psn) = some h → faulted s (.place n psn) = true →
      exec (.pageHoldTimeout n psn) s =
        .next (pageNak n h.1 (forgetSeen (.place n psn) (s.updQp n (fun q => { q with held := q.held.erase h })))))

/-- The grant engine and a port's egress (R188, R193, R196): a GRANT goes again, a silent message's grants are reclaimed, the engine's
buckets refill within their caps, and a port sends its control packets before its classes. -/
def Obligations.GrantsAndEgress : Prop :=
  (∀ (s : State) (i : Nat) (t : Tracker), s.fc.dstate = .normal → Tab.get s.trackers i = some t → 0 < grantedAhead s t →
    (grantPaced t.op = true → t.use ≠ .roce → exec (.grantResend i) s = .next (sendGrant t s)) ∧
    exec (.grantReclaim i) s = .next (updTracker i (fun u => if 0 < grantedAhead s u then { u with reclaimed := true } else u) s)) ∧
  (∀ (s : State) (refill : Nat) (gs : List (Nat × Nat)), s.fc.dstate = .normal →
    exec (.grantEngine refill gs) s = .next (grantLoop 65536 { s with grants := { s.grants with
      pace := min (budget s : Int) (s.grants.pace + refill)
      guar := gs.foldl (fun g e => if guarIn s e.1 = 0 then g else Tab.put g e.1 (min (2 * grantChunk s : Int) (Tab.getD g e.1 0 + e.2)))
        s.grants.guar } })) ∧
  (∀ (s : State) (lp refill : Nat), portReady s lp = true →
    let t := s.updLport lp (fun l => { l with tokens := min 16384 (l.tokens + refill) })
    let l := t.lport lp
    (∀ c rest, l.control = c :: rest → c.bytes ≤ l.tokens → exec (.egressPacketSelect lp refill) s =
      .next (portSend lp c.frame (t.updLport lp (fun l => { l with control := rest, tokens := l.tokens - c.bytes })))) ∧
    (∀ c rest, l.control = c :: rest → l.tokens < c.bytes → exec (.egressPacketSelect lp refill) s =
      .next (count 523 6 (t.updLport lp (fun l => { l with control := rest, egress := Tab.upd l.egress c.tc [] (· ++ [c]) })))) ∧
    (∀ tc e d, l.control = [] → egressPick t l 8192 l.nextTc l.deficit = some (tc, e, d) → exec (.egressPacketSelect lp refill) s =
      .next (portSend lp e.frame (t.updLport lp (fun l => { l with
        nextTc := tc, deficit := d, egress := Tab.put l.egress tc ((Tab.getD l.egress tc []).erase e) })))))

/-- Timers of a RoCEv2 QP and the end of any QP (R144, R182, R205): the congestion state decays and grows, its byte counter has its
event once for each 10 MiB, retries go back to the oldest packet, and a drained QP is free. -/
def Obligations.RoceTimersAndTheEndOfAQp : Prop :=
  (∀ (s : State) (n : Nat), s.fc.dstate = .normal → (s.qp n).mode = .roce →
    exec (.dcqcnAlphaTimer n) s = .next (updRoce n (fun r => { r with alpha := r.alpha * 255 / 256 }) s) ∧
    exec (.dcqcnIncreaseTimer n true) s = .next (updRoce n (fun r => r.increase true) s) ∧
    (10485760 ≤ (s.qp n).roce.bytes → exec (.dcqcnIncreaseTimer n false) s =
      .next (updRoce n (fun r => { r.increase false with bytes := r.bytes - 10485760 }) s)) ∧
    ((s.qp n).roce.bytes < 10485760 → exec (.dcqcnIncreaseTimer n false) s = .next s) ∧
    ((s.qp n).st = .active → (s.qp n).roce.unacked ≠ [] → (s.qp n).roce.rnrWait = false →
      exec (.roceAckTimeout n) s = .next (roceRetry n s)) ∧
    ((s.qp n).st = .active → (s.qp n).roce.rnrWait = true →
      ((s.qp n).roce.maxRnr = 7 ∨ (s.qp n).roce.rnrRetries < (s.qp n).roce.maxRnr →
        exec (.rnrTimerExpiry n) s = .next (roceGoBack n (updRoce n (fun r => { r with rnrRetries := r.rnrRetries + 1 }) s))) ∧
      ((s.qp n).roce.maxRnr ≠ 7 → (s.qp n).roce.maxRnr ≤ (s.qp n).roce.rnrRetries →
        exec (.rnrTimerExpiry n) s = .next (qpError n 9 ((roceOwner (s.qp n)).map (fun k => (k.1, k.2, stTransport, 9))) s)))) ∧
  (∀ (s : State) (n : Nat), s.fc.dstate = .normal → (s.qp n).st = .draining →
    ((s.qp n).abort = false → exec (.qpDrainTimeout n) s = .next (qpDrain n true s)) ∧
    (qpIdle s n = true → ∃ t, exec (.qpFreed n) s = .next t ∧ Tab.get t.qps n = none))

/-- Layers and groups (R214, R257, R258, R277, R285, R286): a triggered layer opens while fewer than four are open; a forming group asks
again, fails at its timeout, and a drained one is free. -/
def Obligations.LayersAndGroupsMoveOn : Prop :=
  (∀ (s : State) (sq idx : Nat) (o : Op) (qpn l : Nat) (y : Layer), s.fc.dstate = .normal → s.op sq idx = some o → o.qpn = some qpn →
    o.skein.layers.find? (fun e => e.2.st == .triggered) = some (l, y) → o.done = false → o.stage = .running → o.stop = none →
    o.skein.trigFail = none → (o.skein.layers.filter (fun e => layerOpen e.2)).length < 4 → (s.qp qpn).st = .active →
    let info : BitVec 32 := if o.skein.openedAny then 0 else 1
    let total := skTotal o (s.qp qpn)
    let u := skReadLayer sq idx l (sendMsg qpn
      { id := 0, op := 10, tc := dTc (o.w 0), window := dWindow (o.w 5), len := skLayerBytes o, act := true, ply := o.gauge.ply,
        more := true, owner := .skein sq idx l, total := total
        pkts := if total.isSome then [skHdrOut info (skHeader o (skLayerBytes o) l)] else [] }
      ((updLayer sq idx l (fun y => { y with st := .xlate, msg := (s.qp qpn).nextMsg, info := info }) (skTouch o s)).updOp sq idx
        (fun o => { o with skein := { o.skein with openedAny := true } })))
    exec (.layerOpen sq idx) s = .next (if running u then skEnd sq idx u else u)) ∧
  (∀ (s : State) (g : Nat), s.fc.dstate = .normal →
    ((s.group g).st = .forming →
      exec (.helloTimer g) s = .next ((unheard (s.group g)).foldl (fun s r => sendHello g r true s) s) ∧
      exec (.formationTimeout g) s = .next (setGroup g (fun x =>
        { x with st := .failed, reason := 4, lostRank := firstUnheard (s.group g) }) s)) ∧
    ((s.group g).st = .active → exec (.slotAssign g) s = .next (slotsGive 144 g s)) ∧
    (∀ seq k o, (s.group g).st = .active → (s.group g).timeout ≠ 15 → s.coll g seq = some (k, o) → o.finished = false →
      exec (.progressTimeout g seq) s = .next (groupFail g 1 (awaitedRank (s.group g) k o) false s)) ∧
    ((s.group g).st = .draining → (s.group g).colls = [] →
      s.trackers.any (fun t => t.2.use == .purl && t.2.aux.getD 0 4096 == g) = false →
      exec (.groupFree g) s = .next { s with groups := Tab.del s.groups g }))

/-- Die-link packets (R50, R122, R308, R339-R341): a response ends the request that its TXN names, and a compute die's load, store or
signal of an admitted tag joins its context's stream or meets its marker. -/
def Obligations.DieLinkRequestsAndResponses : Prop :=
  (∀ (s : State) (m txn : Nat) (data : List Byte) (r : DlReq), s.fc.dstate ≠ .halted → answeredLater r.purp = false →
    let t := flitIn m true (ceilDiv data.length 256) s
    let gone (s : State) : State := s.updMod m (fun k => { k with reqs := Tab.del k.reqs txn })
    Tab.get (t.mod m).reqs txn = some r →
    (r.cmd.cmd ≠ 2 → exec (.rspData m txn 0 data) s = .next (endUses r.purp (answer r.purp r.cmd.addr
      (.data (slice data 0 (r.cmd.len + 1))) (gone (histogram 7 (s.ticks - r.since) t))))) ∧
    (r.cmd.cmd ≠ 2 → exec (.rspData m txn 2 data) s = .next (endUses r.purp (answer r.purp r.cmd.addr
      (.poison (r.cmd.len + 1) caSourcePoison) (gone (histogram 7 (s.ticks - r.since) t))))) ∧
    (r.cmd.cmd = 2 → data = [] → exec (.rspAck m txn 1) s = .next (endUses r.purp (answer r.purp r.cmd.addr
      (.failed caTargetError 0x3F (r.cmd.len + 1)) (gone t))))) ∧
  (∀ (s : State) (m txn : Nat) (tag : BitVec 24) (cva : BitVec 56) (c len : Nat), s.fc.dstate = .normal → 0 < len → len ≤ 256 →
    cva.toNat % 4096 + len ≤ 4096 →
    let join (r : DirectReq) (t : State) : State := directPump 4096 c (t.updXlt (fun x => { x with direct := Tab.upd x.direct c [] (· ++ [r]) }))
    (tagCtx (flitIn m false 0 s) tag = some c → exec (.directLd m txn tag cva len) s =
      .next (join { module := m, txn := txn, store := false, cva := cva.toNat, len := len, data := [] } (flitIn m false 0 s))) ∧
    (∀ data : List Byte, data.length = len → tagCtx (flitIn m false (ceilDiv len 256) s) tag = some c →
      exec (.directSt m tag cva data) s = .next (join
        { module := m, txn := 0, store := true, cva := cva.toNat, len := len, data := data } (flitIn m false (ceilDiv len 256) s)))) ∧
  (∀ (s : State) (m txn : Nat) (tag : BitVec 24) (h : BitVec 32) (off : BitVec 24) (v : Word), s.fc.dstate = .normal →
    (∀ c, tagCtx (flitIn m false 1 s) tag = some c →
      exec (.markerSig m txn tag h off v) s = .next (sigGo m txn c h (off.toNat * 16) v (flitIn m false 1 s))) ∧
    (tagCtx (flitIn m false 1 s) tag = none →
      exec (.markerSig m txn tag h off v) s = .next (dlRespond m txn 0x11 1 tag [] (flitIn m false 1 s))))

/-- Flits and modules (R337, R343, R345, R346): a bad flit asks for a replay, a NAK or 1 µs without progress replays, an idle flit
acknowledges and returns credits; a lost module retrains, or is fenced. -/
def Obligations.FlitsAndModules : Prop :=
  (∀ (s : State) (m : Nat), moduleLive s m = true →
    exec (.badFlit m) s = .next (emit (.idleFlit m (s.mod m).lastGood true 0 0 0)
      (count 526 (64 * m + 3) (s.updMod m (fun k => { k with nak := true })))) ∧
    (∀ a, exec (.flitNak m a) s = .next (flitReplay m (ackFlits m a s))) ∧
    exec (.flitAckTimeout m) s = .next (flitReplay m s) ∧
    (∀ a q r d, exec (.idleFlit m (some a) q r d) s = .next (dlDrain 4096 m ((ackFlits m a s).updMod m (fun k => { k with
      credReq := min 256 (k.credReq + q), credRsp := min 256 (k.credRsp + r), credData := min 512 (k.credData + d) })))) ∧
    exec (.moduleLinkLoss m false) s = .next (s.updMod m (fun k => { k with up := false })) ∧
    exec (.moduleLinkLoss m true) s = .next (moduleFails m s)) ∧
  (∀ (s : State) (m : Nat), s.fc.dstate ≠ .halted → (s.mod m).up = false →
    ((s.mod m).active = true → exec (.moduleRetrainTimeout m) s = .next (moduleFails m s)) ∧
    (∀ kind, (s.mod m).active = true → exec (.sidebandHello m kind 1) s =
      .next (dlDrain 4096 m (flitReplay m (s.updMod m (fun k => { k with up := true }))))) ∧
    (∀ kind, (s.mod m).active = false → (s.die (m / 6)).attached = true → exec (.sidebandHello m kind 1) s =
      .next (emit (.sideband (m / 6) 0x01 (BitVec.ofNat 64 (Config.ownKind.toNat + 256)))
        ((s.updMod m (fun _ => { up := true, active := oneUnit s (38 + m / 6) (m % 6) == .inService, credReq := 256, credRsp := 256, credData := 512 })).updDie
          (m / 6) (fun d => { d with attached := true, kind := kind })))))

/-- The package governor (R461-R465): newer telemetry is taken, stale telemetry counts, the fast path cuts every budget by a quarter, and
each loop takes the new envelope and sends every die its budget. -/
def Obligations.GovernorActs : Prop :=
  ∀ s : State, s.fc.dstate ≠ .halted →
    (∀ p (w : Word), (s.die p).attached = true → (s.die p).heard = false → exec (.telemetry p w) s =
      .next (updGov (fun g => { g with telem := Tab.upd g.telem p [] (fun l => (fld w 19 0 * 10 :: l).take 10) })
        (s.updDie p (fun d => { d with power := fld w 19 0 * 10, temp := fld w 31 20, current := fld w 47 32
                                       row := BitVec.ofNat 8 (fld w 55 48), heard := true, stale := false })))) ∧
    (∀ p, (s.die p).attached = true → (s.die p).stale = false →
      exec (.telemetryStale p false) s = .next (count 529 5 (s.updDie p (fun d => { d with stale := true })))) ∧
    (∀ p, (s.die p).attached = true → (s.die p).stale = true → exec (.telemetryStale p true) s = .next (ucReport 52 0x14 0 none s)) ∧
    (oneUnit s 52 0 = .inService →
      let cut (t : State) : State := (diesOn t).foldl (fun s p => sendBudget p ((s.die p).budget * 3 / 4) true s) t
      let t := count 529 3 (updGov (fun g => { g with fastAt := some s.ticks }) s)
      exec (.vinOvercurrent false) s = .next (cut t) ∧ exec (.vinOvercurrent true) s = .next (count 529 4 s) ∧
      (∀ p row, (s.die p).attached = true → exec (.ocAlert p row false) s = .next (cut t))) ∧
    (∀ (own : List Nat) (vin : Nat), oneUnit s 52 0 = .inService →
      let s' := updGov (fun g => { g with envelope := g.next.getD g.envelope, next := none }) s
      let avail : Int := (s'.gov.envelope : Int) - ((own.foldl max 0 : Nat) : Int) - ((s'.gov.envelope / 50 : Nat) : Int)
      ∃ t, exec (.governorLoop own vin) s = .next t ∧ t.gov.envelope = s'.gov.envelope ∧ t.gov.next = none ∧
        t.gov.loops = s.gov.loops + 1 ∧ (∀ p ∈ diesOn s, (t.die p).budget = govBudget s' avail p)) ∧
    (oneUnit s 52 0 ≠ .inService → exec .govFallbackBudget s =
      .next ((diesOn s).foldl (fun s p => sendBudget p ((s.die p).budget * 60 / 100) true s) s)) ∧
    (∀ n r, s.gov.hot = [n] → s.gov.throttle = true → r ≤ 400 → exec (.sensorThreshold n r) s =
      .next (updSrc 55 (fun c => { c with causeActive := false }) (updGov (fun g => { g with hot := [], throttle := false })
        (emit (.duty false) s)))) ∧
    (∀ n r, s.gov.hot = [] → s.gov.throttle = false → 420 ≤ r → r < 500 →
      let x := ownEv 55 2 0x19 n none (updSrc 55 (fun c => { c with causeActive := true })
        (updGov (fun g => { g with hot := [n], throttle := true }) (emit (.duty true) s)))
      exec (.sensorThreshold n r) s = .next (onEvent none { x.1 with active := true } x.2))

/-- Native blocks and training (R328, R329, R331): a block in order hands its frames on and is acknowledged, a bad one or a gap draws a
NAK, a NAK or 2 µs without progress replays; a trained sub-port comes up. -/
def Obligations.BlocksAndTraining : Prop :=
  (∀ (s : State) (b : NativeBlk), nativeUp s b.lport = true →
    let lp := b.lport
    (b.bad = true → exec (.nativeDataBlock b) s = .next (sendBlockNak lp (count 524 (32 * lp + 7) s))) ∧
    (b.bad = false → b.ack = none → b.seq = (s.lport lp).rxSeq → exec (.nativeDataBlock b) s =
      .next (sendIdle lp (countBy 524 (32 * lp + 1) b.frames.length
        (s.updLport lp (fun l => { l with rxSeq := l.rxSeq + 1, nakFor := none, gotAny := true }))))) ∧
    (b.bad = false → b.ack = none → b.seq ≠ (s.lport lp).rxSeq → ((s.lport lp).rxSeq - b.seq).toNat ≤ 64 →
      exec (.nativeDataBlock b) s = .next (sendIdle lp s)) ∧
    (b.bad = false → b.ack = none → b.seq ≠ (s.lport lp).rxSeq → 64 < ((s.lport lp).rxSeq - b.seq).toNat →
      exec (.nativeDataBlock b) s = .next (sendBlockNak lp s))) ∧
  (∀ (s : State) (lp : Nat) (a : BitVec 8), nativeUp s lp = true →
    exec (.blockNak lp a) s = .next (replayReport lp a s) ∧ exec (.idleBlock lp (some a)) s = .next (ackBlocks lp a s) ∧
    (∀ b rest, (s.lport lp).replay = b :: rest → exec (.blockAckTimeout lp) s = .next (replayReport lp b.seq s))) ∧
  (∀ (s : State) (lp : Nat), lpMayRun s lp = true →
    (∀ lane q st peer mine, portMode s (lpPort lp) = 0 → (s.lport lp).train = .equalise → lane < lpWidth s lp →
      let t := sendEq lp lane mine (updLane lp lane (fun x => { x with localReady := mine, peerReady := peer }) s)
      let ls := (List.range (lpWidth t lp)).filter (fun i => !((t.lport lp).lane i).failed)
      exec (.tsEq lp lane q st peer mine) s = .next (
        if !ls.isEmpty && ls.all (fun i => ((t.lport lp).lane i).localReady && ((t.lport lp).lane i).peerReady) then
          sendAlign lp (t.updLport lp (fun l => { l with train := .align })) else t)) ∧
    (∀ mask offer g, portMode s (lpPort lp) = 0 → (s.lport lp).train = .align →
      bestGroup (lpWidth s lp) (min (lpWidth s lp) offer) (fun i =>
        ((s.lport lp).lane i).localReady && ((s.lport lp).lane i).peerReady && !((s.lport lp).lane i).failed && mask.getLsbD i) = some g →
      exec (.tsAlign lp mask offer) s = .next (portUp lp g.1 (groupMask g) s)) ∧
    (∀ w k, portMode s (lpPort lp) ≠ 0 → lportUp s lp = false → (w = 1 ∨ w = 2 ∨ w = 4 ∨ w = 8) →
      bestGroup (lpWidth s lp) w (fun i => !((s.lport lp).lane i).failed) = some (w, k) →
      exec (.ieeeLinkUp lp w) s = .next (portUp lp w (groupMask (w, k)) s)) ∧
    exec (.trainingRetry lp) s = .next (trainStart lp s))

/-- Lanes, widths and sub-ports (R330-R332, R402). -/
def Obligations.LanesWidthsAndSubports : Prop :=
  (∀ (s : State) (lp lane : Nat), s.fc.dstate ≠ .halted → lpMayRun s lp = true → lane < lpWidth s lp →
    exec (.laneFail lp lane) s = .next (laneFails lp lane s)) ∧
  (∀ (s : State) (lp : Nat), nativeUp s lp = true →
    (∀ (a m : BitVec 8) g, maskGroup (lpWidth s lp) m.toNat = some g → exec (.widthReq lp a m) s =
      .next (setWidth lp g (sendCtl lp (ctlWord 5 a.toNat m.toNat 0 0 false) s))) ∧
    (∀ (a m : BitVec 8) g, (s.lport lp).pending = some (m, a) → maskGroup (lpWidth s lp) m.toNat = some g →
      exec (.widthAck lp a m) s = .next (setWidth lp g s)) ∧
    (∀ lane, ((s.lport lp).lane lane).failed = true → lane < lpWidth s lp → oneUnit s (fabricSource lp) (laneUnit s lp lane) = .testing →
      exec (.laneRetrain lp lane true) s = .next (laneBack lp lane (setUnit (fabricSource lp) (laneUnit s lp lane) .inService s)) ∧
      exec (.laneRetrain lp lane false) s = .next (
        let t := updLane lp lane (fun x => { x with retraining := false }) s
        if oneUnit t (fabricSource lp) (laneUnit s lp lane) == .testing then
          setUnit (fabricSource lp) (laneUnit s lp lane) .fenced t else t))) ∧
  (∀ (s : State) (lp : Nat), lportUp s lp = true →
    (s.fc.dstate ≠ .halted → exec (.subportDown lp) s = .next (
      let t := portDown lp s
      ucReport (fabricSource lp) 0x07 (lowLane s lp) none t)) ∧
    (s.fc.dstate ≠ .halted → exec (.subportUp lp) s = .next (pathsUp lp s)))

/-- BAR 2 and CXL.mem (R300-R303, R311, R340, R441): an admitted request inside HBM and outside the stash reaches the die link; a read of
a sealed range answers poison, and a request that no filter entry admits is refused and counted. -/
def Obligations.HostWindowsReachHbm : Prop :=
  (∀ (r : Bar2Req) (s : State), s.fc.dstate ≠ .halted →
    let a := barDpa s r.link r.offset
    (∀ len, barAdmits s r .read = true → inStash s a len = false → inHbm s a len = true →
      (isSealed s a len = true →
        exec (.bar2Read r len) s = .next (bar2Answer r.link r.tag len (.poison len caSourcePoison) (count 525 (256 * r.link + 8) s))) ∧
      (isSealed s a len = false → exec (.bar2Read r len) s =
        .next ((dlIssue (.bar2 r.link r.tag len) (cmdRead 0 2 a len) s).getD (bar2Answer r.link r.tag len (.failed caDiePortLost 0x3F len) s)))) ∧
    (∀ data, barAdmits s r .write = true → inStash s a data.length = false → inHbm s a data.length = true →
      exec (.bar2Write r data false) s = .next ((cut4k 4096 a data.length).foldl (fun s p =>
        (dlIssue (.bar2Write r.link) { cmdWrite 0 2 p.2.1 (slice data p.1 p.2.2) with poison := false } s).getD s) s)) ∧
    (∀ op aop n x y, hostAop op = some (aop, n) → barAdmits s r .atomic = true → inStash s a n = false → inHbm s a n = true → a % n = 0 →
      isSealed s a n = false → exec (.bar2Atomic r op x y) s =
        .next ((dlIssue (.bar2Atomic r.link r.tag) (cmdAtomic 0 2 a n aop x y) s).getD (emit (.completerAbort r.link r.tag) s))) ∧
    (∀ len, barAdmits s r .read = false → exec (.bar2Read r len) s = .next (emit (.unsupported r.link r.tag) (count 525 (256 * r.link) s)))) ∧
  (∀ (link tag hpa : Nat) (s : State), s.fc.dstate ≠ .halted → (s.link link).hdmBase ≤ hpa →
    let a := (hpa - (s.link link).hdmBase) / 64 * 64
    inStash s a 64 = false → inHbm s a 64 = true →
    (∀ x, isSealed s a 64 = true →
      exec (.cxlMemRead link tag hpa x) s = .next (cxlAnswer link tag (.poison 64 caSourcePoison) (count 525 (256 * link + 8) s))) ∧
    (∀ x, isSealed s a 64 = false →
      exec (.cxlMemRead link tag hpa x) s = .next (cxlGo link (.cxlRead link tag) { cmdRead 0 2 a 64 with aux := b2n x } s)) ∧
    (∀ data, exec (.cxlMemWrite link tag hpa data) s = .next (cxlGo link (.cxlWrite link tag) (cmdWrite 0 2 a (slice data 0 64)) s)))

/-- The coherent window cache, host completions and the directory (R304, R311, R313): a snoop is answered with what the cache holds, an
answer fills it, and a completion ends the request of its tag. -/
def Obligations.HostAnswersAndSnoops : Prop :=
  (∀ (s : State) (link tag line : Nat),
    (Tab.get s.cwc (cwcKey link line) = none →
      ∀ k, exec (.hostSnoop link tag line k) s = .next (emit (.snoopRsp link tag false none) s)) ∧
    (∀ v, Tab.get s.cwc (cwcKey link line) = some v →
      exec (.hostSnoop link tag line .invalidate) s = .next (emit (.snoopRsp link tag true (if v.modified then some v.data else none))
        { s with cwc := Tab.del s.cwc (cwcKey link line) }) ∧
      exec (.hostSnoop link tag line .data) s = .next (emit (.snoopRsp link tag true (if v.modified then some v.data else none))
        { s with cwc := Tab.put s.cwc (cwcKey link line) { v with owned := false, modified := false } }) ∧
      exec (.hostSnoop link tag line .current) s = .next (emit (.snoopRsp link tag true (if v.modified then some v.data else none)) s))) ∧
  (∀ (s : State) (link line : Nat) (d : List Byte) (w : Nat × DirectReq × Nat) (ws : List (Nat × DirectReq × Nat)),
    s.fc.dstate ≠ .halted → s.directWait.filter (fun d => d.2.2 == cwcKey link line) = w :: ws →
    let t := { s with directWait := s.directWait.filter (fun d => d.2.2 != cwcKey link line) }
    exec (.cxlCacheResponse link line (.owned d)) s =
      .next (directAll (cwcPut link line { ctx := w.1, owned := true, modified := false, data := slice d 0 64, lru := 0 } t))) ∧
  (∀ (s : State) (link line : Nat) (h : HdmLine), s.fc.dstate ≠ .halted → Tab.get s.hdm line = some h → h.link = link →
    s.biWait.filter (fun w => w.link == link && w.line == line) = [] →
    exec (.backInvalidateResponse link line none) s =
      .next (retryWaits (fun w => w.link == link && w.line == line) { s with hdm := Tab.del s.hdm line })) ∧
  (∀ (s : State) (link tag : Nat) (r : HostReq), s.fc.dstate ≠ .halted → Tab.get (s.link link).reqs tag = some r → tag < 8192 →
    (∀ d, answeredLater r.purp = false → exec (.hostReadCompletion link tag (.data d)) s =
      .next (let t := freeTag link tag s
             endUses r.purp (answer r.purp r.addr (.data (slice d 0 r.len)) (histogram 6 (t.ticks - r.since) t)))) ∧
    exec (.hostReadTimeout link tag) s =
      .next (endUses r.purp (answer r.purp r.addr (.failed caHostFailed 0x3F r.len) (hostFailed link r (freeTag link tag s)))))

/-- Resets, losses and states of a host link, and configuration space (R293-R297, R314-R316). -/
def Obligations.HostLinksComeAndGo : Prop :=
  ∀ (s : State) (link : Nat),
    exec (.linkReset link .hotReset) s = .next (resetLink link false s) ∧ exec (.linkReset link .linkDisable) s = .next (resetLink link false s) ∧
    exec (.linkReset link .flr) s = .next (resetLink link true s) ∧
    (exec (.linkReset link .perst) s = .next ((presentLinks s).foldl (fun s l => fundamental l (resetLink l false s))
      { s with castOn := { s.castOn with perst := true } })) ∧
    ((s.link link).up = false → (s.link link).lostAt ≠ none → exec (.linkLossTimeout link) s = .next (resetLink link false s)) ∧
    exec (.dataLinkLayerLoss link) s = .next (s.updLink link (fun l => if l.up then { l with up := false, lostAt := some s.ticks } else l)) ∧
    (∀ cx ca fl rate w, linkPresent s link = true → (s.link link).fixed = true → (s.link link).cxl = false → exec (.dataLinkLayerUp link cx ca fl rate w) s =
      .next (releaseLink link (s.updLink link (fun l => { l with
        up := true, lostAt := none, fixed := true, cxl := (s.link link).cxl, cache := (s.link link).cache
        flit := fl || decide (max rate (max (fld (s.link link).cfg 3 1 % 7) (b2n (s.link link).cxl)) ≤ 1)
        rate := max rate (max (fld (s.link link).cfg 3 1 % 7) (b2n (s.link link).cxl)), width := w })))) ∧
    (∀ d3, exec (.powerStateChange link d3) s = .next (releaseLink link (s.updLink link (fun l => { l with d3 := d3 })))) ∧
    exec .perstDeassert s = .next { s with castOn := { s.castOn with perst := false } } ∧
    (cfgAnswers s = true → linkPresent s link = true →
      (∀ off, exec (.configurationRequest link (.read off)) s = .next (emit (.config link off (cfgRead link off)) s)) ∧
      (∀ b, exec (.configurationRequest link (.hdmBase b)) s = .next (s.updLink link (fun l => { l with hdmBase := b }))) ∧
      (∀ k, exec (.configurationRequest link (.bar2Size k)) s =
        .next (if k ≤ 11 then s.updLink link (fun l => { l with bar2Log2 := k }) else s)))

/-- The fault collector (R391-R396, R398): a reported event is handled as its class says, ESC is taken once, a reset unit is tested, and
a 1 clears an FC_STATUS bit whose cause is gone. -/
def Obligations.FaultCollectorCommands : Prop :=
  ∀ s : State, s.fc.dstate = .normal →
    (∀ f : FaultEv, f.ctx = none → f.source ≠ 36 → f.source ≠ 37 → exec (.faultEvent f) s = .next (onEvent (some f.twoRecent)
      { source := f.source, cls := f.cls, detail := f.detail, unit := f.unit, ctx := none, slice := f.slice, active := f.causeActive
        stamp := f.unitStamp } (updSrc f.source (fun c => { c with causeActive := f.causeActive }) s))) ∧
    (∀ n two, s.fc.timers.contains n = true → statusBit s n = true → (fcSrc s n).escalated = false →
      let t := s.updFc (fun c => { c with timers := c.timers.filter (· ≠ n) })
      let x := ownEv n 2 (fcSrc t n).detail (fcSrc t n).unit none (updSrc n (fun c => { c with escalated := true }) t)
      exec (.escalationTimer n two) s =
        .next (act (some two) (reactEsc t n) { x.1 with injected := (fcSrc t n).injected } x.2)) ∧
    (∀ n u, autoOn s n = true → exec (.unitResetDone n u) s = .next ((unitsOf n u).foldl (fun s u =>
      if oneUnit s n u == .fenced then setUnit n u .testing s else s) s)) ∧
    (∀ n u, exec (.swatchDone n u true) s = .next ((unitsOf n u).foldl (fun s u =>
      if oneUnit s n u != .testing then s else countUnnamed (unitReturns n u s)) s)) ∧
    (∀ n u, exec (.swatchDone n u false) s = .next ((unitsOf n u).foldl (fun s u =>
      if oneUnit s n u != .testing then s else countUnnamed (setUnit n u .fenced s)) s)) ∧
    (∀ w : RegWrite, w.link = mgrLink s → w.aligned = true → exec (.fcStatus w) s = .next ((List.range 60).foldl (fun s n =>
      if (freshReg w).getLsbD n && !(fcSrc s n).causeActive then clearStatus n s else s) s))

/-- The steps of a warm re-init (R180, R406, R408-R410, R433), each in its place: Quiesce writes every dirty State Cache line and the
tracker pool, Reset waits for the sensors and REFCLK, Verify wants one good copy of the image, Restart tests what was fenced,
and Resume runs the device again. That one line of free bytes stands for the pool is the model's choice (log 135). -/
def Obligations.ReinitStepsInOrder : Prop :=
  ∀ s : State,
    (reinitAt s .quiesce = true → exec .reinitQuiesce s =
      .next (reinitStep .reset (savePool ((s.sc.lines.map (·.1)).foldl (fun s k => scWriteBack k s) s)))) ∧
    (∀ cool, reinitAt s .reset = true → (s.fc.cause = 0x1A → cool = true) →
      exec (.reinitReset cool true) s = .next (reinitStep .verify (coreReset s)) ∧ exec (.reinitReset cool false) s = .next s) ∧
    (∀ a b, reinitAt s .verify = true →
      let good (c : List Byte) : Bool := imageReason s.sec (leAt c 8 8) c == 0
      let x := ownEv 51 3 0x13 0 none s
      exec (.reinitVerify a b) s = .next (if good a || good b then reinitStep .restart s else ftReport none x.1 x.2)) ∧
    (∀ fails, reinitAt s .restart = true → exec (.reinitRestart [] [] fails) s =
      .next (reinitStep .resume ((restartUnits s).foldl (fun s u =>
        if fails.contains u then countUnnamed s else countUnnamed (unitReturns u.1 u.2 s)) { s with heldLost := [] }))) ∧
    (reinitAt s .resume = true → s.fc.intPending = false → exec .reinitResume s =
      .next (takenUp s.heldOff s.heldLost s.heldAns s.heldWrites (runsAgain s))) ∧
    (s.fc.dstate = .reinit → exec .refclkAbsentTimeout s = .next ((presentLinks s).foldl (fun s l => resetLink l false s) s))

/-- The State Cache (R421-R424, R469): the scrubber reads line by line, a way that is due is disabled and fenced, and one maintenance
operation runs at a time. -/
def Obligations.StateCacheCommands : Prop :=
  ∀ s : State, s.fc.dstate = .normal →
    (∀ half, s.sc.scrubOn = true →
      let p := scrubAt s half (Tab.getD s.sc.scrubPos half 0)
      let t := updSc (fun c => { c with scrubPos := Tab.put c.scrubPos half (p + 1) }) s
      exec (.scrubLine half 0) s = .next (if 4095 * 16 + ((scWays s half).getLast?).getD 15 ≤ p then scrubPass half t else t)) ∧
    (∀ half way, wayDue s half way = true → exec (.wayDisable half way) s = .next (ceReport (36 + half) 0x0E way none
      (updSrc (36 + half) (fun c => { c with fences := min 15 (c.fences + 1) }) (setUnit (36 + half) way .fenced (wayOff half way s))))) ∧
    (∀ w, regTaken s w → s.sc.busy = false →
      let t := updSc (fun c => { c with cmd := BitVec.ofNat 20 (freshReg w).toNat, linesDone := 0, result := 0 }) s
      ∀ x, scNamed t = .inr x →
        (fld (freshReg w) 1 0 = 1 → exec (.scClean w) s = .next (updSc (fun c => { c with busy := true }) t)) ∧
        (fld (freshReg w) 1 0 = 2 → exec (.scInvalidate w) s = .next (updSc (fun c => { c with busy := true }) t)) ∧
        (fld (freshReg w) 1 0 = 3 → exec (.scCleanInvalidate w) s = .next (updSc (fun c => { c with busy := true }) t))) ∧
    (∀ w, regTaken s w → s.sc.busy = true → fld (freshReg w) 1 0 = 1 → exec (.scClean w) s = .next (count 527 3 s)) ∧
    (∀ ks n, s.sc.busy = true → scNamed s = .inr (ks, n) → exec .scMaintComplete s =
      .next (updSc (fun c => { c with busy := false, result := 0, linesDone := n })
        (ks.foldl (fun t k => scLineOp (fld t.sc.cmd 1 0) k t) s))) ∧
    (∀ w, regTaken s w → s.sc.busy = false → exec (.scMaintAddr w) s = .next (updSc (fun c => { c with
      addr := BitVec.ofNat 21 (fld (mergeReg w (scAddrReg s)) 28 8), count := BitVec.ofNat 22 (fld (mergeReg w (scAddrReg s)) 53 32) }) s))

/-- Register writes (R151, R187, R189, R200, R206, R299, R319, R335, R392, R424, R470): each register takes what its rule lets it take; a
warm re-init holds a write to the manager page region, and a halted device drops and counts it. -/
def Obligations.RegisterWritesFollowTheirRules : Prop :=
  (∀ (s : State) (w : RegWrite), regTaken s w →
    (∀ n, n < 12 →
      let x := portCfgNext s n (BitVec.ofNat 34 (mergeReg w ((s.portCfgOf n).setWidth 64)).toNat)
      exec (.netPortCfg n w) s = .next (portCfgSet n x.1 (if x.2 then count 524 (32 * (8 * n) + 9) s else s))) ∧
    (let v := BitVec.ofNat 16 (mergeReg w (s.ertPort.setWidth 64)).toNat
     (s.qps = [] → v ≠ 4791 → exec (.netErtUdpPort w) s = .next { s with ertPort := v }) ∧
     (∀ n q, s.qps = [(n, q)] → q.mode = .ert → q.st = .active → exec (.netErtUdpPort w) s = .next (count 523 7 s))) ∧
    (rsvSum (mergeReg w s.trkRsv) ≤ 128 → exec (.netTrkRsv w) s = .next { s with trkRsv := mergeReg w s.trkRsv }) ∧
    (128 < rsvSum (mergeReg w s.trkRsv) → exec (.netTrkRsv w) s = .next (count 523 0 s)) ∧
    (let v := mergeReg w (pfcReg s)
     fld v 25 16 ≠ 0 → fld v 41 32 < fld v 25 16 → exec (.netPfcCfg w) s = .next
      { pfcClear { s with pfcEn := BitVec.ofNat 12 (fld v 11 0), pfcPrio := fld v 14 12 } with xoff := fld v 25 16, xon := fld v 41 32 }) ∧
    ((∀ c ∈ s.ctxs, c.2.st ≠ .active) → exec (.dlRoute w) s = .next { s with dlRoute := mergeReg w s.dlRoute }) ∧
    ((∃ c ∈ s.ctxs, c.2.st = .active) → exec (.dlRoute w) s = .next (count 526 1536 s)) ∧
    exec (.registerWrite 0x2008 w) s = .next { s with tcWeight := mergeReg w s.tcWeight } ∧
    exec (.registerWrite 0x2018 w) s =
      .next { s with tension := tensionNext s.tension (BitVec.ofNat 22 (mergeReg w (s.tension.setWidth 64)).toNat) } ∧
    exec (.registerWrite 0xC00008 w) s = .next (s.updFc (fun c => { c with
      ftErrn := (mergeReg w (BitVec.ofNat 64 (b2n s.fc.ftErrn + s.fc.fenceLimit * 2 + b2n s.fc.traceFreeze * 32))).getLsbD 0
      fenceLimit := fld (mergeReg w (BitVec.ofNat 64 (b2n s.fc.ftErrn + s.fc.fenceLimit * 2 + b2n s.fc.traceFreeze * 32))) 4 1
      traceFreeze := (mergeReg w (BitVec.ofNat 64 (b2n s.fc.ftErrn + s.fc.fenceLimit * 2 + b2n s.fc.traceFreeze * 32))).getLsbD 5 })) ∧
    exec (.registerWrite 0xD00020 w) s = .next (scrubCfg w s)) ∧
  (∀ (s : State) (w : RegWrite), s.fc.dstate = .reinit → w.link = mgrLink s → w.aligned = true → s.heldWrites.length < 1024 →
    exec (.netTrkRsv w) s = .next { s with heldWrites := s.heldWrites ++ [.netTrkRsv w] } ∧
    exec (.registerWrite 0x2008 w) s = .next { s with heldWrites := s.heldWrites ++ [.registerWrite 0x2008 w] }) ∧
  (∀ (s : State) (w : RegWrite), s.fc.dstate = .halted ∨ w.link ≠ mgrLink s ∨ w.aligned = false →
    exec (.netTrkRsv w) s = .next (count 520 1 s) ∧ exec (.dlRoute w) s = .next (count 520 1 s) ∧ exec (.fcStatus w) s = .next (count 520 1 s))

/-- `MB_DB` (R373, R376, R380, R405, R409): the next sequence number has the request copied, a repeated one has its kept response
written again, any other is BAD_SEQ; a halted device counts the write, and a warm re-init records it. -/
def Obligations.MailboxDoorbell : Prop :=
  ∀ (s : State) (mb : Mbox) (link : Nat) (v : Word), mbLive s (mbNum mb) = true → link = mbLink s (mbNum mb) →
    let n := mbNum mb
    let m := s.mbox n
    let seq := BitVec.ofNat 16 (fld v 15 0)
    let h := Tab.getD m.page 0 0
    let tell (t : State) : State := if v.getLsbD 16 then mbVector n t else t
    (s.fc.dstate = .normal → m.running = false → seq = m.lastSeq + 1 →
      mbOpcodes.contains (fld h 15 0) = true → exec (.mbDb mb link true v) s =
        .next (count 528 0 (s.updMbox n (fun k => { k with lastSeq := seq, running := true, started := false
                                                           req := m.words (2 + min 510 (fld h 31 16 / 8))
                                                           irq := v.getLsbD 16, since := s.ticks })))) ∧
    (∀ ws, s.fc.dstate = .normal → m.running = false → seq = m.lastSeq → m.kept = some ws →
      exec (.mbDb mb link true v) s = .next (tell (mbWrite n ws s))) ∧
    (s.fc.dstate = .normal → m.running = false → seq ≠ m.lastSeq → seq ≠ m.lastSeq + 1 →
      exec (.mbDb mb link true v) s = .next (tell (mbWrite n (mbResponse h seq.toNat 3 m.lastSeq.toNat []) s))) ∧
    (s.fc.dstate = .normal → m.running = true → seq = m.lastSeq → exec (.mbDb mb link true v) s = .next s) ∧
    (s.fc.dstate = .halted → exec (.mbDb mb link true v) s = .next (count 528 4 s)) ∧
    (s.fc.dstate = .reinit → Tab.get s.heldMb n = none →
      exec (.mbDb mb link true v) s = .next { s with heldMb := Tab.put s.heldMb n (v, v.getLsbD 16) }) ∧
    (s.fc.dstate = .normal → exec (.mbDb mb link false v) s = .next (count 520 1 s))

/-- Device and slice commands (R348-R359, R372, R379, R381): what each returns and changes for a request that its rules allow, and the
end of a slice's drain. -/
def Obligations.DeviceAndSliceCommands : Prop :=
  (∀ (s : State) (mb : Mbox) (c : Caller) (a : List Word),
    (cmdAdmitted s mb cmdDevInfo c a → exec (.devInfo mb) s = .next (answered mb [0xB0, rw s.rumel.toNat, rw (b2n s.fleet), rw s.hbmGib,
      rw (((List.range 4).map (fun n => if linkPresent s n then 2 ^ n else 0)).foldl (· + ·) 0)] s)) ∧
    (cmdAdmitted s mb cmdDevPortAddr c a → argN a 0 < 96 → argN a 3 ≤ 128 → argN a 6 ≤ 32 →
      s.qps.find? (fun q => q.2.localPorts.contains (argN a 0) && (q.2.st == .active || q.2.st == .held || q.2.st == .draining)) = none →
      exec (.devPortAddr mb) s = .next (answered mb [] (s.updLport (argN a 0) (fun l => { l with
        ipv6 := addrOf (arg a 1) (arg a 2), prefix6 := argN a 3
        ipv4 := BitVec.ofNat 32 ((addrOf (arg a 4) (arg a 5)).toNat >>> 96), prefix4 := argN a 6 })))) ∧
    (∀ n, cmdAdmitted s mb cmdSliceCreate c a → (argN a 0 < 512 ∨ argN a 0 = 0x3FF) → sliceSlot s (argN a 0) = some n → argN a 1 < 4 →
      linkPresent s (argN a 1) = true → (s.link (argN a 1)).up = true → 0 < argN a 2 → argN a 2 < 1048576 → 16 ≤ argN a 3 →
      0 < argN a 4 → argN a 4 ≤ 1024 →
      let q := (List.range 11).map (fun i => argN a (5 + i))
      (List.range 11).find? (fun i => !quotaOk i (q.getD i 0)) = none → sliceClash s (argN a 1) (argN a 2) (argN a 3) (argN a 4) = none →
      quotaBreaks s n q = none →
      let t := s.updSlice n (fun _ => { st := .active, gen := (s.slice n).gen, link := argN a 1, pasid := argN a 2, msixBase := argN a 3
                                        msixCount := argN a 4, rights := 0xFF, targets := 7, quota := q })
      exec (.sliceCreate mb) s = .next (answered mb [rw n, rw (s.slice n).gen.toNat]
        (zeroCounters n { t.updMbox n (fun _ => {}) with cm := Tab.del t.cm n }))) ∧
    (cmdAdmitted s mb cmdSliceDestroy c a → argN a 0 < 512 → argN a 1 ≤ 1 → (s.slice (argN a 0)).st = .active →
      exec (.sliceDestroy mb) s = .next (answered mb [] (bindOff (argN a 0) (argN a 1 == 1) s))) ∧
    (cmdAdmitted s mb cmdSliceSetQuota c a → argN a 0 < 512 → (s.slice (argN a 0)).st = .active → argN a 1 < 2 ^ 11 →
      let q := (List.range 11).map (fun i => if (arg a 1).getLsbD i then argN a (2 + i) else (s.slice (argN a 0)).quota.getD i 0)
      (List.range 11).find? (fun i => (arg a 1).getLsbD i && !quotaOk i (q.getD i 0)) = none →
      (List.range 10).find? (fun i => decide ((s.slice (argN a 0)).quota.getD i 0 < q.getD i 0) &&
        decide (quotaTotals.getD i 0 < quotaSum s (argN a 0) i + q.getD i 0)) = none →
      exec (.sliceSetQuota mb) s = .next (answered mb [] (s.updSlice (argN a 0) (fun x => { x with quota := q })))) ∧
    (cmdAdmitted s mb cmdSliceSetRights c a → argN a 0 < 512 → (s.slice (argN a 0)).st = .active → argN a 1 < 256 → argN a 2 < 16 →
      exec (.sliceSetRights mb) s = .next (answered mb [] (s.updSlice (argN a 0) (fun x =>
        { x with rights := BitVec.ofNat 8 (argN a 1), targets := BitVec.ofNat 4 (argN a 2) })))) ∧
    (cmdAdmitted s mb cmdSliceQuery c a → argN a 0 < 512 → ∃ rs t, exec (.sliceQuery mb) s = .next (answered mb rs t) ∧
      rs.length = 30 ∧ t = { s with freeCtr := t.freeCtr } ∧
      rs.take 8 = [rw (match (s.slice (argN a 0)).st with | .free => 0 | .active => 1 | .draining => 2), rw (s.slice (argN a 0)).gen.toNat,
        rw (s.slice (argN a 0)).link, rw (s.slice (argN a 0)).pasid, rw (s.slice (argN a 0)).msixBase, rw (s.slice (argN a 0)).msixCount,
        rw (s.slice (argN a 0)).rights.toNat, rw (s.slice (argN a 0)).targets.toNat])) ∧
  (∀ (s : State) (n : Nat), s.fc.dstate = .normal → (s.slice n).st = .draining →
    ((s.slice n).step3 = true → (s.slice n).step4 = true → sliceCtxs s n = [] → exec (.sliceFree n) s =
      .next { s with slices := Tab.put s.slices n { gen := (s.slice n).gen }, mailboxes := Tab.del s.mailboxes n }) ∧
    ((s.slice n).abort = false → exec (.sliceDrainTimeout n) s = .next (sliceAbort n s)))

/-- Context commands (R29, R32, R36, R106, R107, R126-R130, R381). -/
def Obligations.ContextCommands : Prop :=
  ∀ (s : State) (mb : Mbox) (c : Caller) (a : List Word),
    (cmdAdmitted s mb cmdCtxCreate c a → argN a 0 < 0x1000 → argN a 2 ≤ 15 → argN a 3 = 0 → (s.ctx (argN a 0)).st = .free →
      quotaFull s c.sl 0 = false → exec (.ctxCreate mb) s =
        .next (answered mb [rw (argN a 0), rw ((s.ctx (argN a 0)).epoch + 1).toNat] (touchCtx (argN a 0) (tagUpdate (argN a 0) true
          (s.updCtx (argN a 0) (fun _ => { st := .active, epoch := (s.ctx (argN a 0)).epoch + 1, slice := c.sl, panels := [], seed := arg a 1
                                           resTimeout := argN a 2 })))))) ∧
    (cmdAdmitted s mb cmdCtxSetPanel c a → (s.mbox c.mb).started = true →
      drained s (argN a 0) (s.mbox c.mb).inv.1 (s.mbox c.mb).inv.2 = true →
      exec (.ctxSetPanel mb) s = .next (answered mb [] s)) ∧
    (cmdAdmitted s mb cmdCtxSetPanel c a → (s.mbox c.mb).started = false → ctxNamed s c (argN a 0) = true →
      (s.ctx (argN a 0)).st = .active → argN a 1 < 8 → panelHeld s (argN a 0) (argN a 1) = false →
      panelBad s c.sl (((s.ctx (argN a 0)).panels.filter (fun e => e.1 != argN a 1)).map (·.2)) (panelArg a 2) = none →
      canInvalidate s (argN a 0) (argN a 1) = true →
      let t := invBegin c.mb (argN a 0) (argN a 1) none (replacePanel (argN a 0) (argN a 1) (panelArg a 2) s)
      exec (.ctxSetPanel mb) s =
        .next (if drained t (argN a 0) (argN a 1) ((t.ctx (argN a 0)).panel (argN a 1)).tgen then answered mb [] t else t)) ∧
    (cmdAdmitted s mb cmdCtxQuery c a → ownCtx s c (argN a 0) = true → exec (.ctxQuery mb) s =
      .next (answered mb ([rw (ctxStateCode (s.ctx (argN a 0)).st), rw (s.ctx (argN a 0)).epoch.toNat, rw (s.ctx (argN a 0)).lostCause,
        rw (s.ctx (argN a 0)).slice] ++ (List.range 8).flatMap (fun i =>
          [((s.ctx (argN a 0)).panel i).p0, ((s.ctx (argN a 0)).panel i).p1, ((s.ctx (argN a 0)).panel i).p2, ((s.ctx (argN a 0)).panel i).p3])) s)) ∧
    (cmdAdmitted s mb cmdCtxDestroy c a → ctxNamed s c (argN a 0) = true → ((s.ctx (argN a 0)).st = .active ∨ (s.ctx (argN a 0)).st = .lost) →
      argN a 1 ≤ 1 → arg a 2 = 0 → exec (.ctxDestroy mb) s = .next (answered mb []
        (touchCtx (argN a 0) (drainCtx (argN a 0) (argN a 1 == 1) false (s.updCtx (argN a 0) (fun x => { x with doneMark := none })))))) ∧
    (cmdAdmitted s mb cmdCtxInvalidate c a → (s.mbox c.mb).started = false → argN a 0 < 4096 → (s.ctx (argN a 0)).st ≠ .free →
      (s.slice (s.ctx (argN a 0)).slice).st ≠ .draining → argN a 1 = 0 → argN a 2 < 8 → canInvalidate s (argN a 0) (argN a 2) = true →
      let t := invBegin c.mb (argN a 0) (argN a 2) none s
      exec (.ctxInvalidate mb) s =
        .next (if drained t (argN a 0) (argN a 2) ((t.ctx (argN a 0)).panel (argN a 2)).tgen then answered mb [] t else t)) ∧
    (cmdAdmitted s mb cmdCtxLose c a → argN a 0 < 4096 → (s.ctx (argN a 0)).st = .active → (s.slice (s.ctx (argN a 0)).slice).st ≠ .draining →
      exec (.ctxLose mb) s = .next (answered mb [] (touchCtx (argN a 0) (contextLost (argN a 0) 7 s))))

/-- Queue commands (R61, R76, R77, R88): a queue is made ACTIVE at index 0, closed, held, resumed. -/
def Obligations.QueueCommands : Prop :=
  ∀ (s : State) (mb : Mbox) (c : Caller) (a : List Word),
    (∀ n, cmdAdmitted s mb cmdQueueCreate c a → queueBad s c a = none → queueSlot s (argN a 1 == 0) = some n →
      (argN a 1 = 0 → quotaFull s c.sl 2 = false → exec (.queueCreate mb) s = .next (answered mb [rw n] (writeShadow n (touchSq n
        (s.updSq n (fun _ => { st := .active, size := 2 ^ argN a 3, ctx := argN a 0, locl := argN a 2, ringMo := dLo (arg a 4)
                               ringOff := argN a 5 - (s.moOf (dLo (arg a 4))).base, shadowMo := dLo (arg a 6)
                               shadowOff := argN a 7 - (s.moOf (dLo (arg a 6))).base, cq := argN a 8 })))))) ∧
      (argN a 1 ≠ 0 → quotaFull s c.sl 3 = false → exec (.queueCreate mb) s = .next (answered mb [rw n] (touchCq n
        (s.updCq n (fun _ => { active := true, size := 2 ^ argN a 3, ctx := argN a 0, locl := argN a 2, ringMo := dLo (arg a 4)
                               ringOff := argN a 5 - (s.moOf (dLo (arg a 4))).base, vector := (s.slice c.sl).msixBase + argN a 9 })))))) ∧
    (cmdAdmitted s mb cmdQueueDestroy c a → sqNamed s c (argN a 0) = true → (s.sq (argN a 0)).st ≠ .closed →
      let n := argN a 0
      let t (abort : Bool) : State := touchSq n (writeShadow n ((closeSq n abort s).updSq n (fun q => { q with destroyed := true })))
      (argN a 1 = 0 → exec (.queueDestroy mb) s = .next (answered mb [] (pumpFetch n (endArmed n false (t false))))) ∧
      (argN a 1 = 1 → exec (.queueDestroy mb) s = .next (answered mb [] (endArmed n true (endUnstarted n stAborted (t true)))))) ∧
    (cmdAdmitted s mb cmdQueueDestroy c a → sqNamed s c (argN a 0) = false → cqNamed s c (argN a 0) = true → argN a 1 = 0 →
      s.sqs.any (fun e => e.2.st != .free && e.2.cq == argN a 0) = false → s.qps.any (fun e => e.2.rxMo != 0 && e.2.rxCq == argN a 0) = false →
      exec (.queueDestroy mb) s = .next (answered mb [] (touchCq (argN a 0) { s with cqs := Tab.del s.cqs (argN a 0) }))) ∧
    (cmdAdmitted s mb cmdQueueHold c a → sqNamed s c (argN a 0) = true → (s.sq (argN a 0)).st = .active →
      exec (.queueHold mb) s = .next (answered mb [] (touchSq (argN a 0) (holdSq (argN a 0) .command s)))) ∧
    (cmdAdmitted s mb cmdQueueResume c a → sqNamed s c (argN a 0) = true → (s.sq (argN a 0)).st = .held → argN a 1 = 0 →
      exec (.queueResume mb) s = .next (answered mb [] (pumpFetch (argN a 0)
        ((touchSq (argN a 0) (resumeSq (argN a 0) s)).updSq (argN a 0) (fun q => { q with flush := false })))))

/-- QP commands and datagrams (R142-R146, R183, R382, R383): a QP goes RESET, INIT, ACTIVE, HELD and back, DRAINING, and from ERROR to RESET,
on its commands. -/
def Obligations.QpCommands : Prop :=
  ∀ (s : State) (mb : Mbox) (c : Caller) (a : List Word),
    (∀ n, cmdAdmitted s mb cmdQpCreate c a → ctxNamed s c (argN a 0) = true → (s.ctx (argN a 0)).st = .active → argN a 1 ≤ 1 →
      qpSlot s = some n → quotaFull s c.sl 1 = false → exec (.queueQpCreate mb) s = .next (answered mb [rw n]
        (touchQp n { s with qps := Tab.put s.qps n { mode := if argN a 1 = 0 then .ert else .roce, ctx := argN a 0 } }))) ∧
    (cmdAdmitted s mb cmdQpInit c a → qpNamed s c (argN a 0) = true → (s.qp (argN a 0)).st = .reset → qpInitBad s (argN a 0) a = none →
      ∃ t, exec (.queueQpInit mb) s = .next (answered mb [] (touchQp (argN a 0) t)) ∧ (t.qp (argN a 0)).st = .init ∧
        (t.qp (argN a 0)).localPorts = portsArg a ∧ (t.qp (argN a 0)).npaths = argN a 3 ∧ (t.qp (argN a 0)).payloadMax = argN a 5 ∧
        (t.qp (argN a 0)).rxMo = dLo (arg a 7) ∧ (t.qp (argN a 0)).ctx = (s.qp (argN a 0)).ctx ∧ t = { s with qps := t.qps }) ∧
    (∀ k, cmdAdmitted s mb cmdQpConnect c a → qpNamed s c (argN a 0) = true → (s.qp (argN a 0)).st = .init → (s.qp (argN a 0)).mode = .ert →
      qpConnectBad s (s.qp (argN a 0)) a = none → needleFor s = some k → exec (.queueQpConnect mb) s = .next (answered mb [rw k]
        (setAssigned k (touchQp (argN a 0) (s.updQp (argN a 0) (fun q => q.connected s k a)))))) ∧
    (cmdAdmitted s mb cmdQpHold c a → qpNamed s c (argN a 0) = true → (s.qp (argN a 0)).st = .active → exec (.queueQpHold mb) s =
      .next (answered mb [] (touchQp (argN a 0) (s.updQp (argN a 0) (fun q => { q with st := .held, cmdHeld := true }))))) ∧
    (cmdAdmitted s mb cmdQpResume c a → qpNamed s c (argN a 0) = true → (s.qp (argN a 0)).st = .held → (s.qp (argN a 0)).cmdHeld = true →
      (s.qp (argN a 0)).mode = .ert → exec (.queueQpResume mb) s = .next (answered mb [] (pumpWork (pumpQp 1024 (argN a 0)
        (touchQp (argN a 0) (s.updQp (argN a 0) (fun q => { q with st := .active, cmdHeld := false }))))))) ∧
    (cmdAdmitted s mb cmdQpDestroy c a → qpNamed s c (argN a 0) = true → (s.qp (argN a 0)).st ≠ .draining → argN a 1 ≤ 1 →
      exec (.queueQpDestroy mb) s = .next (answered mb [] (touchQp (argN a 0) (qpDrain (argN a 0) (argN a 1 == 1) s)))) ∧
    (∀ k, cmdAdmitted s mb cmdQpReset c a → qpNamed s c (argN a 0) = true → (s.qp (argN a 0)).st = .error → qpIdle s (argN a 0) = true →
      (s.qp (argN a 0)).needle = some k → exec (.queueQpReset mb) s = .next (answered mb []
        (setAssigned k (touchQp (argN a 0) (s.updQp (argN a 0) Qp.cleared))))) ∧
    (cmdAdmitted s mb cmdQpQuery c a → qpNamed s c (argN a 0) = true → (s.qp (argN a 0)).mode = .ert → exec (.queueQpQuery mb) s =
      .next (answered mb [rw (qpStateCode (s.qp (argN a 0)).st), 0, rw ((s.qp (argN a 0)).needle.getD 0), rw (s.qp (argN a 0)).errCause,
        rw (s.qp (argN a 0)).sndUna.toNat, rw (s.qp (argN a 0)).base.toNat] s)) ∧
    (cmdAdmitted s mb cmdCmSend c a → argN a 0 < 96 → 0 < argN a 3 → argN a 3 ≤ 256 → ∃ bytes, exec (.queueCmSend mb) s =
      .next (answered mb [] (egressPut (argN a 0) { kind := .roce, tc := 7, bytes := bytes
                                                    frame := .cm (netHdr s (argN a 0)
                                                        (decide ((addrOf (arg a 1) (arg a 2)).toNat % 2 ^ 96 = 0))
                                                        (addrOf (arg a 1) (arg a 2)) 7 0 4791 (roceVlan s (lpPort (argN a 0)) 7))
                                                      (((List.range 32).flatMap (fun i => leBytes 8 (argN a (4 + i)))).take (argN a 3)) } s))) ∧
    (∀ d, cmdAdmitted s mb cmdCmRecv c a → argN a 0 < 96 →
      (Tab.getD s.cm (c.slice.getD 512) []).find? (fun d => d.lport == argN a 0) = some d → exec (.queueCmRecv mb) s =
        .next (answered mb (rw d.data.length :: addrWords d.src ++ wordsOf 32 d.data)
          { s with cm := Tab.put s.cm (c.slice.getD 512) ((Tab.getD s.cm (c.slice.getD 512) []).erase d) }))

/-- Memory-object, window and marker commands (R29, R40-R59, R384, R385). -/
def Obligations.ObjectCommands : Prop :=
  ∀ (s : State) (mb : Mbox) (c : Caller) (a : List Word),
    let h := dLo (arg a 0)
    (∀ i p h' t, cmdAdmitted s mb cmdMemRegister c a → ctxNamed s c (argN a 0) = true → (s.ctx (argN a 0)).st = .active →
      argN a 1 % 64 = 0 → argN a 2 % 64 = 0 → argN a 2 ≠ 0 → rangePanel (s.ctx (argN a 0)) (argN a 1) (argN a 2) = some (i, p) →
      argN a 3 < 64 → BitVec.ofNat 6 (argN a 3) &&& ~~~p.rights = 0 → argN a 4 = 0 → quotaFull s c.sl 4 = false →
      moNew (fun o => { o with ctx := argN a 0, panel := i, base := argN a 1, len := argN a 2, rights := BitVec.ofNat 6 (argN a 3), coherent := false }) s
        = some (h', t) → exec (.memRegister mb) s = .next (answered mb [rw h'.toNat] t)) ∧
    (cmdAdmitted s mb cmdMemFree c a → moNamed s c h = true → liveRing s h = none → arg a 1 = 0 → (s.mo (moIndex h)).inv = false →
      exec (.memFree mb) s = .next (answered mb [] (touchMo (moIndex h) (retireMo (moIndex h) none s)))) ∧
    (cmdAdmitted s mb cmdMemQuery c a → moGen h ≠ 0 → (s.moOf h).gen = moGen h → (s.moOf h).st ≠ .free →
      c.owns (s.ctx (s.moOf h).ctx).slice = true → exec (.memQuery mb) s = .next (answered mb [rw (objCode (s.moOf h).st), rw (s.moOf h).ctx,
        rw (s.moOf h).base, rw (s.moOf h).len, rw (s.moOf h).rights.toNat, rw (s.moOf h).uses] s)) ∧
    (∀ i t, cmdAdmitted s mb cmdWinRegister c a → moNamed s c h = true → argN a 1 % 64 = 0 → argN a 2 % 64 = 0 → argN a 2 ≠ 0 →
      argN a 1 + argN a 2 ≤ (s.moOf h).len → argN a 3 &&& 0x5C = argN a 3 → winRightsOf (argN a 3) &&& ~~~(winGrant (s.moOf h)) = 0 →
      argN a 4 < 131072 → quotaFull s c.sl 5 = false → winSlot s = some (i, t) → exec (.winRegister mb) s =
        .next (answered mb [rw (winHandle i (nextGen (t.win i).gen 16383)).toNat] (touchWin i (t.updWin i (fun _ =>
          { gen := nextGen (t.win i).gen 16383, st := .valid, mo := h, off := argN a 1, len := argN a 2, rights := winRightsOf (argN a 3)
            allowedQp := argN a 4 }))))) ∧
    (cmdAdmitted s mb cmdWinRevoke c a → winGen h ≠ 0 → (s.win (winIndex h)).gen = winGen h → (s.win (winIndex h)).st = .valid →
      c.owns (s.ctx (winCtx s (s.win (winIndex h)))).slice = true → arg a 1 = 0 →
      exec (.winRevoke mb) s = .next (answered mb [] (touchWin (winIndex h) (retireWin (winIndex h) none s)))) ∧
    (∀ r t, (s.moOf h).imported = none → cmdMark c (arg a 0) s = (.ok r, t) →
      (cmdAdmitted s mb cmdMarkerReset c a → (arg a 1).getLsbD 63 = false → t.ops.any (fun e => e.2.waitsOn t r.key) = false →
        exec (.markerReset mb) s = .next (answered mb [] (storeMarker r (resetRecord (markerAt t r.key) (arg a 1)) t))) ∧
      (cmdAdmitted s mb cmdMarkerExport c a → argN a 1 < 512 → (t.slice (argN a 1)).st = .active → c.slice ≠ some (argN a 1) →
        t.cookies.length < 4096 → ∃ v u, exec (.markerExport mb) s = .next (answered mb [v] (raiseFlag r 5 u)) ∧
          u.cookies = { value := v, mark := r, slice := argN a 1, gen := (t.slice (argN a 1)).gen } :: t.cookies)) ∧
    (∀ k h' t, cmdAdmitted s mb cmdMarkerImport c a → cookieFor s c (arg a 0) = some k → ownCtx s c (argN a 1) = true →
      (s.ctx (argN a 1)).st = .active → quotaFull s c.sl 4 = false →
      moNew (fun o => { o with ctx := argN a 1, len := 16, rights := 0x20, imported := some k.mark }) s = some (h', t) →
      exec (.markerImport mb) s = .next (answered mb [rw h'.toNat] ({ t with cookies := t.cookies.erase k }.updMo (moIndex k.mark.mo)
        (fun o => { o with exports := (k.mark, some h') :: o.exports.erase (k.mark, none) })))) ∧
    (∀ r t, cmdAdmitted s mb cmdMarkerBind c a → argN a 2 ≤ 1 → bindNamed s c a = none → cmdMark c (arg a 0) s = (.ok r, t) →
      (t.ctx (argN a 1)).bindings.contains { qp := bindQp a, mark := r } = false → (t.ctx (argN a 1)).bindings.length < 4096 →
      exec (.markerBind mb) s = .next (answered mb [] (raiseFlag r 4 (touchCtx (argN a 1) (t.updCtx (argN a 1) (fun x =>
        { x with bindings := x.bindings ++ [{ qp := bindQp a, mark := r }] })))))) ∧
    (∀ b, cmdAdmitted s mb cmdMarkerUnbind c a → argN a 2 ≤ 1 → ownCtx s c (argN a 1) = true →
      (s.ctx (argN a 1)).bindings.find? (fun b => b.qp == bindQp a && b.mark.mo == h && b.mark.off == fld (arg a 0) 63 32 * 16) = some b →
      exec (.markerUnbind mb) s = .next (answered mb [] (unbound [b.mark] (touchCtx (argN a 1)
        (s.updCtx (argN a 1) (fun x => { x with bindings := x.bindings.erase b }))))))

/-- Group, skein, governor, fault, measurement and debug commands (R255-R258, R384, R386, R398, R411, R412, R436, R448, R462, R473). -/
def Obligations.GroupFaultAndDebugCommands : Prop :=
  ∀ (s : State) (mb : Mbox) (c : Caller) (a : List Word),
    (∀ ws, cmdAdmitted s mb (cmdGroupCreate (some ws)) c a → groupBad s c a = none →
      let ms := (ws.take (argN a 2)).map memberOf
      ms.length = argN a 2 → membersDistinct ms = true →
      (ms.filterMap id).any (fun q => (Tab.get s.qps q).isSome && (s.qp q).mode == .roce) = false →
      (ms.filterMap id).any (fun q => !ertLive s c.sl q) = false → (argN a 1 = 1 ∨ exactFull s (argN a 7) = false) → quotaFull s c.sl 7 = false →
      let t := setGroup (argN a 0) (fun _ => groupOf c a ms) s
      exec (.groupCreate mb (some ws)) s =
        .next (answered mb [] ((unheard (t.group (argN a 0))).foldl (fun s r => sendHello (argN a 0) r true s) t))) ∧
    (cmdAdmitted s mb cmdGroupDestroy c a → groupNamed s c (argN a 0) = true → (s.group (argN a 0)).st ≠ .draining →
      exec (.groupDestroy mb) s = .next (answered mb [] (groupDestroy (argN a 0) s))) ∧
    (cmdAdmitted s mb cmdGroupQuery c a → groupNamed s c (argN a 0) = true →
      let g := s.group (argN a 0)
      exec (.groupQuery mb) s = .next (answered mb [rw (groupCode g.st), rw (b2n g.switch), rw g.n, rw g.rank, rw g.nextSeq.toNat,
        rw g.reason, rw g.lostRank] s)) ∧
    (∀ o, cmdAdmitted s mb cmdSkeinQuery c a → sqNamed s c (argN a 0) = true → skeinAt s (argN a 0) (argN a 1) = some o →
      exec (.skeinQuery mb) s = .next (answered mb [rw (layersIn o (fun l => l != .idle && l != .triggered)),
        rw (layersIn o (· == .landed)), rw (layersIn o (· == .failed)), rw (layersIn o (· == .idle))] s)) ∧
    (cmdAdmitted s mb cmdGovQuery c a → c.slice = none →
      let die (p : Nat) : Nat := Tab.getD s.gov.dieMw p 0
      exec (.govQuery mb) s = .next (answered mb ([rw (s.gov.envelope / 1000), rw (s.gov.ownMw + ((List.range 4).map die).foldl (· + ·) 0)] ++
        (List.range 4).map (fun p => rw (die p)) ++ [rw s.gov.ownMw]) s)) ∧
    (cmdAdmitted s mb cmdGovSetEnvelope c a → 100 ≤ argN a 0 → argN a 0 ≤ 1600 → exec (.govSetEnvelope mb) s = .next (answered mb []
      { s with gov := { s.gov with next := some (1000 * argN a 0), caps := (List.range 4).map (fun p => (p, 1000 * argN a (1 + p))) } })) ∧
    (cmdAdmitted s mb cmdFaultQuery c a → argN a 0 < 60 → exec (.faultQuery mb) s =
      .next (answered mb [rw (unitCode (sstate s (argN a 0))), rw (fcSrc s (argN a 0)).fences, rw (fcSrc s (argN a 0)).cls] s)) ∧
    (cmdAdmitted s mb cmdFaultRestore c a → argN a 0 < 60 → fencedUnits s (argN a 0) ≠ [] → exec (.faultRestore mb) s =
      .next (answered mb [] ((fencedUnits s (argN a 0)).foldl (fun t u => setUnit (argN a 0) u .testing t)
        (updSrc (argN a 0) (fun c => { c with fences := 0 }) s)))) ∧
    (∀ two, cmdAdmitted s mb (cmdFaultInject two) c a → argN a 0 < 60 → codeClass s (argN a 0) (argN a 2) (argN a 3) = some (argN a 1) →
      unitNamed (argN a 0) (argN a 3) = true →
      let x := ownEv (argN a 0) (argN a 1) (argN a 2) (argN a 3) none (answered mb [] s)
      exec (.faultInject mb two) s = .next (onEvent (some two) { x.1 with injected := true } x.2)) ∧
    (cmdAdmitted s mb cmdSecMeasure c a → exec (.secMeasure mb) s =
      .next (answered mb (rw s.rumel.toNat :: wordsOf 6 (Tab.getD s.fnd.meas 3 (zeros 48))) s)) ∧
    (cmdAdmitted s mb cmdDbgCounters c a → c.slice = none → argN a 0 < 640 → argN a 1 < 8192 → 0 < argN a 2 → argN a 2 ≤ 500 →
      argN a 1 + argN a 2 ≤ 8192 → exec (.dbgCounters mb) s =
        .next (answered mb ((List.range (argN a 2)).map (fun i => rw (counterOf s (argN a 0) (argN a 1 + i)))) s)) ∧
    (cmdAdmitted s mb cmdDbgTrace c a → argN a 0 ≤ 1 → exec (.dbgTrace mb) s = .next (answered mb []
      (ceReport 59 0x1E 0 none (s.updFc (fun c => { c with recording := argN a 0 == 1, filter := arg a 1 }))))) ∧
    (cmdAdmitted s mb cmdDbgState c a → argN a 0 ≤ 5 → dbgFound s (argN a 0) (argN a 1) = true → ∃ rs, rs.length = 64 ∧
      exec (.dbgState mb) s = .next (answered mb rs { s with freeCtr := s.freeCtr + 64 })) ∧
    (∀ b, cmdAdmitted s mb (cmdSecBundleLoad (some b)) c a →
      let sm := s.moOf (dLo (arg a 0))
      moValid s (dLo (arg a 0)) = true → c.owns (s.ctx sm.ctx).slice = true → moValid s (dLo (arg a 3)) = true →
      c.owns (s.ctx (s.moOf (dLo (arg a 3))).ctx).slice = true → arg a 5 = 0 → decryptOk s 0 = true → sm.rights.getLsbD 0 = true →
      inside (argN a 1) (argN a 2) sm.base sm.len = true → badBundle b (argN a 2) = false →
      exec (.secBundleLoad mb (some b)) s = .next (
        let refuse (d : Nat) (t : State) : State := mbFinish (mbNum mb) msProtection d [] (forgetSeen (.command (mbNum mb)) t)
        match ownEntry b with
        | none => refuse 2 s
        | some e =>
          if (bundleKey b e).isNone then refuse 3 s
          else
            match loadDest c a b e none s with
            | (.ok rs, t) => answered mb rs t
            | (.wait, t) => t
            | (.err st d, _) => mbFinish (mbNum mb) st d [] (forgetSeen (.command (mbNum mb)) s)))

/-- Foundation's commands (R427, R434-R436, R440, R443, R445): a sealed load ends well or fails, the SPDM requests are answered in their
order, a debug unlock spends the nonce, a failed fuse check is an FT event, and a restart forgets negotiations and the nonce.
The codes of the answers are the model's (log 42). -/
def Obligations.FoundationCommands : Prop :=
  ∀ s : State,
    (∀ load l segs written, s.fc.dstate = .normal → Tab.get s.fnd.loads load = some l → l.running.isSome = true → l.doomed = false →
      let t := updFnd (fun f => { f with meas := Tab.put f.meas 8 (bundleChain (Tab.getD f.meas 8 (zeros 48)) l) }) s
      (l.done = none → exec (.bundleLoadDone load segs written) s =
        .next (if loadGood l segs && written then loadGone load l t else loadFail load s)) ∧
      (∀ r v, l.done = some (r, v) → exec (.bundleLoadDone load segs written) s =
        .next (if loadGood l segs && written then loadGone load l (applySignal r v t).2 else loadFail load s))) ∧
    (∀ t : Mctp, s.fnd.ready = true →
      exec (.getVersion t) s = .next (spdmReply t 0x84 [0x12, 0x13] (spdmSet t .version s)) ∧
      (spdmAt s t = .version → exec (.getCapabilities t) s = .next (spdmReply t 0xE1 [] (spdmSet t .capabilities s))) ∧
      (spdmAt s t = .capabilities → exec (.negotiateAlgorithms t true) s = .next (spdmReply t 0xE3 [] (spdmSet t .negotiated s)) ∧
        exec (.negotiateAlgorithms t false) s = .next (spdmError t s)) ∧
      (spdmAt s t = .negotiated →
        exec (.getDigests t) s = .next (spdmReply t 0x81 (digestBytes (Config.sha384 Config.certChain)) s) ∧
        (∀ off len, exec (.getCertificate t 0 off len) s = .next (if off < Config.certChain.length then
          spdmReply t 0x82 ((Config.certChain.drop off).take len) s else spdmError t s)) ∧
        (∀ nonce : BitVec 256, let b := digestBytes (Config.sha384 Config.certChain) ++ leBytes 32 nonce.toNat
          exec (.challenge t 0 nonce) s = .next (spdmReply t 0x83 (b ++ Config.identitySign b) s)) ∧
        (∀ k nonce, 1 ≤ k → k ≤ 8 → exec (.getMeasurements t k false nonce) s = .next (spdmReply t 0xE0 (measBlock s k) s) ∧
          exec (.getMeasurements t k true nonce) s =
            .next (spdmReply t 0xE0 (measBlock s k ++ Config.identitySign (measBlock s k ++ leBytes 32 nonce.toNat)) s))) ∧
      (spdmAt s t ≠ .negotiated → exec (.getDigests t) s = .next (spdmError t s)) ∧
      exec (.dbgNonce t) s = .next (emit (.mctp t 0x100 (leBytes 32 (Config.random s.freeCtr).toNat))
        { s with freeCtr := s.freeCtr + 1, fnd := { s.fnd with nonce := some (Config.random s.freeCtr) } }) ∧
      (∀ n level pub sig, s.fnd.nonce = some n → exec (.dbgUnlock t level pub sig false) s =
        .next (let ok := (level = 1 ∨ level = 2) ∧ s.sec.debugHash ≠ 0 ∧ Config.sha384 pub = s.sec.debugHash ∧
                 Config.ecdsaOk pub (leBytes 16 Config.deviceFpr.toNat ++ leBytes 32 n.toNat ++ [level]) sig = true
               let u := updFnd (fun f => { f with nonce := none }) s
               if ok then emit (.mctp t 0x101 [1]) (debugRaise level.toNat u) else emit (.mctp t 0x101 [0]) u)) ∧
      (∀ level pub sig, exec (.dbgUnlock t level pub sig true) s =
        .next (emit (.mctp t 0x101 [0]) (updFnd (fun f => { f with nonce := none }) s)))) ∧
    (s.fnd.ready = true → s.fc.dstate ≠ .halted →
      exec (.fuseRecheck true) s = .next s ∧
      exec (.fuseRecheck false) s = .next (ftReport none (ownEv 56 3 0x1B 0 none s).1 (ownEv 56 3 0x1B 0 none s).2) ∧
      exec .foundationRestart s = .next (ucReport 51 0x12 0 none { s with fnd := { s.fnd with spdm := [], nonce := none } }))

/-- Cast-on (R17, R429, R432, R450, R451, R455): VIN resets every domain, the groups of rails follow one another, Foundation tests
itself, an image is verified and accepted or rejected, and the Hooks start on an accepted one. -/
def Obligations.CastOnStepsInOrder : Prop :=
  ∀ s : State,
    exec .coldReset s = .next { pending := s.pending, sent := s.sent, freeCtr := s.freeCtr, castOnFuse := s.castOnFuse, sec := s.sec
                                castOn := { powered := true, perst := s.castOn.perst } } ∧
    exec .vinLoss s = .next { pending := s.pending, sent := s.sent, freeCtr := s.freeCtr, castOnFuse := s.castOnFuse, sec := s.sec
                              castOn := { powered := false, perst := s.castOn.perst } } ∧
    (∀ ball, s.castOn.powered = true → s.castOn.rails < 5 → exec (.railsInTolerance (s.castOn.rails + 1) ball) s =
      .next { s with castOn := { s.castOn with rails := s.castOn.rails + 1 }
                     fleet := if s.castOn.rails = 0 then s.castOnFuse.getLsbD 0 || ball else s.fleet }) ∧
    (s.castOn.rails = 5 → s.castOn.measured = false →
      exec (.refclkMeasured false) s = .next { s with castOn := { s.castOn with measured := true, ssc := false } } ∧
      exec (.refclkMeasured true) s =
        .next (ucReport 53 0x15 0 none (allPortsDown { s with castOn := { s.castOn with measured := true, ssc := true } }))) ∧
    (s.castOn.rails = 5 → s.fnd.ready = false → s.fc.dstate ≠ .halted →
      (∀ rom rng, exec (.foundationReady false rom rng) s =
        .next (ftReport none (ownEv 56 3 0x1B 0 none s).1 (ownEv 56 3 0x1B 0 none s).2)) ∧
      (∀ rng, exec (.foundationReady true false rng) s =
        .next (ftReport none (ownEv 51 3 0x13 0 none s).1 (ownEv 51 3 0x13 0 none s).2)) ∧
      exec (.foundationReady true true true) s = .next (bootSync { s with fnd := { s.fnd with
        ready := true
        meas := [(1, digestBytes Config.romDigest), (2, digestBytes (Config.sha384 (fuseImage s))),
          (6, [BitVec.ofNat 8 (b2n s.fleet), 0xB0]), (7, [0]), (8, zeros 48)] } })) ∧
    (∀ fuseOk, s.castOn.st = .verifying → s.fc.dstate ≠ .halted →
      let b := stageRead s.castOn.staging 0 s.castOn.goLen
      let r := imageReason s.sec s.castOn.goLen b
      let u := rejectImage 5 s
      exec (.imageVerified fuseOk) s = .next (
        if r ≠ 0 then rejectImage r s
        else if leAt b 6 1 % 2 = 0 ∨ imageSvn b ≤ s.sec.minSvn then acceptImage b s
        else if fuseOk then acceptImage b (emit (.fuse (imageSvn b)) { s with sec := { s.sec with minSvn := imageSvn b } })
        else ftReport none (ownEv 56 3 0x1B 0 none u).1 (ownEv 56 3 0x1B 0 none u).2)) ∧
    (s.castOn.st = .accepted → s.fc.dstate ≠ .halted →
      (∀ gib, s.hooksUp = false → exec (.hooksStarted gib) s =
        .next ((presentLinks s).foldl (fun s l => s.updLink l (fun k => { k with bar2Log2 := bar2Cover gib }))
          { s with rumel := 0x0302, hbmGib := gib, hooksUp := true, castOn := { s.castOn with staging := [] } })) ∧
      (∀ route stash w, s.hooksUp = true → exec (.castOnReady route stash w []) s =
        .next { s with dlRoute := route, gov := { s.gov with envelope := w * 1000 }, sc := { s.sc with stash := some stash }
                       castOn := { s.castOn with st := .ready } }))

/-- The routes of an image (R457-R460): the first to deliver bytes claims the staging buffer, its GO asks for the verification, ABORT or
a second without bytes ends the claim, and the others are refused. -/
def Obligations.ImageRoutes : Prop :=
  ∀ s : State, s.fc.dstate ≠ .halted →
    (∀ off bs, s.castOnFuse.getLsbD 13 = false → off + bs.length ≤ 0x03000000 → (imageWait s = true ∨ claimedBy s .bar4 = true) →
      exec (.bar4ImageWrite off bs) s = .next (deliverBytes .bar4 off bs s)) ∧
    (∀ off bs, imageWait s = false → claimedBy s .bar4 = false →
      exec (.bar4ImageWrite off bs) s = .next (count 525 (256 * mgrLink s + 4) s)) ∧
    (∀ off bs, s.castOnFuse.getLsbD 14 = false → off + bs.length ≤ 0x03000000 → 0 < bs.length → bs.length ≤ 240 →
      (imageWait s = true ∨ claimedBy s .i3c = true) →
      exec (.imgWrite off bs) s = .next (emit (.mctp .i3c 0x10 [0]) (deliverBytes .i3c off bs s))) ∧
    (∀ off bs n, imageWait s = false → claimedBy s .i3c = false →
      exec (.imgWrite off bs) s = .next (emit (.mctp .i3c 0x10 [1]) s) ∧ exec (.imgGo n) s = .next (emit (.mctp .i3c 0x11 [1]) s) ∧
        exec .imgAbort s = .next (emit (.mctp .i3c 0x13 [1]) s)) ∧
    (∀ off bs, s.castOnFuse.getLsbD 14 = false → imageWait s = true → 0x03000000 < off + bs.length →
      exec (.imgWrite off bs) s = .next (emit (.mctp .i3c 0x10 [2]) s)) ∧
    exec .imgStatus s = .next (emit (.mctp .i3c 0x12 (0 :: leBytes 2 (coStatus s))) s) ∧
    (∀ n, s.castOn.st = .claimed →
      (s.castOn.route = .bar4 → n < 2 ^ 26 → exec (.go n) s =
        .next { s with castOn := { s.castOn with st := .verifying, goLen := n, len := n } }) ∧
      (s.castOn.route ≠ .bar4 → n < 2 ^ 26 → exec (.go n) s = .next { s with castOn := { s.castOn with len := n } }) ∧
      (s.castOn.route = .i3c → s.castOnFuse.getLsbD 14 = false → exec (.imgGo n) s =
        .next (emit (.mctp .i3c 0x11 [0]) { s with castOn := { s.castOn with st := .verifying, goLen := n } })) ∧
      exec .claimTimeout s = .next (endClaim .waiting s)) ∧
    (claimedBy s .bar4 = true → exec .abort s = .next (endClaim .waiting s)) ∧
    (claimedBy s .i3c = true → s.castOnFuse.getLsbD 14 = false →
      exec .imgAbort s = .next (emit (.mctp .i3c 0x13 [0]) (endClaim .waiting s))) ∧
    (bootUp s = true → s.castOn.st ≠ .verifying → exec .bootReqTimer s = .next (sendBoot 1 0 s.castOn.held s)) ∧
    (∀ off total bs, bootUp s = true → (imageWait s = true ∨ claimedBy s .native = true) → s.castOn.st ≠ .verifying →
      0 < bs.length → bs.length ≤ 2048 → total ≤ 0x03000000 → off + bs.length ≤ total →
      let t := deliverBytes .native off bs s
      let u := { t with castOn := { t.castOn with total := some total, held := off + bs.length } }
      ((s.castOn.total = none ∨ s.castOn.total = some total) → off = s.castOn.held →
        (off + bs.length < total → exec (.bootData off total bs) s = .next u) ∧
        (off + bs.length = total → exec (.bootData off total bs) s = .next (goVerify .native total u))) ∧
      ((s.castOn.total = none ∨ s.castOn.total = some total) → s.castOn.held < off →
        exec (.bootData off total bs) s = .next (sendBoot 1 0 s.castOn.held s)) ∧
      (∀ k, s.castOn.total = some k → k ≠ total → exec (.bootData off total bs) s = .next (countUnnamed s)))

/-- R405: a halted device leaves HALTED only when VIN is removed; until then no completion, marker write, interrupt or request to a
host follows, whatever command is at the front. VIN_LOSS, and the rise that follows, end it. -/
def Obligations.HaltedEndsOnlyWithVin : Prop :=
  (∀ s t : State, s.fc.dstate = .halted → step s = .next t →
    (∃ c rest, s.pending = c :: rest ∧ vinChanges c = true) ∨ haltKept s t) ∧
  (∀ (s t : State) (c : Instr) (rest : List Instr), s.pending = c :: rest → vinChanges c = true → step s = .next t → t.fc.dstate = .normal)

/-- The 32-byte ERT header carries every field: the header read back from its bytes, byte 0 first, is the header that was written, and
its reserved bits are 0 (R152). -/
def Obligations.ErtHeaderRoundTrip : Prop :=
  ∀ h : ErtHdr, (ertHeaderBytes h).length = 32 ∧ ertParse (BitVec.ofNat 256 (ofLe (ertHeaderBytes h).reverse)) = h ∧
    (ertBits h).getLsbD 224 = false ∧ ∀ i, 144 ≤ i → i ≤ 150 → (ertBits h).getLsbD i = false

/-- R267: a long row adds every finite contribution exactly, and what it holds does not depend on the order of the contributions,
for sums and for MAX and MIN alike. -/
def Obligations.LongRowsAreExactAndOrderFree : Prop :=
  (∀ xs : List Sys2Proof.Machine.Num, (∀ x ∈ xs, x.finite = true) → (xs.map (fun x => x.units.natAbs)).sum < 2 ^ 319 →
    (xs.foldl (LongRow.fold 0) {}).v.toInt = (xs.map (fun x => x.units)).sum) ∧
  (∀ (red : Nat) (r : LongRow) (xs ys : List Sys2Proof.Machine.Num), xs.Perm ys → (∀ x ∈ xs, x.units.natAbs < 2 ^ 319) →
    xs.foldl (LongRow.fold red) r = ys.foldl (LongRow.fold red) r)

/-- R49, R51: legal signals on a good record raise VALUE to the greatest of them, in any order; once STATUS is not 0 the value and the
first error stand; a signal at or above 2^63 is RANGE; and the record's 16 bytes hold its fields (R48). -/
def Obligations.MarkersTakeTheGreatestSignal : Prop :=
  (∀ (m : Marker) (vs : List Word), m.status = 0 → (∀ v ∈ vs, legalSignal v) →
    (signals m vs).value.toNat = (vs.map BitVec.toNat).foldl max m.value.toNat ∧ (signals m vs).status = 0) ∧
  (∀ (m : Marker) (vs ws : List Word), m.status = 0 → (∀ v ∈ vs, legalSignal v) → vs.Perm ws → (signals m vs).value = (signals m ws).value) ∧
  (∀ (m : Marker) (vs : List Word) (c d : Nat), m.status ≠ 0 →
    (signals m vs).value = m.value ∧ (signals m vs).code = m.code ∧ (signals m vs).detail = m.detail ∧ errorRecord m c d = m) ∧
  (∀ (m : Marker) (v : Word), m.status = 0 → ¬legalSignal v →
    (signalRecord m v).1 = .rejected ∧ (signalRecord m v).2.value = m.value ∧ (signalRecord m v).2.code = 9 ∧
      (signalRecord m v).2.flags.getLsbD 1 = true) ∧
  (∀ m : Marker, m.bytes.length = 16 ∧ leAt m.bytes 0 8 = m.value.toNat ∧ leAt m.bytes 8 4 = m.status ∧ leAt m.bytes 12 2 = m.ooo.toNat ∧
    leAt m.bytes 14 2 = m.flags.toNat)

/-- R53: no signal raises an exhausted marker, waits for every target up to 2^63 - 1 are satisfied, marker.reset alone returns it to
use, and VALUE never wraps. -/
def Obligations.ExhaustedMarkersStay : Prop :=
  (∀ (m : Marker) (vs : List Word), m.value.toNat = 2 ^ 63 - 1 →
    (signals m vs).value = m.value ∧ ∀ t, t ≤ 2 ^ 63 - 1 → waitState (signals m vs) t = .satisfied) ∧
  (∀ (m : Marker) (c d : Nat), (errorRecord m c d).value = m.value) ∧
  (∀ (m : Marker) (v : Word), (resetRecord m v).value = v) ∧
  (∀ (m : Marker) (vs : List Word), m.value.toNat < 2 ^ 63 →
    m.value.toNat ≤ (signals m vs).value.toNat ∧ (signals m vs).value.toNat < 2 ^ 63)

/-- R54: marker.reset from the owning slice sets VALUE to the given value below 2^63, and STATUS, OOO_COUNT and FLAGS[3:0] to 0; it
fails with MARKER_BUSY while a hardware wait on the marker is pending; and an importer, or a slice that owns no record there, does not
reset it. (The statuses of the last two, PROTECTION and STALE_HANDLE, are R370's.) -/
def Obligations.MarkerResetStartsTheRecordAgain : Prop :=
  ∀ (s : State) (mb : Mbox) (c : Caller) (a : List Word), cmdAdmitted s mb cmdMarkerReset c a → (arg a 1).toNat < 2 ^ 63 →
    let h := dLo (arg a 0)
    let refused (st : Nat) : State := mbFinish (mbNum mb) st (argOff 0) [] (forgetSeen (.command (mbNum mb)) s)
    (∀ r t, (s.moOf h).imported = none → cmdMark c (arg a 0) s = (.ok r, t) →
      let m := resetRecord (markerAt t r.key) (arg a 1)
      (t.ops.any (fun e => e.2.waitsOn t r.key) = false → exec (.markerReset mb) s = .next (answered mb [] (storeMarker r m t))) ∧
      (t.ops.any (fun e => e.2.waitsOn t r.key) = true → exec (.markerReset mb) s = .next (refused msMarkerBusy)) ∧
      m.value = arg a 1 ∧ m.status = 0 ∧ m.ooo = 0 ∧ m.flags &&& 0xF#16 = 0) ∧
    (markNamed s c h = true → (s.moOf h).imported.isSome = true → exec (.markerReset mb) s = .next (refused msProtection)) ∧
    (c.owns (s.ctx (s.moOf h).ctx).slice = false → exec (.markerReset mb) s = .next (refused msStale))

/-- R93: the work extents of a divided operation are 1 to 16 runs of E bytes that follow one another and cover its bytes exactly; a
`SEND` and an atomic have one. -/
def Obligations.ExtentsCoverTheOperation : Prop :=
  (∀ o : Op, (o.opcode = 0x01 ∨ o.opcode = 0x02 ∨ o.opcode = 0x03 ∨ o.opcode = 0x10 ∨ o.opcode = 0x11) →
    let e := max 262144 (roundUp (ceilDiv o.length 16) 4096)
    o.splits.length = max 1 (ceilDiv o.length e) ∧ o.splits.length ≤ 16 ∧
    (∀ i x, o.splits[i]? = some x → x.off = i * e ∧ x.off + x.len = min ((i + 1) * e) o.length) ∧
    (o.splits.map (fun x => x.len)).sum = o.length ∧ (o.length ≤ 262144 → o.splits.length = 1)) ∧
  (∀ o : Op, (o.opcode = 0x12 ∨ o.opcode = 0x18 ∨ o.opcode = 0x19) → o.splits.length = 1)
end

