-- ==== Sys2Proof/Laws/Halted.lean ====
section
/-! SUPPORT. What each shared operation does to a halted device (R405): it stays halted, its queues, completions and markers stay, and
nothing goes to a host. -/

namespace Sys2Proof.Machine

theorem running_h {s : State} (h : s.fc.dstate = .halted) : running s = false := by simp [running, h]

theorem haltKept_refl {s : State} (h : s.fc.dstate = .halted) : haltKept s s := by simp [haltKept, h]

theorem haltKept_trans {s t u : State} (a : haltKept s t) (b : haltKept t u) : haltKept s u := by
  simp_all [haltKept]

theorem haltKept_halted {s t : State} (a : haltKept s t) : t.fc.dstate = .halted := a.1

theorem haltKept_then {s t : State} {f : State → State} (a : haltKept s t) (b : ∀ {u}, u.fc.dstate = .halted → haltKept u (f u)) : haltKept s (f t) :=
  haltKept_trans a (b a.1)

theorem haltKept_fold {α} {f : State → α → State} (b : ∀ {u} x, u.fc.dstate = .halted → haltKept u (f u x)) :
    ∀ (l : List α) {s : State}, s.fc.dstate = .halted → haltKept s (l.foldl f s)
  | [], _, h => haltKept_refl h
  | x :: l, _, h => haltKept_trans (b x h) (haltKept_fold b l (b x h).1)

theorem haltKept_ite {s a b : State} {p : Prop} [Decidable p] (x : haltKept s a) (y : haltKept s b) : haltKept s (if p then a else b) := by
  split <;> assumption

theorem haltKept_countBy {s : State} (n m k : Nat) (h : s.fc.dstate = .halted) : haltKept s (countBy n m k s) := by
  simp [haltKept, countBy, hostSent, mgrLink, linkPresent, h]

theorem haltKept_count {s : State} (n m : Nat) (h : s.fc.dstate = .halted) : haltKept s (count n m s) := haltKept_countBy _ _ _ h

theorem haltKept_countUnnamed {s : State} (h : s.fc.dstate = .halted) : haltKept s (countUnnamed s) := haltKept_count _ _ h

theorem haltKept_dropWrite {s : State} (h : s.fc.dstate = .halted) : haltKept s (dropWrite s) := haltKept_count _ _ h

theorem haltKept_dbDrop {s : State} (n) (h : s.fc.dstate = .halted) : haltKept s (dbDrop n s) := haltKept_count _ _ h
def notHostSend : Emission → Bool | .host _ _ => false | _ => true

theorem haltKept_emit {s : State} (e : Emission) (he : notHostSend e = true) (h : s.fc.dstate = .halted) : haltKept s (emit e s) := by
  cases e <;> simp_all [haltKept, emit, hostSent, mgrLink, linkPresent, notHostSend]

theorem haltKept_updLink {s : State} (l f) (h : s.fc.dstate = .halted) : haltKept s (s.updLink l f) := by
  simp [haltKept, State.updLink, hostSent, mgrLink, linkPresent, h]

theorem haltKept_updLport {s : State} (l f) (h : s.fc.dstate = .halted) : haltKept s (s.updLport l f) := by
  simp [haltKept, State.updLport, hostSent, mgrLink, linkPresent, h]

theorem haltKept_updQp {s : State} (l f) (h : s.fc.dstate = .halted) : haltKept s (s.updQp l f) := by
  simp [haltKept, State.updQp, hostSent, mgrLink, linkPresent, h]

theorem haltKept_updFnd {s : State} (f) (h : s.fc.dstate = .halted) : haltKept s (updFnd f s) := by
  simp [haltKept, updFnd, hostSent, mgrLink, linkPresent, h]

theorem haltKept_updXlt {s : State} (f) (h : s.fc.dstate = .halted) : haltKept s (s.updXlt f) := by
  simp [haltKept, State.updXlt, hostSent, mgrLink, linkPresent, h]

theorem haltKept_updSc {s : State} (f) (h : s.fc.dstate = .halted) : haltKept s (updSc f s) := by
  simp [haltKept, updSc, hostSent, mgrLink, linkPresent, h]

theorem haltKept_updCo {s : State} (f) (h : s.fc.dstate = .halted) : haltKept s (updCo f s) := by
  simp [haltKept, updCo, hostSent, mgrLink, linkPresent, h]

theorem haltKept_castOn {s : State} (c) (h : s.fc.dstate = .halted) : haltKept s { s with castOn := c } := by
  simp [haltKept, hostSent, mgrLink, linkPresent, h]

theorem haltKept_updFc {s : State} (f : Fc → Fc) (hf : ∀ c, (f c).dstate = c.dstate) (h : s.fc.dstate = .halted) : haltKept s (s.updFc f) := by
  simp [haltKept, State.updFc, hostSent, mgrLink, linkPresent, h, hf]

theorem starting_h {s : State} (h : s.fc.dstate = .halted) (sq idx op go) : starting sq idx op go s = s := by
  unfold starting; split
  · rfl
  · next o ho => simp [mayStart, running_h h, ho]

theorem runCmd_h {s : State} (h : s.fc.dstate = .halted) (mb k) : runCmd mb k s = done s := by
  simp [runCmd, running_h h]

theorem haltKept_rowOp {s : State} (h : s.fc.dstate = .halted) (p k) {f} (b : ∀ {u}, u.fc.dstate = .halted → haltKept u (f u)) : haltKept s (rowOp p k f s) := by
  unfold rowOp; split
  · exact haltKept_refl h
  · exact haltKept_then (haltKept_count _ _ h) b

theorem rxGate_h {s : State} (h : s.fc.dstate = .halted) (p b) : rxGate p b s = .stop (countUnnamed s) := by
  simp [rxGate, running_h h]

theorem haltKept_roceGate {s : State} (h : s.fc.dstate = .halted) (p k) : haltKept s (roceGate p k s) := by
  have h1 := haltKept_count 524 (32 * p.lport + 1) h
  simp only [roceGate, running_h h1.1, Bool.not_false, if_true]
  exact haltKept_then h1 haltKept_countUnnamed

theorem haltKept_heldReg {s : State} (h : s.fc.dstate = .halted) (i a w f) : haltKept s (heldReg i a w f s) := by
  unfold heldReg; split
  · exact haltKept_dropWrite h
  · simp only [h]; exact haltKept_dropWrite h

theorem haltKept_mgrReg {s : State} (h : s.fc.dstate = .halted) (i w f) : haltKept s (mgrReg i w f s) := haltKept_heldReg h ..

theorem haltKept_fcReg {s : State} (h : s.fc.dstate = .halted) (w f) : haltKept s (fcReg w f s) := by
  simp [fcReg, h, haltKept_dropWrite]

theorem haltKept_scReg {s : State} (h : s.fc.dstate = .halted) (w f) : haltKept s (scReg w f s) := by
  unfold scReg; split
  · exact haltKept_dropWrite h
  · simp only [h]; exact haltKept_dropWrite h

theorem haltKept_dbGate {s : State} (h : s.fc.dstate = .halted) (l n k) : haltKept s (dbGate l n s k) := by
  simp [dbGate, h, haltKept_dropWrite]

theorem running_cu {s : State} (n m) : running (count n m s) = running s := rfl

theorem hostSent_two {t : State} {l v : Nat} (a d) (e : Emission) (hv : v = 2) (hl : l = mgrLink t) (he : e = .host l (.msix v a d) := by rfl) :
    hostSent (emit e t) = hostSent t := by
  subst he hv hl
  unfold hostSent emit
  rw [List.filter_cons_of_neg]
  · rfl
  · simp only [beq_self_eq_true, Bool.true_and, Bool.not_eq_true, Bool.not_eq_false']
    exact beq_self_eq_true _

theorem haltKept_hostSend {s : State} (l r) (h : s.fc.dstate = .halted) : haltKept s (hostSend l r s) := by
  unfold hostSend; split
  · exact haltKept_refl h
  · next hs =>
    have hy : haltKept s (cwcYield l r.range.1 r.range.2 s) := by
      unfold cwcYield; refine haltKept_fold (fun x hu => ?_) _ h
      dsimp only; split
      · refine haltKept_then (t := State.updLink _ l _) ?_ (fun hv => haltKept_emit _ rfl hv)
        simp [haltKept, State.updLink, hostSent, mgrLink, linkPresent, hu]
      · simp [haltKept, hostSent, mgrLink, linkPresent, hu]
    refine haltKept_trans hy ?_
    generalize cwcYield l r.range.1 r.range.2 s = t at hy
    have ht := hy.1
    dsimp only; split
    · exact haltKept_updLink _ _ ht
    · split
      · exact haltKept_updLink _ _ ht
      · have hm : mgrLink t = mgrLink s := by unfold mgrLink linkPresent; rw [hy.2.1]
        have hv : haltSends s l r = true := by simpa using hs
        cases r with
        | msix v a d =>
          simp only [haltSends, h, bne_self_eq_false, Bool.false_or, Bool.and_eq_true, beq_iff_eq] at hv
          exact ⟨ht, rfl, rfl, rfl, rfl, rfl, hostSent_two a d _ hv.1 (hv.2.trans hm.symm)⟩
        | _ => simp [haltSends, h] at hv

theorem haltKept_sendMsix {s : State} (l v) (h : s.fc.dstate = .halted) : haltKept s (sendMsix l v s) := by
  unfold sendMsix; dsimp only; split
  · exact haltKept_refl h
  · split
    · exact haltKept_updLink _ _ h
    · exact haltKept_then (haltKept_hostSend _ _ h) (fun hu => haltKept_count _ _ hu)

theorem haltKept_releaseMsix {s : State} (l) (h : s.fc.dstate = .halted) : haltKept s (releaseMsix l s) := by
  unfold releaseMsix; refine haltKept_fold (fun x hu => ?_) _ h
  dsimp only; split
  · exact haltKept_refl hu
  · exact haltKept_then (haltKept_updLink _ _ hu) (haltKept_sendMsix _ _)

theorem haltKept_releaseFlags {s : State} (l) (h : s.fc.dstate = .halted) : haltKept s (releaseFlags l s) := by
  unfold releaseFlags; dsimp only; split
  · exact haltKept_refl h
  · exact haltKept_trans (haltKept_updLink _ _ h) (haltKept_fold (fun x hu => haltKept_hostSend _ _ hu) _ (haltKept_updLink _ _ h).1)

theorem haltKept_releaseLink {s : State} (l) (h : s.fc.dstate = .halted) : haltKept s (releaseLink l s) := by
  unfold releaseLink; dsimp only; split
  · exact haltKept_refl h
  · refine haltKept_then (haltKept_trans (haltKept_updLink _ _ h) (haltKept_fold (fun x hu => haltKept_hostSend _ _ hu) _ (haltKept_updLink _ _ h).1)) (haltKept_releaseFlags _)

theorem haltKept_updMod {s : State} (l f) (h : s.fc.dstate = .halted) : haltKept s (s.updMod l f) := by
  simp [haltKept, State.updMod, hostSent, mgrLink, linkPresent, h]

theorem haltKept_updMo {s : State} (l f) (h : s.fc.dstate = .halted) : haltKept s (s.updMo l f) := by
  simp [haltKept, State.updMo, hostSent, mgrLink, linkPresent, h]

theorem haltKept_updSrc {s : State} (n f) (h : s.fc.dstate = .halted) : haltKept s (updSrc n f s) := by
  simp [haltKept, State.updFc, updSrc, hostSent, mgrLink, linkPresent, h]

theorem haltKept_dlSendNow {s : State} (mi c) (h : s.fc.dstate = .halted) : haltKept s (dlSendNow mi c s) := by
  have a := haltKept_emit (.flit mi (s.mod mi).nextFseq false c) rfl h
  have b := haltKept_trans a (haltKept_count 526 (64 * mi) a.1)
  exact haltKept_trans b (haltKept_updMod _ _ b.1)

theorem haltKept_dlSend {s : State} (mi c) (h : s.fc.dstate = .halted) : haltKept s (dlSend mi c s) := by
  unfold dlSend; dsimp only; split
  · exact haltKept_dlSendNow _ _ h
  · exact haltKept_updMod _ _ h

theorem haltKept_dlIssueNow {s t : State} (p c) (h : s.fc.dstate = .halted) (e : dlIssueNow p c s = some t) : haltKept s t := by
  unfold dlIssueNow at e; split at e
  · cases e
  · cases e; exact haltKept_then (haltKept_updMod _ _ h) (haltKept_dlSend _ _)

theorem haltKept_askBack {s : State} (a_1 b c d e) (h : s.fc.dstate = .halted) : haltKept s (askBack a_1 b c d e s) := by
  have a : haltKept s { s with biWait := s.biWait ++ [{ link := a_1, line := b, purp := d, cmd := e }] } := by
    simp [haltKept, hostSent, mgrLink, linkPresent, h]
  unfold askBack; dsimp only; split
  · exact a
  · have b := haltKept_trans a (haltKept_emit (.backInvalidate a_1 b c) rfl a.1)
    exact haltKept_trans b (haltKept_count _ _ b.1)

theorem haltKept_dlIssue {s t : State} (p c) (h : s.fc.dstate = .halted) (e : dlIssue p c s = some t) : haltKept s t := by
  unfold dlIssue at e; split at e
  · cases e
  · split at e
    · cases e; exact haltKept_askBack _ _ _ _ _ h
    · cases e; simp [haltKept, hostSent, mgrLink, linkPresent, h]
    · exact haltKept_dlIssueNow _ _ h e

theorem haltKept_writeZeros {s : State} (a b c) (h : s.fc.dstate = .halted) : haltKept s (writeZeros a b c s) := by
  unfold writeZeros
  refine haltKept_fold (fun x hu => haltKept_fold (fun y hv => ?_) _ hu) _ h
  cases e : dlIssue c (cmdWrite (accessTag _ a) 0 y.2.1 (zeros y.2.2)) _ with
  | none => exact haltKept_refl hv
  | some t => exact haltKept_dlIssue _ _ hv e

theorem haltKept_loadPump {s : State} (h : s.fc.dstate = .halted) : haltKept s (loadPump s) := by
  unfold loadPump
  refine haltKept_fold (fun x hu => ?_) _ h
  split
  · exact haltKept_refl hu
  · split
    · exact haltKept_updFnd _ hu
    · exact haltKept_refl hu

theorem haltKept_loadFail {s : State} (n) (h : s.fc.dstate = .halted) : haltKept s (loadFail n s) := by
  unfold loadFail; split
  · exact haltKept_refl h
  · split
    · exact haltKept_refl h
    · refine haltKept_then ?_ haltKept_loadPump
      refine haltKept_then (haltKept_trans (haltKept_count _ _ (haltKept_updFnd _ h).1 |> haltKept_trans (haltKept_updFnd _ h)) (haltKept_writeZeros _ _ _ (haltKept_count _ _ (haltKept_updFnd _ h).1).1)) (fun hu => ?_)
      unfold loadZeroed; split
      · exact haltKept_refl hu
      · simp [hu, haltKept]

theorem haltKept_traceWrite {s : State} (e c) (h : s.fc.dstate = .halted) : haltKept s (traceWrite e c s) := by
  unfold traceWrite; split
  · exact haltKept_refl h
  · exact haltKept_updFc _ (fun c => rfl) h

theorem haltKept_countEvent {s : State} (e) (h : s.fc.dstate = .halted) : haltKept s (countEvent e s) := by
  unfold countEvent; exact haltKept_ite (haltKept_then (haltKept_updSrc _ _ h) (haltKept_traceWrite _ _)) (haltKept_updSrc _ _ h)

theorem haltKept_setStatus {s : State} (e) (h : s.fc.dstate = .halted) : haltKept s (setStatus e s) := by
  unfold setStatus; exact haltKept_then (haltKept_updFc _ (fun c => rfl) h) (haltKept_updSrc _ _)

theorem haltKept_ceEvent {s : State} (e) (h : s.fc.dstate = .halted) : haltKept s (ceEvent e s) := by
  unfold ceEvent; dsimp only; split
  · refine haltKept_then (haltKept_then (haltKept_countEvent _ h) (haltKept_setStatus _)) (fun hu => ?_)
    simp [fcInterrupt, hu, haltKept]
  · exact haltKept_countEvent _ h

theorem haltKept_onEvent {s : State} (two e) (h : s.fc.dstate = .halted) : haltKept s (onEvent two e s) := by
  have hc := haltKept_then (haltKept_countEvent e h) (haltKept_setStatus e)
  unfold onEvent; split
  · exact haltKept_ceEvent _ h
  · split
    · unfold ftReport
      refine haltKept_then (haltKept_then (haltKept_countEvent _ h) (haltKept_setStatus _)) (fun hu => ?_)
      simp [fatal, hu, haltKept]
    · simp only [hc.1]; exact hc

theorem haltKept_ownEv {s : State} (a b c d e) (h : s.fc.dstate = .halted) : haltKept s (ownEv a b c d e s).2 := by
  simp [ownEv, drawFree, haltKept, hostSent, mgrLink, linkPresent, h]

theorem haltKept_ucReport {s : State} (a b c d) (h : s.fc.dstate = .halted) : haltKept s (ucReport a b c d s) := by
  unfold ucReport; exact haltKept_then (haltKept_ownEv _ _ _ _ _ h) (haltKept_onEvent _ _)

theorem haltKept_ceReport {s : State} (a b c d) (h : s.fc.dstate = .halted) : haltKept s (ceReport a b c d s) := by
  unfold ceReport; exact haltKept_then (haltKept_ownEv _ _ _ _ _ h) (haltKept_ceEvent _)

theorem haltKept_pathsDown {s : State} (lp) (h : s.fc.dstate = .halted) : haltKept s (pathsDown lp s) := by
  unfold pathsDown; refine haltKept_fold (fun x hu => ?_) _ h
  rename_i u
  have key : ∀ (f : Qp → Qp) (q : Qp) (X : State), haltKept u (if !qpMaySend (u.updQp x f) q then u.updQp x f else X) := fun f q X => by
    rw [if_pos]
    · exact haltKept_updQp x f hu
    · simp [qpMaySend, running_h (haltKept_updQp x f hu).1]
  exact key _ _ _

theorem haltKept_portDown {s : State} (lp) (h : s.fc.dstate = .halted) : haltKept s (portDown lp s) := by
  unfold portDown; dsimp only; split
  · exact haltKept_then (haltKept_updLport _ _ h) (haltKept_pathsDown _)
  · exact haltKept_updLport _ _ h

theorem trainStart_h {s : State} (lp) (h : s.fc.dstate = .halted) : trainStart lp s = s := by
  simp [trainStart, lpMayRun, h]

theorem haltKept_bootSync {s : State} (h : s.fc.dstate = .halted) : haltKept s (bootSync s) := by
  unfold bootSync; dsimp only; split
  · exact haltKept_refl h
  · split
    · have a := haltKept_portDown (8 * (bootNum s - 1)) h
      have b := haltKept_castOn { (portDown (8 * (bootNum s - 1)) s).castOn with bootPort := false } a.1
      rw [trainStart_h _ b.1]; exact haltKept_trans a b
    · rw [trainStart_h _ (haltKept_castOn _ h).1]; exact haltKept_castOn _ h

theorem haltKept_endClaim {s : State} (c) (h : s.fc.dstate = .halted) : haltKept s (endClaim c s) := by
  unfold endClaim; exact haltKept_then (haltKept_castOn _ h) haltKept_bootSync

theorem haltKept_dropLink {s : State} (l) (h : s.fc.dstate = .halted) : haltKept s (dropLink l s) := by
  simp [haltKept, dropLink, State.updLink, hostSent, mgrLink, linkPresent, h]

theorem haltKept_resetTail {s w : State} (l) (h : haltKept s w) : haltKept s (if w.fc.dstate == .halted then w else ucReport (hostSource l) 0x0A l none w) := by
  simpa [h.1] using h

theorem haltKept_linkGone {s : State} (l) (h : s.fc.dstate = .halted) : haltKept s (linkGone l s) := by
  simpa only [linkGone, h] using haltKept_dropLink l h

theorem haltKept_linesGone {s : State} (l) (h : s.fc.dstate = .halted) : haltKept s (linesGone l s) := by
  unfold linesGone; simp [haltKept, hostSent, mgrLink, linkPresent, h]

theorem haltKept_mgrGone {s : State} (l) (h : s.fc.dstate = .halted) : haltKept s (mgrGone l s) := by
  unfold mgrGone; split
  · have a := haltKept_updXlt (fun x => { x with enable := false }) h
    dsimp only; split
    · exact haltKept_then a (haltKept_endClaim _)
    · exact a
  · exact haltKept_refl h

theorem haltKept_resetLink {s : State} (l b) (h : s.fc.dstate = .halted) : haltKept s (resetLink l b s) := by
  unfold resetLink
  refine haltKept_resetTail l ?_
  have h1 := haltKept_updLink l (fun k => { k with up := b && k.up, lostAt := if b then k.lostAt else some (k.lostAt.getD s.ticks) }) h
  have h2 := haltKept_then (haltKept_then h1 (haltKept_linkGone l)) (haltKept_linesGone l)
  exact haltKept_then (haltKept_trans h2 (haltKept_updLink l _ h2.1)) (haltKept_mgrGone l)

theorem haltKept_perst {s : State} (h : s.fc.dstate = .halted) : haltKept s (perstAssert s) := by
  unfold perstAssert
  have a := haltKept_castOn { s.castOn with perst := true } h
  refine haltKept_trans a (haltKept_fold (fun x hu => ?_) _ a.1)
  exact haltKept_then (haltKept_resetLink x false hu) (fun hv => by unfold fundamental; exact haltKept_updLink _ _ hv)

theorem haltKept_failLoads {s : State} (f) (h : s.fc.dstate = .halted) : haltKept s (failLoads f s) := by
  unfold failLoads; exact haltKept_fold (fun n hu => haltKept_loadFail n hu) _ h

theorem haltKept_debugRaise {s : State} (l) (h : s.fc.dstate = .halted) : haltKept s (debugRaise l s) := by
  have a : haltKept s (controlPrepare s) := by
    unfold controlPrepare
    have b := haltKept_failLoads (fun _ => true) h
    have c := haltKept_trans b (haltKept_fold (f := fun s (r : SealRun) => writeZeros (s.moOf r.mo).ctx [(r.base, r.len)] .marker s) (fun r hu => haltKept_writeZeros _ _ _ hu) (failLoads (fun _ => true) s).fnd.sealTab b.1)
    exact haltKept_trans c (haltKept_updFnd _ c.1)
  unfold debugRaise
  have d : haltKept s (if (decide (l = 2) && decide (s.fnd.debug < 2)) = true then controlPrepare s else s) := haltKept_ite a (haltKept_refl h)
  have e := haltKept_trans d (haltKept_updFnd (fun f => { f with debug := max f.debug l, meas := Tab.put f.meas 7 [BitVec.ofNat 8 (max f.debug l)] }) d.1)
  exact haltKept_then e (haltKept_ceReport _ _ _ _)

theorem haltKept_laneBlock {s : State} (lp i k q r b) (h : s.fc.dstate = .halted) : haltKept s (laneBlock lp i k q r b s) := by
  unfold laneBlock; exact haltKept_then (haltKept_updLport _ _ h) (haltKept_emit _ rfl)

theorem haltKept_laneSend {s : State} (lp i k q r b) (h : s.fc.dstate = .halted) : haltKept s (laneSend lp i k q r b s) := by
  unfold laneSend; dsimp only
  split
  · have a := haltKept_laneBlock lp i 1 0 0xFFF [] h
    have b (f) : haltKept s (laneBlock lp i k q r b ((laneBlock lp i 1 0 0xFFF [] s).updLport lp f)) :=
      haltKept_trans a (haltKept_trans (haltKept_updLport lp f a.1) (haltKept_laneBlock _ _ _ _ _ _ (haltKept_updLport lp f a.1).1))
    exact b _
  · have b (f) : haltKept s (laneBlock lp i k q r b (s.updLport lp f)) :=
      haltKept_trans (haltKept_updLport lp f h) (haltKept_laneBlock _ _ _ _ _ _ (haltKept_updLport lp f h).1)
    exact b _

theorem haltKept_dealBlock {s : State} (lp k q r b) (h : s.fc.dstate = .halted) : haltKept s (dealBlock lp k q r b s) := by
  unfold dealBlock; exact haltKept_then (haltKept_updLport _ _ h) (haltKept_laneSend _ _ _ _ _ _)

theorem haltKept_nativeSend {s : State} (l f) (h : s.fc.dstate = .halted) : haltKept s (nativeSend l f s) := by
  have a := haltKept_updLport l (fun l => { l with unsent := l.unsent ++ (frameBodies f).map (fun x => { seq := 0, ptr := x.1, body := x.2 }) }) h
  unfold nativeSend
  refine haltKept_trans a ?_
  unfold pumpBlocks
  refine haltKept_then (haltKept_updLport l _ a.1) (haltKept_fold (fun b hu => ?_) _)
  exact haltKept_then (haltKept_updLport l _ hu) (haltKept_dealBlock _ _ _ _ _)

theorem haltKept_portSend {s : State} (l f) (h : s.fc.dstate = .halted) : haltKept s (portSend l f s) := by
  have a := haltKept_count 524 (32 * l) h
  unfold portSend; dsimp only; split
  · exact haltKept_then a (haltKept_nativeSend _ _)
  · exact haltKept_then a (haltKept_emit _ rfl)

theorem haltKept_egressNext {s : State} (l r) (h : s.fc.dstate = .halted) : haltKept s (egressNext l r s) := by
  have a := haltKept_updLport l (fun k => { k with tokens := min 16384 (k.tokens + r) }) h
  unfold egressNext; split
  · exact haltKept_refl h
  · dsimp only; split
    · split
      · exact haltKept_then (haltKept_trans a (haltKept_updLport l _ a.1)) (haltKept_portSend _ _)
      · exact haltKept_then (haltKept_trans a (haltKept_updLport l _ a.1)) (haltKept_count _ _)
    · split
      · exact a
      · exact haltKept_then (haltKept_trans a (haltKept_updLport l _ a.1)) (haltKept_portSend _ _)

theorem haltKept_deliverBytes {s : State} (r o b) (h : s.fc.dstate = .halted) : haltKept s (deliverBytes r o b s) := by
  unfold deliverBytes
  refine haltKept_then (haltKept_ite ?_ (haltKept_refl h)) (haltKept_updCo _)
  exact haltKept_then (haltKept_updCo _ h) haltKept_bootSync

theorem haltKept_goVerify {s : State} (r n) (h : s.fc.dstate = .halted) : haltKept s (goVerify r n s) := by
  unfold goVerify; exact haltKept_ite (haltKept_updCo _ h) (haltKept_refl h)

theorem haltKept_imgReply {s : State} (a b c) (h : s.fc.dstate = .halted) : haltKept s (imgReply a b c s) := by
  unfold imgReply; exact haltKept_emit _ rfl h

theorem haltKept_bar4Drop {s : State} (h : s.fc.dstate = .halted) : haltKept s (bar4Drop s) := haltKept_count _ _ h

end Sys2Proof.Machine
end

