-- ==== Sys2Proof/Laws/Mailbox.lean ====
section
/-! SUPPORT. What the mailboxes do with a command whose header and length pass (R369-R378), said once. -/

namespace Sys2Proof.Machine

/-- An admitted command is its body, with its answer. -/
theorem runCmd_of_admitted {s : State} {mb : Mbox} {k : Cmd} {c : Caller} {a : List Word} (h : cmdAdmitted s mb k c a) :
    runCmd mb k s = done (match k.body c a s with
      | (.ok rs, s) => k.after a (mbFinish (mbNum mb) 0 0 rs (forgetSeen (.command (mbNum mb)) s))
      | (.wait, s) => s
      | (.err st d, _) =>
        let s := if st = msQuota then (match c.slice with | some x => count x 27 s | none => s) else s
        mbFinish (mbNum mb) st d [] (forgetSeen (.command (mbNum mb)) s)) := by
  obtain ⟨h1, h2, h3, h4, h5, h6, h7, h8⟩ := h
  subst h5
  simp only [runCmd, h1, h2, h4, h6, h7, running, h3]
  simp only [ne_eq, not_true_eq_false, decide_false, Bool.false_or, decide_eq_true_eq, if_neg (Nat.not_lt.mpr h8), Bool.not_true, Bool.false_eq_true, beq_self_eq_true, if_false]
    <;> rfl

/-- An admitted command whose body ends OK. -/
theorem runCmd_ok {s : State} {mb : Mbox} {k : Cmd} {c : Caller} {a : List Word} (h : cmdAdmitted s mb k c a) {rs : List Word} {t : State}
    (hb : k.body c a s = (.ok rs, t)) : runCmd mb k s = .next (k.after a (answered mb rs t)) := by
  rw [runCmd_of_admitted h, hb]; rfl

/-- An admitted command whose body waits. -/
theorem runCmd_wait {s : State} {mb : Mbox} {k : Cmd} {c : Caller} {a : List Word} (h : cmdAdmitted s mb k c a) {t : State}
    (hb : k.body c a s = (.wait, t)) : runCmd mb k s = .next t := by
  rw [runCmd_of_admitted h, hb]; rfl

end Sys2Proof.Machine
end

