-- ==== Sys2Proof/Laws/Staging.lean ====
section
/-! SUPPORT. The staging buffer (R457, R458): reads after writes, and that every write keeps the canonical form. -/

namespace Sys2Proof.Machine

/-- The empty buffer, as after reset, is in canonical form. -/
theorem stageWf_nil (lo : Option Nat) : stageWf lo [] = true := rfl

/-- The buffer after reset is in canonical form. -/
theorem stageWf_reset : stageWf none State.reset.castOn.staging = true := rfl

/-- An address below every listed one reads 0. -/
theorem stageGet_below (m : List Host.Cell) (lo a : Nat) (h : stageWf (some lo) m = true) (ha : a ≤ lo) : stageGet m a = 0 := by
  induction m generalizing lo with
  | nil => rfl
  | cons p t ih =>
    obtain ⟨k, b⟩ := p
    simp only [stageWf, Bool.and_eq_true, decide_eq_true_eq] at h
    have hk : lo < k := h.1.1
    simp only [stageGet]
    rw [if_neg (by omega)]
    exact ih k h.2 (by omega)

/-- A lower bound may be lowered. -/
theorem stageWf_mono (m : List Host.Cell) {lo lo' : Nat} (hl : lo' ≤ lo) (h : stageWf (some lo) m = true) : stageWf (some lo') m = true := by
  cases m with
  | nil => rfl
  | cons p t =>
    obtain ⟨k, b⟩ := p
    simp only [stageWf, Bool.and_eq_true, decide_eq_true_eq] at h ⊢
    exact ⟨⟨by omega, h.1.2⟩, h.2⟩

/-- A write above the bound keeps the canonical form above it. -/
theorem stagePut_wf_some (m : List Host.Cell) (lo a : Nat) (b : Byte) (h : stageWf (some lo) m = true) (ha : lo < a) :
    stageWf (some lo) (stagePut m a b) = true := by
  induction m generalizing lo with
  | nil => simp only [stagePut]; split <;> simp_all [stageWf]
  | cons p t ih =>
    obtain ⟨k, x⟩ := p
    have h0 := h
    simp only [stageWf, Bool.and_eq_true, decide_eq_true_eq, bne_iff_ne, ne_eq] at h
    simp only [stagePut]
    split
    · split
      · exact h0
      · simp_all [stageWf]
    · split
      · split
        · exact stageWf_mono t (by omega) h.2
        · simp_all [stageWf]
      · simp only [stageWf, Bool.and_eq_true, decide_eq_true_eq, bne_iff_ne, ne_eq]
        exact ⟨h.1, ih k h.2 (by omega)⟩

/-- A write keeps the canonical form. -/
theorem stagePut_wf (m : List Host.Cell) (a : Nat) (b : Byte) (h : stageWf none m = true) : stageWf none (stagePut m a b) = true := by
  cases m with
  | nil => simp only [stagePut]; split <;> simp_all [stageWf]
  | cons p t =>
    obtain ⟨k, x⟩ := p
    have h0 := h
    simp only [stageWf, Bool.and_eq_true, bne_iff_ne, ne_eq, Bool.true_and] at h
    simp only [stagePut]
    split
    · split
      · exact h0
      · simp_all [stageWf]
    · split
      · split
        · cases t with
          | nil => rfl
          | cons q u => obtain ⟨k', y⟩ := q; simp_all [stageWf]
        · simp_all [stageWf]
      · simp only [stageWf, Bool.and_eq_true, bne_iff_ne, ne_eq, Bool.true_and]
        exact ⟨h.1, stagePut_wf_some t k a b h.2 (by omega)⟩

/-- Writing bytes keeps the canonical form. -/
theorem stageWrite_wf (m : List Host.Cell) (a : Nat) (bs : List Byte) (h : stageWf none m = true) :
    stageWf none (stageWrite m a bs) = true := by
  induction bs generalizing m a with
  | nil => exact h
  | cons b t ih => exact ih _ _ (stagePut_wf m a b h)

/-- A written byte leaves every other byte alone. -/
theorem stageGet_put_ne (m : List Host.Cell) {a c : Nat} (b : Byte) (hc : c ≠ a) : stageGet (stagePut m a b) c = stageGet m c := by
  induction m with
  | nil => simp only [stagePut]; split <;> simp [stageGet, hc]
  | cons p t ih =>
    obtain ⟨k, x⟩ := p
    simp only [stagePut]
    split
    · split <;> simp [stageGet, hc]
    · split
      · subst_vars; split <;> simp [stageGet, hc]
      · simp [stageGet, ih]

/-- A written byte reads back, in a buffer in canonical form. -/
theorem stageGet_put_self (m : List Host.Cell) (a : Nat) (b : Byte) (h : stageWf none m = true) : stageGet (stagePut m a b) a = b := by
  have go : ∀ (m : List Host.Cell) (lo : Option Nat), stageWf lo m = true → stageGet (stagePut m a b) a = b := by
    intro m
    induction m with
    | nil => intro lo _; simp only [stagePut]; split <;> simp_all [stageGet]
    | cons p t ih =>
      intro lo hm
      obtain ⟨k, x⟩ := p
      simp only [stageWf, Bool.and_eq_true] at hm
      simp only [stagePut]
      split
      · split
        · simp only [stageGet]
          rw [if_neg (by omega), stageGet_below t k a hm.2 (by omega)]
          simp_all
        · simp [stageGet]
      · split
        · subst_vars
          split
          · rw [stageGet_below t _ _ hm.2 (Nat.le_refl _)]; simp_all
          · simp [stageGet]
        · simp only [stageGet]
          rw [if_neg (by omega)]
          exact ih (some k) hm.2
  exact go m none h

/-- Bytes written elsewhere leave an address alone. -/
theorem stageGet_write_out (m : List Host.Cell) (a c : Nat) (bs : List Byte) (hc : c < a ∨ a + bs.length ≤ c) :
    stageGet (stageWrite m a bs) c = stageGet m c := by
  induction bs generalizing m a with
  | nil => rfl
  | cons b t ih =>
    simp only [List.length_cons] at hc
    rw [stageWrite, ih _ _ (by omega), stageGet_put_ne m b (by omega)]

/-- Bytes written read back, in a buffer in canonical form. -/
theorem stageGet_write_in (m : List Host.Cell) (a i : Nat) (bs : List Byte) (h : stageWf none m = true) (hi : i < bs.length) :
    stageGet (stageWrite m a bs) (a + i) = bs[i] := by
  induction bs generalizing m a i with
  | nil => simp at hi
  | cons b t ih =>
    cases i with
    | zero => rw [stageWrite, stageGet_write_out _ _ _ _ (by omega)]; simpa using stageGet_put_self m a b h
    | succ j =>
      have := ih (stagePut m a b) (a + 1) j (stagePut_wf m a b h) (by simpa using hi)
      rw [stageWrite]
      rw [show a + (j + 1) = a + 1 + j by omega, this]; simp

end Sys2Proof.Machine
end

