-- ==== Sys2Proof/Laws/Tab.lean ====
section
/-! SUPPORT. The sparse tables: what a reader sees after each change, and that every change keeps the keys strictly rising. -/

namespace Sys2Proof

variable {α : Type}

@[simp] theorem Tab.get_nil (i : Nat) : Tab.get ([] : Tab α) i = none := rfl
@[simp] theorem Tab.getD_nil (i : Nat) (d : α) : Tab.getD ([] : Tab α) i d = d := rfl

/-- A written entry reads back. -/
@[simp] theorem Tab.get_put_self (t : Tab α) (i : Nat) (a : α) : Tab.get (Tab.put t i a) i = some a := by
  induction t with
  | nil => simp [Tab.put, Tab.get]
  | cons p t ih =>
    obtain ⟨k, v⟩ := p
    simp only [Tab.put]
    split
    · simp [Tab.get]
    · split
      · subst_vars; simp [Tab.get]
      · simp [Tab.get, *]

/-- A write leaves every other entry alone. -/
theorem Tab.get_put_ne (t : Tab α) {i j : Nat} (a : α) (h : j ≠ i) : Tab.get (Tab.put t i a) j = Tab.get t j := by
  induction t with
  | nil => simp [Tab.put, Tab.get, h]
  | cons p t ih =>
    obtain ⟨k, v⟩ := p
    simp only [Tab.put]
    split
    · simp [Tab.get, h]
    · split
      · subst_vars; simp [Tab.get, h]
      · simp [Tab.get, ih]

@[simp] theorem Tab.getD_put_self (t : Tab α) (i : Nat) (a d : α) : Tab.getD (Tab.put t i a) i d = a := by
  simp [Tab.getD]

theorem Tab.getD_put_ne (t : Tab α) {i j : Nat} (a d : α) (h : j ≠ i) : Tab.getD (Tab.put t i a) j d = Tab.getD t j d := by
  simp [Tab.getD, Tab.get_put_ne t a h]

@[simp] theorem Tab.getD_upd_self (t : Tab α) (i : Nat) (d : α) (f : α → α) : Tab.getD (Tab.upd t i d f) i d = f (Tab.getD t i d) := by
  simp [Tab.upd]

theorem Tab.getD_upd_ne (t : Tab α) {i j : Nat} (d e : α) (f : α → α) (h : j ≠ i) : Tab.getD (Tab.upd t i d f) j e = Tab.getD t j e :=
  Tab.getD_put_ne t _ e h

/-- Changing an entry in place changes what is read there, where there is an entry. -/
@[simp] theorem Tab.get_adj_self (t : Tab α) (i : Nat) (f : α → α) : Tab.get (Tab.adj t i f) i = (Tab.get t i).map f := by
  induction t with
  | nil => rfl
  | cons p t ih =>
    obtain ⟨k, v⟩ := p
    by_cases h : i = k
    · simp [Tab.adj, Tab.get, h]
    · have h' : ¬ k = i := fun e => h e.symm
      simpa [Tab.adj, Tab.get, h, h'] using ih

theorem Tab.get_adj_ne (t : Tab α) {i j : Nat} (f : α → α) (h : j ≠ i) : Tab.get (Tab.adj t i f) j = Tab.get t j := by
  induction t with
  | nil => rfl
  | cons p t ih =>
    obtain ⟨k, v⟩ := p
    by_cases hk : k = i
    · subst hk; simpa [Tab.adj, Tab.get, h] using ih
    · by_cases hj : j = k
      · subst hj; simp [Tab.adj, Tab.get, h]
      · simpa [Tab.adj, Tab.get, hk, hj] using ih

/-- A removed entry is gone. -/
@[simp] theorem Tab.get_del_self (t : Tab α) (i : Nat) : Tab.get (Tab.del t i) i = none := by
  induction t with
  | nil => rfl
  | cons p t ih =>
    obtain ⟨k, v⟩ := p
    by_cases h : k = i
    · subst h; simpa [Tab.del] using ih
    · have h' : ¬ i = k := fun e => h e.symm
      simpa [Tab.del, Tab.get, h, h'] using ih

theorem Tab.get_del_ne (t : Tab α) {i j : Nat} (h : j ≠ i) : Tab.get (Tab.del t i) j = Tab.get t j := by
  induction t with
  | nil => rfl
  | cons p t ih =>
    obtain ⟨k, v⟩ := p
    by_cases hk : k = i
    · subst hk; simpa [Tab.del, Tab.get, h] using ih
    · by_cases hj : j = k
      · subst hj; simp [Tab.del, Tab.get, hk]
      · simpa [Tab.del, Tab.get, hk, hj] using ih

/-! ### The canonical form -/

/-- The canonical form, as an order of the keys. -/
theorem Tab.wf_iff (t : Tab α) : Tab.wf t = true ↔ (t.map (·.1)).Pairwise (· < ·) := by
  induction t with
  | nil => simp [Tab.wf]
  | cons p t ih =>
    cases t with
    | nil => simp [Tab.wf]
    | cons q t =>
      simp only [Tab.wf, Bool.and_eq_true, decide_eq_true_eq, ih]
      rw [List.map_cons (l := q :: t), List.pairwise_cons]
      constructor
      · rintro ⟨h, hp⟩
        refine ⟨?_, hp⟩
        intro b hb
        rw [List.map_cons, List.mem_cons] at hb
        rcases hb with rfl | hb
        · exact h
        · exact lt_trans h ((List.pairwise_cons.1 hp).1 b hb)
      · rintro ⟨h, hp⟩
        exact ⟨h q.1 (by simp), hp⟩

/-- The keys after a write. -/
theorem Tab.mem_keys_put (t : Tab α) (i : Nat) (a : α) (k : Nat) :
    k ∈ (Tab.put t i a).map (·.1) ↔ k = i ∨ k ∈ t.map (·.1) := by
  induction t with
  | nil => simp [Tab.put]
  | cons p t ih =>
    obtain ⟨j, v⟩ := p
    simp only [Tab.put]
    split
    · simp
    · split
      · subst_vars; simp
      · simp only [List.map_cons, List.mem_cons, ih]; tauto

/-- A write keeps the canonical form. -/
theorem Tab.put_wf (t : Tab α) (i : Nat) (a : α) (h : Tab.wf t = true) : Tab.wf (Tab.put t i a) = true := by
  rw [Tab.wf_iff] at h ⊢
  induction t with
  | nil => simp [Tab.put]
  | cons p t ih =>
    obtain ⟨k, v⟩ := p
    rw [List.map_cons, List.pairwise_cons] at h
    simp only [Tab.put]
    split
    · rename_i hik
      rw [List.map_cons, List.pairwise_cons]
      refine ⟨?_, by rw [List.map_cons, List.pairwise_cons]; exact h⟩
      intro b hb
      rw [List.map_cons, List.mem_cons] at hb
      rcases hb with rfl | hb
      · exact hik
      · exact lt_trans hik (h.1 b hb)
    · split
      · rw [List.map_cons, List.pairwise_cons]; exact h
      · rw [List.map_cons, List.pairwise_cons]
        refine ⟨?_, ih h.2⟩
        intro b hb
        rw [Tab.mem_keys_put] at hb
        rcases hb with rfl | hb
        · show k < b; omega
        · exact h.1 b hb

/-- Removing entries keeps the canonical form. -/
theorem Tab.del_wf (t : Tab α) (i : Nat) (h : Tab.wf t = true) : Tab.wf (Tab.del t i) = true := by
  rw [Tab.wf_iff] at h ⊢
  exact h.sublist ((List.filter_sublist (l := t)).map _)

/-- Changing entries in place keeps the canonical form. -/
theorem Tab.adj_wf (t : Tab α) (i : Nat) (f : α → α) (h : Tab.wf t = true) : Tab.wf (Tab.adj t i f) = true := by
  rw [Tab.wf_iff] at h ⊢
  have e : (Tab.adj t i f).map (·.1) = t.map (·.1) := by
    simp only [Tab.adj, List.map_map]
    refine List.map_congr_left fun p _ => ?_
    by_cases hp : p.1 = i <;> simp [hp]
  rwa [e]

theorem Tab.mapV_wf (t : Tab α) (f : Nat → α → α) (h : Tab.wf t = true) : Tab.wf (Tab.mapV t f) = true := by
  rw [Tab.wf_iff] at h ⊢
  simpa [Tab.mapV, List.map_map, Function.comp_def] using h

theorem Tab.upd_wf (t : Tab α) (i : Nat) (d : α) (f : α → α) (h : Tab.wf t = true) : Tab.wf (Tab.upd t i d f) = true :=
  Tab.put_wf t i _ h

end Sys2Proof
end

