-- ==== Sys2Proof/Laws/State.lean ====
section
/-! SUPPORT. What each update of the state leaves alone, field by field, and what it reads back as. -/

namespace Sys2Proof.Machine

/-! ### updSq -/

@[simp] theorem State.updSq_sq_self (s : State) (n : Nat) (f : Sq → Sq) : (s.updSq n f).sq n = f (s.sq n) := by simp [State.updSq, State.sq]
theorem State.updSq_sq_ne (s : State) {n m : Nat} (f : Sq → Sq) (h : m ≠ n) : (s.updSq n f).sq m = s.sq m := by simp [State.updSq, State.sq, Tab.getD_upd_ne _ _ _ _ h]
@[simp] theorem State.updSq_pending (s : State) (n : Nat) (f : Sq → Sq) : (s.updSq n f).pending = s.pending := rfl
@[simp] theorem State.updSq_sent (s : State) (n : Nat) (f : Sq → Sq) : (s.updSq n f).sent = s.sent := rfl
@[simp] theorem State.updSq_freeCtr (s : State) (n : Nat) (f : Sq → Sq) : (s.updSq n f).freeCtr = s.freeCtr := rfl
@[simp] theorem State.updSq_ticks (s : State) (n : Nat) (f : Sq → Sq) : (s.updSq n f).ticks = s.ticks := rfl
@[simp] theorem State.updSq_castOnFuse (s : State) (n : Nat) (f : Sq → Sq) : (s.updSq n f).castOnFuse = s.castOnFuse := rfl
@[simp] theorem State.updSq_sec (s : State) (n : Nat) (f : Sq → Sq) : (s.updSq n f).sec = s.sec := rfl
@[simp] theorem State.updSq_fleet (s : State) (n : Nat) (f : Sq → Sq) : (s.updSq n f).fleet = s.fleet := rfl
@[simp] theorem State.updSq_castOn (s : State) (n : Nat) (f : Sq → Sq) : (s.updSq n f).castOn = s.castOn := rfl
@[simp] theorem State.updSq_fnd (s : State) (n : Nat) (f : Sq → Sq) : (s.updSq n f).fnd = s.fnd := rfl
@[simp] theorem State.updSq_rumel (s : State) (n : Nat) (f : Sq → Sq) : (s.updSq n f).rumel = s.rumel := rfl
@[simp] theorem State.updSq_hbmGib (s : State) (n : Nat) (f : Sq → Sq) : (s.updSq n f).hbmGib = s.hbmGib := rfl
@[simp] theorem State.updSq_hooksUp (s : State) (n : Nat) (f : Sq → Sq) : (s.updSq n f).hooksUp = s.hooksUp := rfl
@[simp] theorem State.updSq_slices (s : State) (n : Nat) (f : Sq → Sq) : (s.updSq n f).slices = s.slices := rfl
@[simp] theorem State.updSq_mailboxes (s : State) (n : Nat) (f : Sq → Sq) : (s.updSq n f).mailboxes = s.mailboxes := rfl
@[simp] theorem State.updSq_ctxs (s : State) (n : Nat) (f : Sq → Sq) : (s.updSq n f).ctxs = s.ctxs := rfl
@[simp] theorem State.updSq_mos (s : State) (n : Nat) (f : Sq → Sq) : (s.updSq n f).mos = s.mos := rfl
@[simp] theorem State.updSq_moNext (s : State) (n : Nat) (f : Sq → Sq) : (s.updSq n f).moNext = s.moNext := rfl
@[simp] theorem State.updSq_moFree (s : State) (n : Nat) (f : Sq → Sq) : (s.updSq n f).moFree = s.moFree := rfl
@[simp] theorem State.updSq_wins (s : State) (n : Nat) (f : Sq → Sq) : (s.updSq n f).wins = s.wins := rfl
@[simp] theorem State.updSq_winNext (s : State) (n : Nat) (f : Sq → Sq) : (s.updSq n f).winNext = s.winNext := rfl
@[simp] theorem State.updSq_winFree (s : State) (n : Nat) (f : Sq → Sq) : (s.updSq n f).winFree = s.winFree := rfl
@[simp] theorem State.updSq_markers (s : State) (n : Nat) (f : Sq → Sq) : (s.updSq n f).markers = s.markers := rfl
@[simp] theorem State.updSq_cookies (s : State) (n : Nat) (f : Sq → Sq) : (s.updSq n f).cookies = s.cookies := rfl
@[simp] theorem State.updSq_bindJobs (s : State) (n : Nat) (f : Sq → Sq) : (s.updSq n f).bindJobs = s.bindJobs := rfl
@[simp] theorem State.updSq_cm (s : State) (n : Nat) (f : Sq → Sq) : (s.updSq n f).cm = s.cm := rfl
@[simp] theorem State.updSq_cqs (s : State) (n : Nat) (f : Sq → Sq) : (s.updSq n f).cqs = s.cqs := rfl
@[simp] theorem State.updSq_ops (s : State) (n : Nat) (f : Sq → Sq) : (s.updSq n f).ops = s.ops := rfl
@[simp] theorem State.updSq_xlt (s : State) (n : Nat) (f : Sq → Sq) : (s.updSq n f).xlt = s.xlt := rfl
@[simp] theorem State.updSq_xuses (s : State) (n : Nat) (f : Sq → Sq) : (s.updSq n f).xuses = s.xuses := rfl
@[simp] theorem State.updSq_qps (s : State) (n : Nat) (f : Sq → Sq) : (s.updSq n f).qps = s.qps := rfl
@[simp] theorem State.updSq_trackers (s : State) (n : Nat) (f : Sq → Sq) : (s.updSq n f).trackers = s.trackers := rfl
@[simp] theorem State.updSq_grants (s : State) (n : Nat) (f : Sq → Sq) : (s.updSq n f).grants = s.grants := rfl
@[simp] theorem State.updSq_ertPort (s : State) (n : Nat) (f : Sq → Sq) : (s.updSq n f).ertPort = s.ertPort := rfl
@[simp] theorem State.updSq_tcWeight (s : State) (n : Nat) (f : Sq → Sq) : (s.updSq n f).tcWeight = s.tcWeight := rfl
@[simp] theorem State.updSq_tcDscp (s : State) (n : Nat) (f : Sq → Sq) : (s.updSq n f).tcDscp = s.tcDscp := rfl
@[simp] theorem State.updSq_tension (s : State) (n : Nat) (f : Sq → Sq) : (s.updSq n f).tension = s.tension := rfl
@[simp] theorem State.updSq_trkRsv (s : State) (n : Nat) (f : Sq → Sq) : (s.updSq n f).trkRsv = s.trkRsv := rfl
@[simp] theorem State.updSq_pfcEn (s : State) (n : Nat) (f : Sq → Sq) : (s.updSq n f).pfcEn = s.pfcEn := rfl
@[simp] theorem State.updSq_pfcPrio (s : State) (n : Nat) (f : Sq → Sq) : (s.updSq n f).pfcPrio = s.pfcPrio := rfl
@[simp] theorem State.updSq_xoff (s : State) (n : Nat) (f : Sq → Sq) : (s.updSq n f).xoff = s.xoff := rfl
@[simp] theorem State.updSq_xon (s : State) (n : Nat) (f : Sq → Sq) : (s.updSq n f).xon = s.xon := rfl
@[simp] theorem State.updSq_skeinRecs (s : State) (n : Nat) (f : Sq → Sq) : (s.updSq n f).skeinRecs = s.skeinRecs := rfl
@[simp] theorem State.updSq_recWrites (s : State) (n : Nat) (f : Sq → Sq) : (s.updSq n f).recWrites = s.recWrites := rfl
@[simp] theorem State.updSq_groups (s : State) (n : Nat) (f : Sq → Sq) : (s.updSq n f).groups = s.groups := rfl
@[simp] theorem State.updSq_links (s : State) (n : Nat) (f : Sq → Sq) : (s.updSq n f).links = s.links := rfl
@[simp] theorem State.updSq_cwc (s : State) (n : Nat) (f : Sq → Sq) : (s.updSq n f).cwc = s.cwc := rfl
@[simp] theorem State.updSq_hdm (s : State) (n : Nat) (f : Sq → Sq) : (s.updSq n f).hdm = s.hdm := rfl
@[simp] theorem State.updSq_biWait (s : State) (n : Nat) (f : Sq → Sq) : (s.updSq n f).biWait = s.biWait := rfl
@[simp] theorem State.updSq_lruClock (s : State) (n : Nat) (f : Sq → Sq) : (s.updSq n f).lruClock = s.lruClock := rfl
@[simp] theorem State.updSq_bar2Slide (s : State) (n : Nat) (f : Sq → Sq) : (s.updSq n f).bar2Slide = s.bar2Slide := rfl
@[simp] theorem State.updSq_ridFilter (s : State) (n : Nat) (f : Sq → Sq) : (s.updSq n f).ridFilter = s.ridFilter := rfl
@[simp] theorem State.updSq_directWait (s : State) (n : Nat) (f : Sq → Sq) : (s.updSq n f).directWait = s.directWait := rfl
@[simp] theorem State.updSq_directLds (s : State) (n : Nat) (f : Sq → Sq) : (s.updSq n f).directLds = s.directLds := rfl
@[simp] theorem State.updSq_mods (s : State) (n : Nat) (f : Sq → Sq) : (s.updSq n f).mods = s.mods := rfl
@[simp] theorem State.updSq_dies (s : State) (n : Nat) (f : Sq → Sq) : (s.updSq n f).dies = s.dies := rfl
@[simp] theorem State.updSq_dlRoute (s : State) (n : Nat) (f : Sq → Sq) : (s.updSq n f).dlRoute = s.dlRoute := rfl
@[simp] theorem State.updSq_portCfg (s : State) (n : Nat) (f : Sq → Sq) : (s.updSq n f).portCfg = s.portCfg := rfl
@[simp] theorem State.updSq_nextHop (s : State) (n : Nat) (f : Sq → Sq) : (s.updSq n f).nextHop = s.nextHop := rfl
@[simp] theorem State.updSq_lports (s : State) (n : Nat) (f : Sq → Sq) : (s.updSq n f).lports = s.lports := rfl
@[simp] theorem State.updSq_sc (s : State) (n : Nat) (f : Sq → Sq) : (s.updSq n f).sc = s.sc := rfl
@[simp] theorem State.updSq_fc (s : State) (n : Nat) (f : Sq → Sq) : (s.updSq n f).fc = s.fc := rfl
@[simp] theorem State.updSq_heldWrites (s : State) (n : Nat) (f : Sq → Sq) : (s.updSq n f).heldWrites = s.heldWrites := rfl
@[simp] theorem State.updSq_heldSq (s : State) (n : Nat) (f : Sq → Sq) : (s.updSq n f).heldSq = s.heldSq := rfl
@[simp] theorem State.updSq_heldCq (s : State) (n : Nat) (f : Sq → Sq) : (s.updSq n f).heldCq = s.heldCq := rfl
@[simp] theorem State.updSq_heldAck (s : State) (n : Nat) (f : Sq → Sq) : (s.updSq n f).heldAck = s.heldAck := rfl
@[simp] theorem State.updSq_heldMb (s : State) (n : Nat) (f : Sq → Sq) : (s.updSq n f).heldMb = s.heldMb := rfl
@[simp] theorem State.updSq_heldOff (s : State) (n : Nat) (f : Sq → Sq) : (s.updSq n f).heldOff = s.heldOff := rfl
@[simp] theorem State.updSq_heldAns (s : State) (n : Nat) (f : Sq → Sq) : (s.updSq n f).heldAns = s.heldAns := rfl
@[simp] theorem State.updSq_heldLost (s : State) (n : Nat) (f : Sq → Sq) : (s.updSq n f).heldLost = s.heldLost := rfl
@[simp] theorem State.updSq_gov (s : State) (n : Nat) (f : Sq → Sq) : (s.updSq n f).gov = s.gov := rfl
@[simp] theorem State.updSq_counters (s : State) (n : Nat) (f : Sq → Sq) : (s.updSq n f).counters = s.counters := rfl

/-! ### updCq -/

@[simp] theorem State.updCq_cq_self (s : State) (n : Nat) (f : Cq → Cq) : (s.updCq n f).cq n = f (s.cq n) := by simp [State.updCq, State.cq]
theorem State.updCq_cq_ne (s : State) {n m : Nat} (f : Cq → Cq) (h : m ≠ n) : (s.updCq n f).cq m = s.cq m := by simp [State.updCq, State.cq, Tab.getD_upd_ne _ _ _ _ h]
@[simp] theorem State.updCq_pending (s : State) (n : Nat) (f : Cq → Cq) : (s.updCq n f).pending = s.pending := rfl
@[simp] theorem State.updCq_sent (s : State) (n : Nat) (f : Cq → Cq) : (s.updCq n f).sent = s.sent := rfl
@[simp] theorem State.updCq_freeCtr (s : State) (n : Nat) (f : Cq → Cq) : (s.updCq n f).freeCtr = s.freeCtr := rfl
@[simp] theorem State.updCq_ticks (s : State) (n : Nat) (f : Cq → Cq) : (s.updCq n f).ticks = s.ticks := rfl
@[simp] theorem State.updCq_castOnFuse (s : State) (n : Nat) (f : Cq → Cq) : (s.updCq n f).castOnFuse = s.castOnFuse := rfl
@[simp] theorem State.updCq_sec (s : State) (n : Nat) (f : Cq → Cq) : (s.updCq n f).sec = s.sec := rfl
@[simp] theorem State.updCq_fleet (s : State) (n : Nat) (f : Cq → Cq) : (s.updCq n f).fleet = s.fleet := rfl
@[simp] theorem State.updCq_castOn (s : State) (n : Nat) (f : Cq → Cq) : (s.updCq n f).castOn = s.castOn := rfl
@[simp] theorem State.updCq_fnd (s : State) (n : Nat) (f : Cq → Cq) : (s.updCq n f).fnd = s.fnd := rfl
@[simp] theorem State.updCq_rumel (s : State) (n : Nat) (f : Cq → Cq) : (s.updCq n f).rumel = s.rumel := rfl
@[simp] theorem State.updCq_hbmGib (s : State) (n : Nat) (f : Cq → Cq) : (s.updCq n f).hbmGib = s.hbmGib := rfl
@[simp] theorem State.updCq_hooksUp (s : State) (n : Nat) (f : Cq → Cq) : (s.updCq n f).hooksUp = s.hooksUp := rfl
@[simp] theorem State.updCq_slices (s : State) (n : Nat) (f : Cq → Cq) : (s.updCq n f).slices = s.slices := rfl
@[simp] theorem State.updCq_mailboxes (s : State) (n : Nat) (f : Cq → Cq) : (s.updCq n f).mailboxes = s.mailboxes := rfl
@[simp] theorem State.updCq_ctxs (s : State) (n : Nat) (f : Cq → Cq) : (s.updCq n f).ctxs = s.ctxs := rfl
@[simp] theorem State.updCq_mos (s : State) (n : Nat) (f : Cq → Cq) : (s.updCq n f).mos = s.mos := rfl
@[simp] theorem State.updCq_moNext (s : State) (n : Nat) (f : Cq → Cq) : (s.updCq n f).moNext = s.moNext := rfl
@[simp] theorem State.updCq_moFree (s : State) (n : Nat) (f : Cq → Cq) : (s.updCq n f).moFree = s.moFree := rfl
@[simp] theorem State.updCq_wins (s : State) (n : Nat) (f : Cq → Cq) : (s.updCq n f).wins = s.wins := rfl
@[simp] theorem State.updCq_winNext (s : State) (n : Nat) (f : Cq → Cq) : (s.updCq n f).winNext = s.winNext := rfl
@[simp] theorem State.updCq_winFree (s : State) (n : Nat) (f : Cq → Cq) : (s.updCq n f).winFree = s.winFree := rfl
@[simp] theorem State.updCq_markers (s : State) (n : Nat) (f : Cq → Cq) : (s.updCq n f).markers = s.markers := rfl
@[simp] theorem State.updCq_cookies (s : State) (n : Nat) (f : Cq → Cq) : (s.updCq n f).cookies = s.cookies := rfl
@[simp] theorem State.updCq_bindJobs (s : State) (n : Nat) (f : Cq → Cq) : (s.updCq n f).bindJobs = s.bindJobs := rfl
@[simp] theorem State.updCq_cm (s : State) (n : Nat) (f : Cq → Cq) : (s.updCq n f).cm = s.cm := rfl
@[simp] theorem State.updCq_sqs (s : State) (n : Nat) (f : Cq → Cq) : (s.updCq n f).sqs = s.sqs := rfl
@[simp] theorem State.updCq_ops (s : State) (n : Nat) (f : Cq → Cq) : (s.updCq n f).ops = s.ops := rfl
@[simp] theorem State.updCq_xlt (s : State) (n : Nat) (f : Cq → Cq) : (s.updCq n f).xlt = s.xlt := rfl
@[simp] theorem State.updCq_xuses (s : State) (n : Nat) (f : Cq → Cq) : (s.updCq n f).xuses = s.xuses := rfl
@[simp] theorem State.updCq_qps (s : State) (n : Nat) (f : Cq → Cq) : (s.updCq n f).qps = s.qps := rfl
@[simp] theorem State.updCq_trackers (s : State) (n : Nat) (f : Cq → Cq) : (s.updCq n f).trackers = s.trackers := rfl
@[simp] theorem State.updCq_grants (s : State) (n : Nat) (f : Cq → Cq) : (s.updCq n f).grants = s.grants := rfl
@[simp] theorem State.updCq_ertPort (s : State) (n : Nat) (f : Cq → Cq) : (s.updCq n f).ertPort = s.ertPort := rfl
@[simp] theorem State.updCq_tcWeight (s : State) (n : Nat) (f : Cq → Cq) : (s.updCq n f).tcWeight = s.tcWeight := rfl
@[simp] theorem State.updCq_tcDscp (s : State) (n : Nat) (f : Cq → Cq) : (s.updCq n f).tcDscp = s.tcDscp := rfl
@[simp] theorem State.updCq_tension (s : State) (n : Nat) (f : Cq → Cq) : (s.updCq n f).tension = s.tension := rfl
@[simp] theorem State.updCq_trkRsv (s : State) (n : Nat) (f : Cq → Cq) : (s.updCq n f).trkRsv = s.trkRsv := rfl
@[simp] theorem State.updCq_pfcEn (s : State) (n : Nat) (f : Cq → Cq) : (s.updCq n f).pfcEn = s.pfcEn := rfl
@[simp] theorem State.updCq_pfcPrio (s : State) (n : Nat) (f : Cq → Cq) : (s.updCq n f).pfcPrio = s.pfcPrio := rfl
@[simp] theorem State.updCq_xoff (s : State) (n : Nat) (f : Cq → Cq) : (s.updCq n f).xoff = s.xoff := rfl
@[simp] theorem State.updCq_xon (s : State) (n : Nat) (f : Cq → Cq) : (s.updCq n f).xon = s.xon := rfl
@[simp] theorem State.updCq_skeinRecs (s : State) (n : Nat) (f : Cq → Cq) : (s.updCq n f).skeinRecs = s.skeinRecs := rfl
@[simp] theorem State.updCq_recWrites (s : State) (n : Nat) (f : Cq → Cq) : (s.updCq n f).recWrites = s.recWrites := rfl
@[simp] theorem State.updCq_groups (s : State) (n : Nat) (f : Cq → Cq) : (s.updCq n f).groups = s.groups := rfl
@[simp] theorem State.updCq_links (s : State) (n : Nat) (f : Cq → Cq) : (s.updCq n f).links = s.links := rfl
@[simp] theorem State.updCq_cwc (s : State) (n : Nat) (f : Cq → Cq) : (s.updCq n f).cwc = s.cwc := rfl
@[simp] theorem State.updCq_hdm (s : State) (n : Nat) (f : Cq → Cq) : (s.updCq n f).hdm = s.hdm := rfl
@[simp] theorem State.updCq_biWait (s : State) (n : Nat) (f : Cq → Cq) : (s.updCq n f).biWait = s.biWait := rfl
@[simp] theorem State.updCq_lruClock (s : State) (n : Nat) (f : Cq → Cq) : (s.updCq n f).lruClock = s.lruClock := rfl
@[simp] theorem State.updCq_bar2Slide (s : State) (n : Nat) (f : Cq → Cq) : (s.updCq n f).bar2Slide = s.bar2Slide := rfl
@[simp] theorem State.updCq_ridFilter (s : State) (n : Nat) (f : Cq → Cq) : (s.updCq n f).ridFilter = s.ridFilter := rfl
@[simp] theorem State.updCq_directWait (s : State) (n : Nat) (f : Cq → Cq) : (s.updCq n f).directWait = s.directWait := rfl
@[simp] theorem State.updCq_directLds (s : State) (n : Nat) (f : Cq → Cq) : (s.updCq n f).directLds = s.directLds := rfl
@[simp] theorem State.updCq_mods (s : State) (n : Nat) (f : Cq → Cq) : (s.updCq n f).mods = s.mods := rfl
@[simp] theorem State.updCq_dies (s : State) (n : Nat) (f : Cq → Cq) : (s.updCq n f).dies = s.dies := rfl
@[simp] theorem State.updCq_dlRoute (s : State) (n : Nat) (f : Cq → Cq) : (s.updCq n f).dlRoute = s.dlRoute := rfl
@[simp] theorem State.updCq_portCfg (s : State) (n : Nat) (f : Cq → Cq) : (s.updCq n f).portCfg = s.portCfg := rfl
@[simp] theorem State.updCq_nextHop (s : State) (n : Nat) (f : Cq → Cq) : (s.updCq n f).nextHop = s.nextHop := rfl
@[simp] theorem State.updCq_lports (s : State) (n : Nat) (f : Cq → Cq) : (s.updCq n f).lports = s.lports := rfl
@[simp] theorem State.updCq_sc (s : State) (n : Nat) (f : Cq → Cq) : (s.updCq n f).sc = s.sc := rfl
@[simp] theorem State.updCq_fc (s : State) (n : Nat) (f : Cq → Cq) : (s.updCq n f).fc = s.fc := rfl
@[simp] theorem State.updCq_heldWrites (s : State) (n : Nat) (f : Cq → Cq) : (s.updCq n f).heldWrites = s.heldWrites := rfl
@[simp] theorem State.updCq_heldSq (s : State) (n : Nat) (f : Cq → Cq) : (s.updCq n f).heldSq = s.heldSq := rfl
@[simp] theorem State.updCq_heldCq (s : State) (n : Nat) (f : Cq → Cq) : (s.updCq n f).heldCq = s.heldCq := rfl
@[simp] theorem State.updCq_heldAck (s : State) (n : Nat) (f : Cq → Cq) : (s.updCq n f).heldAck = s.heldAck := rfl
@[simp] theorem State.updCq_heldMb (s : State) (n : Nat) (f : Cq → Cq) : (s.updCq n f).heldMb = s.heldMb := rfl
@[simp] theorem State.updCq_heldOff (s : State) (n : Nat) (f : Cq → Cq) : (s.updCq n f).heldOff = s.heldOff := rfl
@[simp] theorem State.updCq_heldAns (s : State) (n : Nat) (f : Cq → Cq) : (s.updCq n f).heldAns = s.heldAns := rfl
@[simp] theorem State.updCq_heldLost (s : State) (n : Nat) (f : Cq → Cq) : (s.updCq n f).heldLost = s.heldLost := rfl
@[simp] theorem State.updCq_gov (s : State) (n : Nat) (f : Cq → Cq) : (s.updCq n f).gov = s.gov := rfl
@[simp] theorem State.updCq_counters (s : State) (n : Nat) (f : Cq → Cq) : (s.updCq n f).counters = s.counters := rfl

/-! ### updCtx -/

@[simp] theorem State.updCtx_ctx_self (s : State) (n : Nat) (f : Ctx → Ctx) : (s.updCtx n f).ctx n = f (s.ctx n) := by simp [State.updCtx, State.ctx]
theorem State.updCtx_ctx_ne (s : State) {n m : Nat} (f : Ctx → Ctx) (h : m ≠ n) : (s.updCtx n f).ctx m = s.ctx m := by simp [State.updCtx, State.ctx, Tab.getD_upd_ne _ _ _ _ h]
@[simp] theorem State.updCtx_pending (s : State) (n : Nat) (f : Ctx → Ctx) : (s.updCtx n f).pending = s.pending := rfl
@[simp] theorem State.updCtx_sent (s : State) (n : Nat) (f : Ctx → Ctx) : (s.updCtx n f).sent = s.sent := rfl
@[simp] theorem State.updCtx_freeCtr (s : State) (n : Nat) (f : Ctx → Ctx) : (s.updCtx n f).freeCtr = s.freeCtr := rfl
@[simp] theorem State.updCtx_ticks (s : State) (n : Nat) (f : Ctx → Ctx) : (s.updCtx n f).ticks = s.ticks := rfl
@[simp] theorem State.updCtx_castOnFuse (s : State) (n : Nat) (f : Ctx → Ctx) : (s.updCtx n f).castOnFuse = s.castOnFuse := rfl
@[simp] theorem State.updCtx_sec (s : State) (n : Nat) (f : Ctx → Ctx) : (s.updCtx n f).sec = s.sec := rfl
@[simp] theorem State.updCtx_fleet (s : State) (n : Nat) (f : Ctx → Ctx) : (s.updCtx n f).fleet = s.fleet := rfl
@[simp] theorem State.updCtx_castOn (s : State) (n : Nat) (f : Ctx → Ctx) : (s.updCtx n f).castOn = s.castOn := rfl
@[simp] theorem State.updCtx_fnd (s : State) (n : Nat) (f : Ctx → Ctx) : (s.updCtx n f).fnd = s.fnd := rfl
@[simp] theorem State.updCtx_rumel (s : State) (n : Nat) (f : Ctx → Ctx) : (s.updCtx n f).rumel = s.rumel := rfl
@[simp] theorem State.updCtx_hbmGib (s : State) (n : Nat) (f : Ctx → Ctx) : (s.updCtx n f).hbmGib = s.hbmGib := rfl
@[simp] theorem State.updCtx_hooksUp (s : State) (n : Nat) (f : Ctx → Ctx) : (s.updCtx n f).hooksUp = s.hooksUp := rfl
@[simp] theorem State.updCtx_slices (s : State) (n : Nat) (f : Ctx → Ctx) : (s.updCtx n f).slices = s.slices := rfl
@[simp] theorem State.updCtx_mailboxes (s : State) (n : Nat) (f : Ctx → Ctx) : (s.updCtx n f).mailboxes = s.mailboxes := rfl
@[simp] theorem State.updCtx_mos (s : State) (n : Nat) (f : Ctx → Ctx) : (s.updCtx n f).mos = s.mos := rfl
@[simp] theorem State.updCtx_moNext (s : State) (n : Nat) (f : Ctx → Ctx) : (s.updCtx n f).moNext = s.moNext := rfl
@[simp] theorem State.updCtx_moFree (s : State) (n : Nat) (f : Ctx → Ctx) : (s.updCtx n f).moFree = s.moFree := rfl
@[simp] theorem State.updCtx_wins (s : State) (n : Nat) (f : Ctx → Ctx) : (s.updCtx n f).wins = s.wins := rfl
@[simp] theorem State.updCtx_winNext (s : State) (n : Nat) (f : Ctx → Ctx) : (s.updCtx n f).winNext = s.winNext := rfl
@[simp] theorem State.updCtx_winFree (s : State) (n : Nat) (f : Ctx → Ctx) : (s.updCtx n f).winFree = s.winFree := rfl
@[simp] theorem State.updCtx_markers (s : State) (n : Nat) (f : Ctx → Ctx) : (s.updCtx n f).markers = s.markers := rfl
@[simp] theorem State.updCtx_cookies (s : State) (n : Nat) (f : Ctx → Ctx) : (s.updCtx n f).cookies = s.cookies := rfl
@[simp] theorem State.updCtx_bindJobs (s : State) (n : Nat) (f : Ctx → Ctx) : (s.updCtx n f).bindJobs = s.bindJobs := rfl
@[simp] theorem State.updCtx_cm (s : State) (n : Nat) (f : Ctx → Ctx) : (s.updCtx n f).cm = s.cm := rfl
@[simp] theorem State.updCtx_sqs (s : State) (n : Nat) (f : Ctx → Ctx) : (s.updCtx n f).sqs = s.sqs := rfl
@[simp] theorem State.updCtx_cqs (s : State) (n : Nat) (f : Ctx → Ctx) : (s.updCtx n f).cqs = s.cqs := rfl
@[simp] theorem State.updCtx_ops (s : State) (n : Nat) (f : Ctx → Ctx) : (s.updCtx n f).ops = s.ops := rfl
@[simp] theorem State.updCtx_xlt (s : State) (n : Nat) (f : Ctx → Ctx) : (s.updCtx n f).xlt = s.xlt := rfl
@[simp] theorem State.updCtx_xuses (s : State) (n : Nat) (f : Ctx → Ctx) : (s.updCtx n f).xuses = s.xuses := rfl
@[simp] theorem State.updCtx_qps (s : State) (n : Nat) (f : Ctx → Ctx) : (s.updCtx n f).qps = s.qps := rfl
@[simp] theorem State.updCtx_trackers (s : State) (n : Nat) (f : Ctx → Ctx) : (s.updCtx n f).trackers = s.trackers := rfl
@[simp] theorem State.updCtx_grants (s : State) (n : Nat) (f : Ctx → Ctx) : (s.updCtx n f).grants = s.grants := rfl
@[simp] theorem State.updCtx_ertPort (s : State) (n : Nat) (f : Ctx → Ctx) : (s.updCtx n f).ertPort = s.ertPort := rfl
@[simp] theorem State.updCtx_tcWeight (s : State) (n : Nat) (f : Ctx → Ctx) : (s.updCtx n f).tcWeight = s.tcWeight := rfl
@[simp] theorem State.updCtx_tcDscp (s : State) (n : Nat) (f : Ctx → Ctx) : (s.updCtx n f).tcDscp = s.tcDscp := rfl
@[simp] theorem State.updCtx_tension (s : State) (n : Nat) (f : Ctx → Ctx) : (s.updCtx n f).tension = s.tension := rfl
@[simp] theorem State.updCtx_trkRsv (s : State) (n : Nat) (f : Ctx → Ctx) : (s.updCtx n f).trkRsv = s.trkRsv := rfl
@[simp] theorem State.updCtx_pfcEn (s : State) (n : Nat) (f : Ctx → Ctx) : (s.updCtx n f).pfcEn = s.pfcEn := rfl
@[simp] theorem State.updCtx_pfcPrio (s : State) (n : Nat) (f : Ctx → Ctx) : (s.updCtx n f).pfcPrio = s.pfcPrio := rfl
@[simp] theorem State.updCtx_xoff (s : State) (n : Nat) (f : Ctx → Ctx) : (s.updCtx n f).xoff = s.xoff := rfl
@[simp] theorem State.updCtx_xon (s : State) (n : Nat) (f : Ctx → Ctx) : (s.updCtx n f).xon = s.xon := rfl
@[simp] theorem State.updCtx_skeinRecs (s : State) (n : Nat) (f : Ctx → Ctx) : (s.updCtx n f).skeinRecs = s.skeinRecs := rfl
@[simp] theorem State.updCtx_recWrites (s : State) (n : Nat) (f : Ctx → Ctx) : (s.updCtx n f).recWrites = s.recWrites := rfl
@[simp] theorem State.updCtx_groups (s : State) (n : Nat) (f : Ctx → Ctx) : (s.updCtx n f).groups = s.groups := rfl
@[simp] theorem State.updCtx_links (s : State) (n : Nat) (f : Ctx → Ctx) : (s.updCtx n f).links = s.links := rfl
@[simp] theorem State.updCtx_cwc (s : State) (n : Nat) (f : Ctx → Ctx) : (s.updCtx n f).cwc = s.cwc := rfl
@[simp] theorem State.updCtx_hdm (s : State) (n : Nat) (f : Ctx → Ctx) : (s.updCtx n f).hdm = s.hdm := rfl
@[simp] theorem State.updCtx_biWait (s : State) (n : Nat) (f : Ctx → Ctx) : (s.updCtx n f).biWait = s.biWait := rfl
@[simp] theorem State.updCtx_lruClock (s : State) (n : Nat) (f : Ctx → Ctx) : (s.updCtx n f).lruClock = s.lruClock := rfl
@[simp] theorem State.updCtx_bar2Slide (s : State) (n : Nat) (f : Ctx → Ctx) : (s.updCtx n f).bar2Slide = s.bar2Slide := rfl
@[simp] theorem State.updCtx_ridFilter (s : State) (n : Nat) (f : Ctx → Ctx) : (s.updCtx n f).ridFilter = s.ridFilter := rfl
@[simp] theorem State.updCtx_directWait (s : State) (n : Nat) (f : Ctx → Ctx) : (s.updCtx n f).directWait = s.directWait := rfl
@[simp] theorem State.updCtx_directLds (s : State) (n : Nat) (f : Ctx → Ctx) : (s.updCtx n f).directLds = s.directLds := rfl
@[simp] theorem State.updCtx_mods (s : State) (n : Nat) (f : Ctx → Ctx) : (s.updCtx n f).mods = s.mods := rfl
@[simp] theorem State.updCtx_dies (s : State) (n : Nat) (f : Ctx → Ctx) : (s.updCtx n f).dies = s.dies := rfl
@[simp] theorem State.updCtx_dlRoute (s : State) (n : Nat) (f : Ctx → Ctx) : (s.updCtx n f).dlRoute = s.dlRoute := rfl
@[simp] theorem State.updCtx_portCfg (s : State) (n : Nat) (f : Ctx → Ctx) : (s.updCtx n f).portCfg = s.portCfg := rfl
@[simp] theorem State.updCtx_nextHop (s : State) (n : Nat) (f : Ctx → Ctx) : (s.updCtx n f).nextHop = s.nextHop := rfl
@[simp] theorem State.updCtx_lports (s : State) (n : Nat) (f : Ctx → Ctx) : (s.updCtx n f).lports = s.lports := rfl
@[simp] theorem State.updCtx_sc (s : State) (n : Nat) (f : Ctx → Ctx) : (s.updCtx n f).sc = s.sc := rfl
@[simp] theorem State.updCtx_fc (s : State) (n : Nat) (f : Ctx → Ctx) : (s.updCtx n f).fc = s.fc := rfl
@[simp] theorem State.updCtx_heldWrites (s : State) (n : Nat) (f : Ctx → Ctx) : (s.updCtx n f).heldWrites = s.heldWrites := rfl
@[simp] theorem State.updCtx_heldSq (s : State) (n : Nat) (f : Ctx → Ctx) : (s.updCtx n f).heldSq = s.heldSq := rfl
@[simp] theorem State.updCtx_heldCq (s : State) (n : Nat) (f : Ctx → Ctx) : (s.updCtx n f).heldCq = s.heldCq := rfl
@[simp] theorem State.updCtx_heldAck (s : State) (n : Nat) (f : Ctx → Ctx) : (s.updCtx n f).heldAck = s.heldAck := rfl
@[simp] theorem State.updCtx_heldMb (s : State) (n : Nat) (f : Ctx → Ctx) : (s.updCtx n f).heldMb = s.heldMb := rfl
@[simp] theorem State.updCtx_heldOff (s : State) (n : Nat) (f : Ctx → Ctx) : (s.updCtx n f).heldOff = s.heldOff := rfl
@[simp] theorem State.updCtx_heldAns (s : State) (n : Nat) (f : Ctx → Ctx) : (s.updCtx n f).heldAns = s.heldAns := rfl
@[simp] theorem State.updCtx_heldLost (s : State) (n : Nat) (f : Ctx → Ctx) : (s.updCtx n f).heldLost = s.heldLost := rfl
@[simp] theorem State.updCtx_gov (s : State) (n : Nat) (f : Ctx → Ctx) : (s.updCtx n f).gov = s.gov := rfl
@[simp] theorem State.updCtx_counters (s : State) (n : Nat) (f : Ctx → Ctx) : (s.updCtx n f).counters = s.counters := rfl

/-! ### updSlice -/

@[simp] theorem State.updSlice_slice_self (s : State) (n : Nat) (f : Slice → Slice) : (s.updSlice n f).slice n = f (s.slice n) := by simp [State.updSlice, State.slice]
theorem State.updSlice_slice_ne (s : State) {n m : Nat} (f : Slice → Slice) (h : m ≠ n) : (s.updSlice n f).slice m = s.slice m := by simp [State.updSlice, State.slice, Tab.getD_upd_ne _ _ _ _ h]
@[simp] theorem State.updSlice_pending (s : State) (n : Nat) (f : Slice → Slice) : (s.updSlice n f).pending = s.pending := rfl
@[simp] theorem State.updSlice_sent (s : State) (n : Nat) (f : Slice → Slice) : (s.updSlice n f).sent = s.sent := rfl
@[simp] theorem State.updSlice_freeCtr (s : State) (n : Nat) (f : Slice → Slice) : (s.updSlice n f).freeCtr = s.freeCtr := rfl
@[simp] theorem State.updSlice_ticks (s : State) (n : Nat) (f : Slice → Slice) : (s.updSlice n f).ticks = s.ticks := rfl
@[simp] theorem State.updSlice_castOnFuse (s : State) (n : Nat) (f : Slice → Slice) : (s.updSlice n f).castOnFuse = s.castOnFuse := rfl
@[simp] theorem State.updSlice_sec (s : State) (n : Nat) (f : Slice → Slice) : (s.updSlice n f).sec = s.sec := rfl
@[simp] theorem State.updSlice_fleet (s : State) (n : Nat) (f : Slice → Slice) : (s.updSlice n f).fleet = s.fleet := rfl
@[simp] theorem State.updSlice_castOn (s : State) (n : Nat) (f : Slice → Slice) : (s.updSlice n f).castOn = s.castOn := rfl
@[simp] theorem State.updSlice_fnd (s : State) (n : Nat) (f : Slice → Slice) : (s.updSlice n f).fnd = s.fnd := rfl
@[simp] theorem State.updSlice_rumel (s : State) (n : Nat) (f : Slice → Slice) : (s.updSlice n f).rumel = s.rumel := rfl
@[simp] theorem State.updSlice_hbmGib (s : State) (n : Nat) (f : Slice → Slice) : (s.updSlice n f).hbmGib = s.hbmGib := rfl
@[simp] theorem State.updSlice_hooksUp (s : State) (n : Nat) (f : Slice → Slice) : (s.updSlice n f).hooksUp = s.hooksUp := rfl
@[simp] theorem State.updSlice_mailboxes (s : State) (n : Nat) (f : Slice → Slice) : (s.updSlice n f).mailboxes = s.mailboxes := rfl
@[simp] theorem State.updSlice_ctxs (s : State) (n : Nat) (f : Slice → Slice) : (s.updSlice n f).ctxs = s.ctxs := rfl
@[simp] theorem State.updSlice_mos (s : State) (n : Nat) (f : Slice → Slice) : (s.updSlice n f).mos = s.mos := rfl
@[simp] theorem State.updSlice_moNext (s : State) (n : Nat) (f : Slice → Slice) : (s.updSlice n f).moNext = s.moNext := rfl
@[simp] theorem State.updSlice_moFree (s : State) (n : Nat) (f : Slice → Slice) : (s.updSlice n f).moFree = s.moFree := rfl
@[simp] theorem State.updSlice_wins (s : State) (n : Nat) (f : Slice → Slice) : (s.updSlice n f).wins = s.wins := rfl
@[simp] theorem State.updSlice_winNext (s : State) (n : Nat) (f : Slice → Slice) : (s.updSlice n f).winNext = s.winNext := rfl
@[simp] theorem State.updSlice_winFree (s : State) (n : Nat) (f : Slice → Slice) : (s.updSlice n f).winFree = s.winFree := rfl
@[simp] theorem State.updSlice_markers (s : State) (n : Nat) (f : Slice → Slice) : (s.updSlice n f).markers = s.markers := rfl
@[simp] theorem State.updSlice_cookies (s : State) (n : Nat) (f : Slice → Slice) : (s.updSlice n f).cookies = s.cookies := rfl
@[simp] theorem State.updSlice_bindJobs (s : State) (n : Nat) (f : Slice → Slice) : (s.updSlice n f).bindJobs = s.bindJobs := rfl
@[simp] theorem State.updSlice_cm (s : State) (n : Nat) (f : Slice → Slice) : (s.updSlice n f).cm = s.cm := rfl
@[simp] theorem State.updSlice_sqs (s : State) (n : Nat) (f : Slice → Slice) : (s.updSlice n f).sqs = s.sqs := rfl
@[simp] theorem State.updSlice_cqs (s : State) (n : Nat) (f : Slice → Slice) : (s.updSlice n f).cqs = s.cqs := rfl
@[simp] theorem State.updSlice_ops (s : State) (n : Nat) (f : Slice → Slice) : (s.updSlice n f).ops = s.ops := rfl
@[simp] theorem State.updSlice_xlt (s : State) (n : Nat) (f : Slice → Slice) : (s.updSlice n f).xlt = s.xlt := rfl
@[simp] theorem State.updSlice_xuses (s : State) (n : Nat) (f : Slice → Slice) : (s.updSlice n f).xuses = s.xuses := rfl
@[simp] theorem State.updSlice_qps (s : State) (n : Nat) (f : Slice → Slice) : (s.updSlice n f).qps = s.qps := rfl
@[simp] theorem State.updSlice_trackers (s : State) (n : Nat) (f : Slice → Slice) : (s.updSlice n f).trackers = s.trackers := rfl
@[simp] theorem State.updSlice_grants (s : State) (n : Nat) (f : Slice → Slice) : (s.updSlice n f).grants = s.grants := rfl
@[simp] theorem State.updSlice_ertPort (s : State) (n : Nat) (f : Slice → Slice) : (s.updSlice n f).ertPort = s.ertPort := rfl
@[simp] theorem State.updSlice_tcWeight (s : State) (n : Nat) (f : Slice → Slice) : (s.updSlice n f).tcWeight = s.tcWeight := rfl
@[simp] theorem State.updSlice_tcDscp (s : State) (n : Nat) (f : Slice → Slice) : (s.updSlice n f).tcDscp = s.tcDscp := rfl
@[simp] theorem State.updSlice_tension (s : State) (n : Nat) (f : Slice → Slice) : (s.updSlice n f).tension = s.tension := rfl
@[simp] theorem State.updSlice_trkRsv (s : State) (n : Nat) (f : Slice → Slice) : (s.updSlice n f).trkRsv = s.trkRsv := rfl
@[simp] theorem State.updSlice_pfcEn (s : State) (n : Nat) (f : Slice → Slice) : (s.updSlice n f).pfcEn = s.pfcEn := rfl
@[simp] theorem State.updSlice_pfcPrio (s : State) (n : Nat) (f : Slice → Slice) : (s.updSlice n f).pfcPrio = s.pfcPrio := rfl
@[simp] theorem State.updSlice_xoff (s : State) (n : Nat) (f : Slice → Slice) : (s.updSlice n f).xoff = s.xoff := rfl
@[simp] theorem State.updSlice_xon (s : State) (n : Nat) (f : Slice → Slice) : (s.updSlice n f).xon = s.xon := rfl
@[simp] theorem State.updSlice_skeinRecs (s : State) (n : Nat) (f : Slice → Slice) : (s.updSlice n f).skeinRecs = s.skeinRecs := rfl
@[simp] theorem State.updSlice_recWrites (s : State) (n : Nat) (f : Slice → Slice) : (s.updSlice n f).recWrites = s.recWrites := rfl
@[simp] theorem State.updSlice_groups (s : State) (n : Nat) (f : Slice → Slice) : (s.updSlice n f).groups = s.groups := rfl
@[simp] theorem State.updSlice_links (s : State) (n : Nat) (f : Slice → Slice) : (s.updSlice n f).links = s.links := rfl
@[simp] theorem State.updSlice_cwc (s : State) (n : Nat) (f : Slice → Slice) : (s.updSlice n f).cwc = s.cwc := rfl
@[simp] theorem State.updSlice_hdm (s : State) (n : Nat) (f : Slice → Slice) : (s.updSlice n f).hdm = s.hdm := rfl
@[simp] theorem State.updSlice_biWait (s : State) (n : Nat) (f : Slice → Slice) : (s.updSlice n f).biWait = s.biWait := rfl
@[simp] theorem State.updSlice_lruClock (s : State) (n : Nat) (f : Slice → Slice) : (s.updSlice n f).lruClock = s.lruClock := rfl
@[simp] theorem State.updSlice_bar2Slide (s : State) (n : Nat) (f : Slice → Slice) : (s.updSlice n f).bar2Slide = s.bar2Slide := rfl
@[simp] theorem State.updSlice_ridFilter (s : State) (n : Nat) (f : Slice → Slice) : (s.updSlice n f).ridFilter = s.ridFilter := rfl
@[simp] theorem State.updSlice_directWait (s : State) (n : Nat) (f : Slice → Slice) : (s.updSlice n f).directWait = s.directWait := rfl
@[simp] theorem State.updSlice_directLds (s : State) (n : Nat) (f : Slice → Slice) : (s.updSlice n f).directLds = s.directLds := rfl
@[simp] theorem State.updSlice_mods (s : State) (n : Nat) (f : Slice → Slice) : (s.updSlice n f).mods = s.mods := rfl
@[simp] theorem State.updSlice_dies (s : State) (n : Nat) (f : Slice → Slice) : (s.updSlice n f).dies = s.dies := rfl
@[simp] theorem State.updSlice_dlRoute (s : State) (n : Nat) (f : Slice → Slice) : (s.updSlice n f).dlRoute = s.dlRoute := rfl
@[simp] theorem State.updSlice_portCfg (s : State) (n : Nat) (f : Slice → Slice) : (s.updSlice n f).portCfg = s.portCfg := rfl
@[simp] theorem State.updSlice_nextHop (s : State) (n : Nat) (f : Slice → Slice) : (s.updSlice n f).nextHop = s.nextHop := rfl
@[simp] theorem State.updSlice_lports (s : State) (n : Nat) (f : Slice → Slice) : (s.updSlice n f).lports = s.lports := rfl
@[simp] theorem State.updSlice_sc (s : State) (n : Nat) (f : Slice → Slice) : (s.updSlice n f).sc = s.sc := rfl
@[simp] theorem State.updSlice_fc (s : State) (n : Nat) (f : Slice → Slice) : (s.updSlice n f).fc = s.fc := rfl
@[simp] theorem State.updSlice_heldWrites (s : State) (n : Nat) (f : Slice → Slice) : (s.updSlice n f).heldWrites = s.heldWrites := rfl
@[simp] theorem State.updSlice_heldSq (s : State) (n : Nat) (f : Slice → Slice) : (s.updSlice n f).heldSq = s.heldSq := rfl
@[simp] theorem State.updSlice_heldCq (s : State) (n : Nat) (f : Slice → Slice) : (s.updSlice n f).heldCq = s.heldCq := rfl
@[simp] theorem State.updSlice_heldAck (s : State) (n : Nat) (f : Slice → Slice) : (s.updSlice n f).heldAck = s.heldAck := rfl
@[simp] theorem State.updSlice_heldMb (s : State) (n : Nat) (f : Slice → Slice) : (s.updSlice n f).heldMb = s.heldMb := rfl
@[simp] theorem State.updSlice_heldOff (s : State) (n : Nat) (f : Slice → Slice) : (s.updSlice n f).heldOff = s.heldOff := rfl
@[simp] theorem State.updSlice_heldAns (s : State) (n : Nat) (f : Slice → Slice) : (s.updSlice n f).heldAns = s.heldAns := rfl
@[simp] theorem State.updSlice_heldLost (s : State) (n : Nat) (f : Slice → Slice) : (s.updSlice n f).heldLost = s.heldLost := rfl
@[simp] theorem State.updSlice_gov (s : State) (n : Nat) (f : Slice → Slice) : (s.updSlice n f).gov = s.gov := rfl
@[simp] theorem State.updSlice_counters (s : State) (n : Nat) (f : Slice → Slice) : (s.updSlice n f).counters = s.counters := rfl

/-! ### updMo -/

@[simp] theorem State.updMo_mo_self (s : State) (n : Nat) (f : Mo → Mo) : (s.updMo n f).mo n = f (s.mo n) := by simp [State.updMo, State.mo]
theorem State.updMo_mo_ne (s : State) {n m : Nat} (f : Mo → Mo) (h : m ≠ n) : (s.updMo n f).mo m = s.mo m := by simp [State.updMo, State.mo, Tab.getD_upd_ne _ _ _ _ h]
@[simp] theorem State.updMo_pending (s : State) (n : Nat) (f : Mo → Mo) : (s.updMo n f).pending = s.pending := rfl
@[simp] theorem State.updMo_sent (s : State) (n : Nat) (f : Mo → Mo) : (s.updMo n f).sent = s.sent := rfl
@[simp] theorem State.updMo_freeCtr (s : State) (n : Nat) (f : Mo → Mo) : (s.updMo n f).freeCtr = s.freeCtr := rfl
@[simp] theorem State.updMo_ticks (s : State) (n : Nat) (f : Mo → Mo) : (s.updMo n f).ticks = s.ticks := rfl
@[simp] theorem State.updMo_castOnFuse (s : State) (n : Nat) (f : Mo → Mo) : (s.updMo n f).castOnFuse = s.castOnFuse := rfl
@[simp] theorem State.updMo_sec (s : State) (n : Nat) (f : Mo → Mo) : (s.updMo n f).sec = s.sec := rfl
@[simp] theorem State.updMo_fleet (s : State) (n : Nat) (f : Mo → Mo) : (s.updMo n f).fleet = s.fleet := rfl
@[simp] theorem State.updMo_castOn (s : State) (n : Nat) (f : Mo → Mo) : (s.updMo n f).castOn = s.castOn := rfl
@[simp] theorem State.updMo_fnd (s : State) (n : Nat) (f : Mo → Mo) : (s.updMo n f).fnd = s.fnd := rfl
@[simp] theorem State.updMo_rumel (s : State) (n : Nat) (f : Mo → Mo) : (s.updMo n f).rumel = s.rumel := rfl
@[simp] theorem State.updMo_hbmGib (s : State) (n : Nat) (f : Mo → Mo) : (s.updMo n f).hbmGib = s.hbmGib := rfl
@[simp] theorem State.updMo_hooksUp (s : State) (n : Nat) (f : Mo → Mo) : (s.updMo n f).hooksUp = s.hooksUp := rfl
@[simp] theorem State.updMo_slices (s : State) (n : Nat) (f : Mo → Mo) : (s.updMo n f).slices = s.slices := rfl
@[simp] theorem State.updMo_mailboxes (s : State) (n : Nat) (f : Mo → Mo) : (s.updMo n f).mailboxes = s.mailboxes := rfl
@[simp] theorem State.updMo_ctxs (s : State) (n : Nat) (f : Mo → Mo) : (s.updMo n f).ctxs = s.ctxs := rfl
@[simp] theorem State.updMo_moNext (s : State) (n : Nat) (f : Mo → Mo) : (s.updMo n f).moNext = s.moNext := rfl
@[simp] theorem State.updMo_moFree (s : State) (n : Nat) (f : Mo → Mo) : (s.updMo n f).moFree = s.moFree := rfl
@[simp] theorem State.updMo_wins (s : State) (n : Nat) (f : Mo → Mo) : (s.updMo n f).wins = s.wins := rfl
@[simp] theorem State.updMo_winNext (s : State) (n : Nat) (f : Mo → Mo) : (s.updMo n f).winNext = s.winNext := rfl
@[simp] theorem State.updMo_winFree (s : State) (n : Nat) (f : Mo → Mo) : (s.updMo n f).winFree = s.winFree := rfl
@[simp] theorem State.updMo_markers (s : State) (n : Nat) (f : Mo → Mo) : (s.updMo n f).markers = s.markers := rfl
@[simp] theorem State.updMo_cookies (s : State) (n : Nat) (f : Mo → Mo) : (s.updMo n f).cookies = s.cookies := rfl
@[simp] theorem State.updMo_bindJobs (s : State) (n : Nat) (f : Mo → Mo) : (s.updMo n f).bindJobs = s.bindJobs := rfl
@[simp] theorem State.updMo_cm (s : State) (n : Nat) (f : Mo → Mo) : (s.updMo n f).cm = s.cm := rfl
@[simp] theorem State.updMo_sqs (s : State) (n : Nat) (f : Mo → Mo) : (s.updMo n f).sqs = s.sqs := rfl
@[simp] theorem State.updMo_cqs (s : State) (n : Nat) (f : Mo → Mo) : (s.updMo n f).cqs = s.cqs := rfl
@[simp] theorem State.updMo_ops (s : State) (n : Nat) (f : Mo → Mo) : (s.updMo n f).ops = s.ops := rfl
@[simp] theorem State.updMo_xlt (s : State) (n : Nat) (f : Mo → Mo) : (s.updMo n f).xlt = s.xlt := rfl
@[simp] theorem State.updMo_xuses (s : State) (n : Nat) (f : Mo → Mo) : (s.updMo n f).xuses = s.xuses := rfl
@[simp] theorem State.updMo_qps (s : State) (n : Nat) (f : Mo → Mo) : (s.updMo n f).qps = s.qps := rfl
@[simp] theorem State.updMo_trackers (s : State) (n : Nat) (f : Mo → Mo) : (s.updMo n f).trackers = s.trackers := rfl
@[simp] theorem State.updMo_grants (s : State) (n : Nat) (f : Mo → Mo) : (s.updMo n f).grants = s.grants := rfl
@[simp] theorem State.updMo_ertPort (s : State) (n : Nat) (f : Mo → Mo) : (s.updMo n f).ertPort = s.ertPort := rfl
@[simp] theorem State.updMo_tcWeight (s : State) (n : Nat) (f : Mo → Mo) : (s.updMo n f).tcWeight = s.tcWeight := rfl
@[simp] theorem State.updMo_tcDscp (s : State) (n : Nat) (f : Mo → Mo) : (s.updMo n f).tcDscp = s.tcDscp := rfl
@[simp] theorem State.updMo_tension (s : State) (n : Nat) (f : Mo → Mo) : (s.updMo n f).tension = s.tension := rfl
@[simp] theorem State.updMo_trkRsv (s : State) (n : Nat) (f : Mo → Mo) : (s.updMo n f).trkRsv = s.trkRsv := rfl
@[simp] theorem State.updMo_pfcEn (s : State) (n : Nat) (f : Mo → Mo) : (s.updMo n f).pfcEn = s.pfcEn := rfl
@[simp] theorem State.updMo_pfcPrio (s : State) (n : Nat) (f : Mo → Mo) : (s.updMo n f).pfcPrio = s.pfcPrio := rfl
@[simp] theorem State.updMo_xoff (s : State) (n : Nat) (f : Mo → Mo) : (s.updMo n f).xoff = s.xoff := rfl
@[simp] theorem State.updMo_xon (s : State) (n : Nat) (f : Mo → Mo) : (s.updMo n f).xon = s.xon := rfl
@[simp] theorem State.updMo_skeinRecs (s : State) (n : Nat) (f : Mo → Mo) : (s.updMo n f).skeinRecs = s.skeinRecs := rfl
@[simp] theorem State.updMo_recWrites (s : State) (n : Nat) (f : Mo → Mo) : (s.updMo n f).recWrites = s.recWrites := rfl
@[simp] theorem State.updMo_groups (s : State) (n : Nat) (f : Mo → Mo) : (s.updMo n f).groups = s.groups := rfl
@[simp] theorem State.updMo_links (s : State) (n : Nat) (f : Mo → Mo) : (s.updMo n f).links = s.links := rfl
@[simp] theorem State.updMo_cwc (s : State) (n : Nat) (f : Mo → Mo) : (s.updMo n f).cwc = s.cwc := rfl
@[simp] theorem State.updMo_hdm (s : State) (n : Nat) (f : Mo → Mo) : (s.updMo n f).hdm = s.hdm := rfl
@[simp] theorem State.updMo_biWait (s : State) (n : Nat) (f : Mo → Mo) : (s.updMo n f).biWait = s.biWait := rfl
@[simp] theorem State.updMo_lruClock (s : State) (n : Nat) (f : Mo → Mo) : (s.updMo n f).lruClock = s.lruClock := rfl
@[simp] theorem State.updMo_bar2Slide (s : State) (n : Nat) (f : Mo → Mo) : (s.updMo n f).bar2Slide = s.bar2Slide := rfl
@[simp] theorem State.updMo_ridFilter (s : State) (n : Nat) (f : Mo → Mo) : (s.updMo n f).ridFilter = s.ridFilter := rfl
@[simp] theorem State.updMo_directWait (s : State) (n : Nat) (f : Mo → Mo) : (s.updMo n f).directWait = s.directWait := rfl
@[simp] theorem State.updMo_directLds (s : State) (n : Nat) (f : Mo → Mo) : (s.updMo n f).directLds = s.directLds := rfl
@[simp] theorem State.updMo_mods (s : State) (n : Nat) (f : Mo → Mo) : (s.updMo n f).mods = s.mods := rfl
@[simp] theorem State.updMo_dies (s : State) (n : Nat) (f : Mo → Mo) : (s.updMo n f).dies = s.dies := rfl
@[simp] theorem State.updMo_dlRoute (s : State) (n : Nat) (f : Mo → Mo) : (s.updMo n f).dlRoute = s.dlRoute := rfl
@[simp] theorem State.updMo_portCfg (s : State) (n : Nat) (f : Mo → Mo) : (s.updMo n f).portCfg = s.portCfg := rfl
@[simp] theorem State.updMo_nextHop (s : State) (n : Nat) (f : Mo → Mo) : (s.updMo n f).nextHop = s.nextHop := rfl
@[simp] theorem State.updMo_lports (s : State) (n : Nat) (f : Mo → Mo) : (s.updMo n f).lports = s.lports := rfl
@[simp] theorem State.updMo_sc (s : State) (n : Nat) (f : Mo → Mo) : (s.updMo n f).sc = s.sc := rfl
@[simp] theorem State.updMo_fc (s : State) (n : Nat) (f : Mo → Mo) : (s.updMo n f).fc = s.fc := rfl
@[simp] theorem State.updMo_heldWrites (s : State) (n : Nat) (f : Mo → Mo) : (s.updMo n f).heldWrites = s.heldWrites := rfl
@[simp] theorem State.updMo_heldSq (s : State) (n : Nat) (f : Mo → Mo) : (s.updMo n f).heldSq = s.heldSq := rfl
@[simp] theorem State.updMo_heldCq (s : State) (n : Nat) (f : Mo → Mo) : (s.updMo n f).heldCq = s.heldCq := rfl
@[simp] theorem State.updMo_heldAck (s : State) (n : Nat) (f : Mo → Mo) : (s.updMo n f).heldAck = s.heldAck := rfl
@[simp] theorem State.updMo_heldMb (s : State) (n : Nat) (f : Mo → Mo) : (s.updMo n f).heldMb = s.heldMb := rfl
@[simp] theorem State.updMo_heldOff (s : State) (n : Nat) (f : Mo → Mo) : (s.updMo n f).heldOff = s.heldOff := rfl
@[simp] theorem State.updMo_heldAns (s : State) (n : Nat) (f : Mo → Mo) : (s.updMo n f).heldAns = s.heldAns := rfl
@[simp] theorem State.updMo_heldLost (s : State) (n : Nat) (f : Mo → Mo) : (s.updMo n f).heldLost = s.heldLost := rfl
@[simp] theorem State.updMo_gov (s : State) (n : Nat) (f : Mo → Mo) : (s.updMo n f).gov = s.gov := rfl
@[simp] theorem State.updMo_counters (s : State) (n : Nat) (f : Mo → Mo) : (s.updMo n f).counters = s.counters := rfl

/-! ### updWin -/

@[simp] theorem State.updWin_win_self (s : State) (n : Nat) (f : Win → Win) : (s.updWin n f).win n = f (s.win n) := by simp [State.updWin, State.win]
theorem State.updWin_win_ne (s : State) {n m : Nat} (f : Win → Win) (h : m ≠ n) : (s.updWin n f).win m = s.win m := by simp [State.updWin, State.win, Tab.getD_upd_ne _ _ _ _ h]
@[simp] theorem State.updWin_pending (s : State) (n : Nat) (f : Win → Win) : (s.updWin n f).pending = s.pending := rfl
@[simp] theorem State.updWin_sent (s : State) (n : Nat) (f : Win → Win) : (s.updWin n f).sent = s.sent := rfl
@[simp] theorem State.updWin_freeCtr (s : State) (n : Nat) (f : Win → Win) : (s.updWin n f).freeCtr = s.freeCtr := rfl
@[simp] theorem State.updWin_ticks (s : State) (n : Nat) (f : Win → Win) : (s.updWin n f).ticks = s.ticks := rfl
@[simp] theorem State.updWin_castOnFuse (s : State) (n : Nat) (f : Win → Win) : (s.updWin n f).castOnFuse = s.castOnFuse := rfl
@[simp] theorem State.updWin_sec (s : State) (n : Nat) (f : Win → Win) : (s.updWin n f).sec = s.sec := rfl
@[simp] theorem State.updWin_fleet (s : State) (n : Nat) (f : Win → Win) : (s.updWin n f).fleet = s.fleet := rfl
@[simp] theorem State.updWin_castOn (s : State) (n : Nat) (f : Win → Win) : (s.updWin n f).castOn = s.castOn := rfl
@[simp] theorem State.updWin_fnd (s : State) (n : Nat) (f : Win → Win) : (s.updWin n f).fnd = s.fnd := rfl
@[simp] theorem State.updWin_rumel (s : State) (n : Nat) (f : Win → Win) : (s.updWin n f).rumel = s.rumel := rfl
@[simp] theorem State.updWin_hbmGib (s : State) (n : Nat) (f : Win → Win) : (s.updWin n f).hbmGib = s.hbmGib := rfl
@[simp] theorem State.updWin_hooksUp (s : State) (n : Nat) (f : Win → Win) : (s.updWin n f).hooksUp = s.hooksUp := rfl
@[simp] theorem State.updWin_slices (s : State) (n : Nat) (f : Win → Win) : (s.updWin n f).slices = s.slices := rfl
@[simp] theorem State.updWin_mailboxes (s : State) (n : Nat) (f : Win → Win) : (s.updWin n f).mailboxes = s.mailboxes := rfl
@[simp] theorem State.updWin_ctxs (s : State) (n : Nat) (f : Win → Win) : (s.updWin n f).ctxs = s.ctxs := rfl
@[simp] theorem State.updWin_mos (s : State) (n : Nat) (f : Win → Win) : (s.updWin n f).mos = s.mos := rfl
@[simp] theorem State.updWin_moNext (s : State) (n : Nat) (f : Win → Win) : (s.updWin n f).moNext = s.moNext := rfl
@[simp] theorem State.updWin_moFree (s : State) (n : Nat) (f : Win → Win) : (s.updWin n f).moFree = s.moFree := rfl
@[simp] theorem State.updWin_winNext (s : State) (n : Nat) (f : Win → Win) : (s.updWin n f).winNext = s.winNext := rfl
@[simp] theorem State.updWin_winFree (s : State) (n : Nat) (f : Win → Win) : (s.updWin n f).winFree = s.winFree := rfl
@[simp] theorem State.updWin_markers (s : State) (n : Nat) (f : Win → Win) : (s.updWin n f).markers = s.markers := rfl
@[simp] theorem State.updWin_cookies (s : State) (n : Nat) (f : Win → Win) : (s.updWin n f).cookies = s.cookies := rfl
@[simp] theorem State.updWin_bindJobs (s : State) (n : Nat) (f : Win → Win) : (s.updWin n f).bindJobs = s.bindJobs := rfl
@[simp] theorem State.updWin_cm (s : State) (n : Nat) (f : Win → Win) : (s.updWin n f).cm = s.cm := rfl
@[simp] theorem State.updWin_sqs (s : State) (n : Nat) (f : Win → Win) : (s.updWin n f).sqs = s.sqs := rfl
@[simp] theorem State.updWin_cqs (s : State) (n : Nat) (f : Win → Win) : (s.updWin n f).cqs = s.cqs := rfl
@[simp] theorem State.updWin_ops (s : State) (n : Nat) (f : Win → Win) : (s.updWin n f).ops = s.ops := rfl
@[simp] theorem State.updWin_xlt (s : State) (n : Nat) (f : Win → Win) : (s.updWin n f).xlt = s.xlt := rfl
@[simp] theorem State.updWin_xuses (s : State) (n : Nat) (f : Win → Win) : (s.updWin n f).xuses = s.xuses := rfl
@[simp] theorem State.updWin_qps (s : State) (n : Nat) (f : Win → Win) : (s.updWin n f).qps = s.qps := rfl
@[simp] theorem State.updWin_trackers (s : State) (n : Nat) (f : Win → Win) : (s.updWin n f).trackers = s.trackers := rfl
@[simp] theorem State.updWin_grants (s : State) (n : Nat) (f : Win → Win) : (s.updWin n f).grants = s.grants := rfl
@[simp] theorem State.updWin_ertPort (s : State) (n : Nat) (f : Win → Win) : (s.updWin n f).ertPort = s.ertPort := rfl
@[simp] theorem State.updWin_tcWeight (s : State) (n : Nat) (f : Win → Win) : (s.updWin n f).tcWeight = s.tcWeight := rfl
@[simp] theorem State.updWin_tcDscp (s : State) (n : Nat) (f : Win → Win) : (s.updWin n f).tcDscp = s.tcDscp := rfl
@[simp] theorem State.updWin_tension (s : State) (n : Nat) (f : Win → Win) : (s.updWin n f).tension = s.tension := rfl
@[simp] theorem State.updWin_trkRsv (s : State) (n : Nat) (f : Win → Win) : (s.updWin n f).trkRsv = s.trkRsv := rfl
@[simp] theorem State.updWin_pfcEn (s : State) (n : Nat) (f : Win → Win) : (s.updWin n f).pfcEn = s.pfcEn := rfl
@[simp] theorem State.updWin_pfcPrio (s : State) (n : Nat) (f : Win → Win) : (s.updWin n f).pfcPrio = s.pfcPrio := rfl
@[simp] theorem State.updWin_xoff (s : State) (n : Nat) (f : Win → Win) : (s.updWin n f).xoff = s.xoff := rfl
@[simp] theorem State.updWin_xon (s : State) (n : Nat) (f : Win → Win) : (s.updWin n f).xon = s.xon := rfl
@[simp] theorem State.updWin_skeinRecs (s : State) (n : Nat) (f : Win → Win) : (s.updWin n f).skeinRecs = s.skeinRecs := rfl
@[simp] theorem State.updWin_recWrites (s : State) (n : Nat) (f : Win → Win) : (s.updWin n f).recWrites = s.recWrites := rfl
@[simp] theorem State.updWin_groups (s : State) (n : Nat) (f : Win → Win) : (s.updWin n f).groups = s.groups := rfl
@[simp] theorem State.updWin_links (s : State) (n : Nat) (f : Win → Win) : (s.updWin n f).links = s.links := rfl
@[simp] theorem State.updWin_cwc (s : State) (n : Nat) (f : Win → Win) : (s.updWin n f).cwc = s.cwc := rfl
@[simp] theorem State.updWin_hdm (s : State) (n : Nat) (f : Win → Win) : (s.updWin n f).hdm = s.hdm := rfl
@[simp] theorem State.updWin_biWait (s : State) (n : Nat) (f : Win → Win) : (s.updWin n f).biWait = s.biWait := rfl
@[simp] theorem State.updWin_lruClock (s : State) (n : Nat) (f : Win → Win) : (s.updWin n f).lruClock = s.lruClock := rfl
@[simp] theorem State.updWin_bar2Slide (s : State) (n : Nat) (f : Win → Win) : (s.updWin n f).bar2Slide = s.bar2Slide := rfl
@[simp] theorem State.updWin_ridFilter (s : State) (n : Nat) (f : Win → Win) : (s.updWin n f).ridFilter = s.ridFilter := rfl
@[simp] theorem State.updWin_directWait (s : State) (n : Nat) (f : Win → Win) : (s.updWin n f).directWait = s.directWait := rfl
@[simp] theorem State.updWin_directLds (s : State) (n : Nat) (f : Win → Win) : (s.updWin n f).directLds = s.directLds := rfl
@[simp] theorem State.updWin_mods (s : State) (n : Nat) (f : Win → Win) : (s.updWin n f).mods = s.mods := rfl
@[simp] theorem State.updWin_dies (s : State) (n : Nat) (f : Win → Win) : (s.updWin n f).dies = s.dies := rfl
@[simp] theorem State.updWin_dlRoute (s : State) (n : Nat) (f : Win → Win) : (s.updWin n f).dlRoute = s.dlRoute := rfl
@[simp] theorem State.updWin_portCfg (s : State) (n : Nat) (f : Win → Win) : (s.updWin n f).portCfg = s.portCfg := rfl
@[simp] theorem State.updWin_nextHop (s : State) (n : Nat) (f : Win → Win) : (s.updWin n f).nextHop = s.nextHop := rfl
@[simp] theorem State.updWin_lports (s : State) (n : Nat) (f : Win → Win) : (s.updWin n f).lports = s.lports := rfl
@[simp] theorem State.updWin_sc (s : State) (n : Nat) (f : Win → Win) : (s.updWin n f).sc = s.sc := rfl
@[simp] theorem State.updWin_fc (s : State) (n : Nat) (f : Win → Win) : (s.updWin n f).fc = s.fc := rfl
@[simp] theorem State.updWin_heldWrites (s : State) (n : Nat) (f : Win → Win) : (s.updWin n f).heldWrites = s.heldWrites := rfl
@[simp] theorem State.updWin_heldSq (s : State) (n : Nat) (f : Win → Win) : (s.updWin n f).heldSq = s.heldSq := rfl
@[simp] theorem State.updWin_heldCq (s : State) (n : Nat) (f : Win → Win) : (s.updWin n f).heldCq = s.heldCq := rfl
@[simp] theorem State.updWin_heldAck (s : State) (n : Nat) (f : Win → Win) : (s.updWin n f).heldAck = s.heldAck := rfl
@[simp] theorem State.updWin_heldMb (s : State) (n : Nat) (f : Win → Win) : (s.updWin n f).heldMb = s.heldMb := rfl
@[simp] theorem State.updWin_heldOff (s : State) (n : Nat) (f : Win → Win) : (s.updWin n f).heldOff = s.heldOff := rfl
@[simp] theorem State.updWin_heldAns (s : State) (n : Nat) (f : Win → Win) : (s.updWin n f).heldAns = s.heldAns := rfl
@[simp] theorem State.updWin_heldLost (s : State) (n : Nat) (f : Win → Win) : (s.updWin n f).heldLost = s.heldLost := rfl
@[simp] theorem State.updWin_gov (s : State) (n : Nat) (f : Win → Win) : (s.updWin n f).gov = s.gov := rfl
@[simp] theorem State.updWin_counters (s : State) (n : Nat) (f : Win → Win) : (s.updWin n f).counters = s.counters := rfl

/-! ### updLink -/

@[simp] theorem State.updLink_link_self (s : State) (n : Nat) (f : Link → Link) : (s.updLink n f).link n = f (s.link n) := by simp [State.updLink, State.link]
theorem State.updLink_link_ne (s : State) {n m : Nat} (f : Link → Link) (h : m ≠ n) : (s.updLink n f).link m = s.link m := by simp [State.updLink, State.link, Tab.getD_upd_ne _ _ _ _ h]
@[simp] theorem State.updLink_pending (s : State) (n : Nat) (f : Link → Link) : (s.updLink n f).pending = s.pending := rfl
@[simp] theorem State.updLink_sent (s : State) (n : Nat) (f : Link → Link) : (s.updLink n f).sent = s.sent := rfl
@[simp] theorem State.updLink_freeCtr (s : State) (n : Nat) (f : Link → Link) : (s.updLink n f).freeCtr = s.freeCtr := rfl
@[simp] theorem State.updLink_ticks (s : State) (n : Nat) (f : Link → Link) : (s.updLink n f).ticks = s.ticks := rfl
@[simp] theorem State.updLink_castOnFuse (s : State) (n : Nat) (f : Link → Link) : (s.updLink n f).castOnFuse = s.castOnFuse := rfl
@[simp] theorem State.updLink_sec (s : State) (n : Nat) (f : Link → Link) : (s.updLink n f).sec = s.sec := rfl
@[simp] theorem State.updLink_fleet (s : State) (n : Nat) (f : Link → Link) : (s.updLink n f).fleet = s.fleet := rfl
@[simp] theorem State.updLink_castOn (s : State) (n : Nat) (f : Link → Link) : (s.updLink n f).castOn = s.castOn := rfl
@[simp] theorem State.updLink_fnd (s : State) (n : Nat) (f : Link → Link) : (s.updLink n f).fnd = s.fnd := rfl
@[simp] theorem State.updLink_rumel (s : State) (n : Nat) (f : Link → Link) : (s.updLink n f).rumel = s.rumel := rfl
@[simp] theorem State.updLink_hbmGib (s : State) (n : Nat) (f : Link → Link) : (s.updLink n f).hbmGib = s.hbmGib := rfl
@[simp] theorem State.updLink_hooksUp (s : State) (n : Nat) (f : Link → Link) : (s.updLink n f).hooksUp = s.hooksUp := rfl
@[simp] theorem State.updLink_slices (s : State) (n : Nat) (f : Link → Link) : (s.updLink n f).slices = s.slices := rfl
@[simp] theorem State.updLink_mailboxes (s : State) (n : Nat) (f : Link → Link) : (s.updLink n f).mailboxes = s.mailboxes := rfl
@[simp] theorem State.updLink_ctxs (s : State) (n : Nat) (f : Link → Link) : (s.updLink n f).ctxs = s.ctxs := rfl
@[simp] theorem State.updLink_mos (s : State) (n : Nat) (f : Link → Link) : (s.updLink n f).mos = s.mos := rfl
@[simp] theorem State.updLink_moNext (s : State) (n : Nat) (f : Link → Link) : (s.updLink n f).moNext = s.moNext := rfl
@[simp] theorem State.updLink_moFree (s : State) (n : Nat) (f : Link → Link) : (s.updLink n f).moFree = s.moFree := rfl
@[simp] theorem State.updLink_wins (s : State) (n : Nat) (f : Link → Link) : (s.updLink n f).wins = s.wins := rfl
@[simp] theorem State.updLink_winNext (s : State) (n : Nat) (f : Link → Link) : (s.updLink n f).winNext = s.winNext := rfl
@[simp] theorem State.updLink_winFree (s : State) (n : Nat) (f : Link → Link) : (s.updLink n f).winFree = s.winFree := rfl
@[simp] theorem State.updLink_markers (s : State) (n : Nat) (f : Link → Link) : (s.updLink n f).markers = s.markers := rfl
@[simp] theorem State.updLink_cookies (s : State) (n : Nat) (f : Link → Link) : (s.updLink n f).cookies = s.cookies := rfl
@[simp] theorem State.updLink_bindJobs (s : State) (n : Nat) (f : Link → Link) : (s.updLink n f).bindJobs = s.bindJobs := rfl
@[simp] theorem State.updLink_cm (s : State) (n : Nat) (f : Link → Link) : (s.updLink n f).cm = s.cm := rfl
@[simp] theorem State.updLink_sqs (s : State) (n : Nat) (f : Link → Link) : (s.updLink n f).sqs = s.sqs := rfl
@[simp] theorem State.updLink_cqs (s : State) (n : Nat) (f : Link → Link) : (s.updLink n f).cqs = s.cqs := rfl
@[simp] theorem State.updLink_ops (s : State) (n : Nat) (f : Link → Link) : (s.updLink n f).ops = s.ops := rfl
@[simp] theorem State.updLink_xlt (s : State) (n : Nat) (f : Link → Link) : (s.updLink n f).xlt = s.xlt := rfl
@[simp] theorem State.updLink_xuses (s : State) (n : Nat) (f : Link → Link) : (s.updLink n f).xuses = s.xuses := rfl
@[simp] theorem State.updLink_qps (s : State) (n : Nat) (f : Link → Link) : (s.updLink n f).qps = s.qps := rfl
@[simp] theorem State.updLink_trackers (s : State) (n : Nat) (f : Link → Link) : (s.updLink n f).trackers = s.trackers := rfl
@[simp] theorem State.updLink_grants (s : State) (n : Nat) (f : Link → Link) : (s.updLink n f).grants = s.grants := rfl
@[simp] theorem State.updLink_ertPort (s : State) (n : Nat) (f : Link → Link) : (s.updLink n f).ertPort = s.ertPort := rfl
@[simp] theorem State.updLink_tcWeight (s : State) (n : Nat) (f : Link → Link) : (s.updLink n f).tcWeight = s.tcWeight := rfl
@[simp] theorem State.updLink_tcDscp (s : State) (n : Nat) (f : Link → Link) : (s.updLink n f).tcDscp = s.tcDscp := rfl
@[simp] theorem State.updLink_tension (s : State) (n : Nat) (f : Link → Link) : (s.updLink n f).tension = s.tension := rfl
@[simp] theorem State.updLink_trkRsv (s : State) (n : Nat) (f : Link → Link) : (s.updLink n f).trkRsv = s.trkRsv := rfl
@[simp] theorem State.updLink_pfcEn (s : State) (n : Nat) (f : Link → Link) : (s.updLink n f).pfcEn = s.pfcEn := rfl
@[simp] theorem State.updLink_pfcPrio (s : State) (n : Nat) (f : Link → Link) : (s.updLink n f).pfcPrio = s.pfcPrio := rfl
@[simp] theorem State.updLink_xoff (s : State) (n : Nat) (f : Link → Link) : (s.updLink n f).xoff = s.xoff := rfl
@[simp] theorem State.updLink_xon (s : State) (n : Nat) (f : Link → Link) : (s.updLink n f).xon = s.xon := rfl
@[simp] theorem State.updLink_skeinRecs (s : State) (n : Nat) (f : Link → Link) : (s.updLink n f).skeinRecs = s.skeinRecs := rfl
@[simp] theorem State.updLink_recWrites (s : State) (n : Nat) (f : Link → Link) : (s.updLink n f).recWrites = s.recWrites := rfl
@[simp] theorem State.updLink_groups (s : State) (n : Nat) (f : Link → Link) : (s.updLink n f).groups = s.groups := rfl
@[simp] theorem State.updLink_cwc (s : State) (n : Nat) (f : Link → Link) : (s.updLink n f).cwc = s.cwc := rfl
@[simp] theorem State.updLink_hdm (s : State) (n : Nat) (f : Link → Link) : (s.updLink n f).hdm = s.hdm := rfl
@[simp] theorem State.updLink_biWait (s : State) (n : Nat) (f : Link → Link) : (s.updLink n f).biWait = s.biWait := rfl
@[simp] theorem State.updLink_lruClock (s : State) (n : Nat) (f : Link → Link) : (s.updLink n f).lruClock = s.lruClock := rfl
@[simp] theorem State.updLink_bar2Slide (s : State) (n : Nat) (f : Link → Link) : (s.updLink n f).bar2Slide = s.bar2Slide := rfl
@[simp] theorem State.updLink_ridFilter (s : State) (n : Nat) (f : Link → Link) : (s.updLink n f).ridFilter = s.ridFilter := rfl
@[simp] theorem State.updLink_directWait (s : State) (n : Nat) (f : Link → Link) : (s.updLink n f).directWait = s.directWait := rfl
@[simp] theorem State.updLink_directLds (s : State) (n : Nat) (f : Link → Link) : (s.updLink n f).directLds = s.directLds := rfl
@[simp] theorem State.updLink_mods (s : State) (n : Nat) (f : Link → Link) : (s.updLink n f).mods = s.mods := rfl
@[simp] theorem State.updLink_dies (s : State) (n : Nat) (f : Link → Link) : (s.updLink n f).dies = s.dies := rfl
@[simp] theorem State.updLink_dlRoute (s : State) (n : Nat) (f : Link → Link) : (s.updLink n f).dlRoute = s.dlRoute := rfl
@[simp] theorem State.updLink_portCfg (s : State) (n : Nat) (f : Link → Link) : (s.updLink n f).portCfg = s.portCfg := rfl
@[simp] theorem State.updLink_nextHop (s : State) (n : Nat) (f : Link → Link) : (s.updLink n f).nextHop = s.nextHop := rfl
@[simp] theorem State.updLink_lports (s : State) (n : Nat) (f : Link → Link) : (s.updLink n f).lports = s.lports := rfl
@[simp] theorem State.updLink_sc (s : State) (n : Nat) (f : Link → Link) : (s.updLink n f).sc = s.sc := rfl
@[simp] theorem State.updLink_fc (s : State) (n : Nat) (f : Link → Link) : (s.updLink n f).fc = s.fc := rfl
@[simp] theorem State.updLink_heldWrites (s : State) (n : Nat) (f : Link → Link) : (s.updLink n f).heldWrites = s.heldWrites := rfl
@[simp] theorem State.updLink_heldSq (s : State) (n : Nat) (f : Link → Link) : (s.updLink n f).heldSq = s.heldSq := rfl
@[simp] theorem State.updLink_heldCq (s : State) (n : Nat) (f : Link → Link) : (s.updLink n f).heldCq = s.heldCq := rfl
@[simp] theorem State.updLink_heldAck (s : State) (n : Nat) (f : Link → Link) : (s.updLink n f).heldAck = s.heldAck := rfl
@[simp] theorem State.updLink_heldMb (s : State) (n : Nat) (f : Link → Link) : (s.updLink n f).heldMb = s.heldMb := rfl
@[simp] theorem State.updLink_heldOff (s : State) (n : Nat) (f : Link → Link) : (s.updLink n f).heldOff = s.heldOff := rfl
@[simp] theorem State.updLink_heldAns (s : State) (n : Nat) (f : Link → Link) : (s.updLink n f).heldAns = s.heldAns := rfl
@[simp] theorem State.updLink_heldLost (s : State) (n : Nat) (f : Link → Link) : (s.updLink n f).heldLost = s.heldLost := rfl
@[simp] theorem State.updLink_gov (s : State) (n : Nat) (f : Link → Link) : (s.updLink n f).gov = s.gov := rfl
@[simp] theorem State.updLink_counters (s : State) (n : Nat) (f : Link → Link) : (s.updLink n f).counters = s.counters := rfl

/-! ### updMod -/

@[simp] theorem State.updMod_mod_self (s : State) (n : Nat) (f : Module → Module) : (s.updMod n f).mod n = f (s.mod n) := by simp [State.updMod, State.mod]
theorem State.updMod_mod_ne (s : State) {n m : Nat} (f : Module → Module) (h : m ≠ n) : (s.updMod n f).mod m = s.mod m := by simp [State.updMod, State.mod, Tab.getD_upd_ne _ _ _ _ h]
@[simp] theorem State.updMod_pending (s : State) (n : Nat) (f : Module → Module) : (s.updMod n f).pending = s.pending := rfl
@[simp] theorem State.updMod_sent (s : State) (n : Nat) (f : Module → Module) : (s.updMod n f).sent = s.sent := rfl
@[simp] theorem State.updMod_freeCtr (s : State) (n : Nat) (f : Module → Module) : (s.updMod n f).freeCtr = s.freeCtr := rfl
@[simp] theorem State.updMod_ticks (s : State) (n : Nat) (f : Module → Module) : (s.updMod n f).ticks = s.ticks := rfl
@[simp] theorem State.updMod_castOnFuse (s : State) (n : Nat) (f : Module → Module) : (s.updMod n f).castOnFuse = s.castOnFuse := rfl
@[simp] theorem State.updMod_sec (s : State) (n : Nat) (f : Module → Module) : (s.updMod n f).sec = s.sec := rfl
@[simp] theorem State.updMod_fleet (s : State) (n : Nat) (f : Module → Module) : (s.updMod n f).fleet = s.fleet := rfl
@[simp] theorem State.updMod_castOn (s : State) (n : Nat) (f : Module → Module) : (s.updMod n f).castOn = s.castOn := rfl
@[simp] theorem State.updMod_fnd (s : State) (n : Nat) (f : Module → Module) : (s.updMod n f).fnd = s.fnd := rfl
@[simp] theorem State.updMod_rumel (s : State) (n : Nat) (f : Module → Module) : (s.updMod n f).rumel = s.rumel := rfl
@[simp] theorem State.updMod_hbmGib (s : State) (n : Nat) (f : Module → Module) : (s.updMod n f).hbmGib = s.hbmGib := rfl
@[simp] theorem State.updMod_hooksUp (s : State) (n : Nat) (f : Module → Module) : (s.updMod n f).hooksUp = s.hooksUp := rfl
@[simp] theorem State.updMod_slices (s : State) (n : Nat) (f : Module → Module) : (s.updMod n f).slices = s.slices := rfl
@[simp] theorem State.updMod_mailboxes (s : State) (n : Nat) (f : Module → Module) : (s.updMod n f).mailboxes = s.mailboxes := rfl
@[simp] theorem State.updMod_ctxs (s : State) (n : Nat) (f : Module → Module) : (s.updMod n f).ctxs = s.ctxs := rfl
@[simp] theorem State.updMod_mos (s : State) (n : Nat) (f : Module → Module) : (s.updMod n f).mos = s.mos := rfl
@[simp] theorem State.updMod_moNext (s : State) (n : Nat) (f : Module → Module) : (s.updMod n f).moNext = s.moNext := rfl
@[simp] theorem State.updMod_moFree (s : State) (n : Nat) (f : Module → Module) : (s.updMod n f).moFree = s.moFree := rfl
@[simp] theorem State.updMod_wins (s : State) (n : Nat) (f : Module → Module) : (s.updMod n f).wins = s.wins := rfl
@[simp] theorem State.updMod_winNext (s : State) (n : Nat) (f : Module → Module) : (s.updMod n f).winNext = s.winNext := rfl
@[simp] theorem State.updMod_winFree (s : State) (n : Nat) (f : Module → Module) : (s.updMod n f).winFree = s.winFree := rfl
@[simp] theorem State.updMod_markers (s : State) (n : Nat) (f : Module → Module) : (s.updMod n f).markers = s.markers := rfl
@[simp] theorem State.updMod_cookies (s : State) (n : Nat) (f : Module → Module) : (s.updMod n f).cookies = s.cookies := rfl
@[simp] theorem State.updMod_bindJobs (s : State) (n : Nat) (f : Module → Module) : (s.updMod n f).bindJobs = s.bindJobs := rfl
@[simp] theorem State.updMod_cm (s : State) (n : Nat) (f : Module → Module) : (s.updMod n f).cm = s.cm := rfl
@[simp] theorem State.updMod_sqs (s : State) (n : Nat) (f : Module → Module) : (s.updMod n f).sqs = s.sqs := rfl
@[simp] theorem State.updMod_cqs (s : State) (n : Nat) (f : Module → Module) : (s.updMod n f).cqs = s.cqs := rfl
@[simp] theorem State.updMod_ops (s : State) (n : Nat) (f : Module → Module) : (s.updMod n f).ops = s.ops := rfl
@[simp] theorem State.updMod_xlt (s : State) (n : Nat) (f : Module → Module) : (s.updMod n f).xlt = s.xlt := rfl
@[simp] theorem State.updMod_xuses (s : State) (n : Nat) (f : Module → Module) : (s.updMod n f).xuses = s.xuses := rfl
@[simp] theorem State.updMod_qps (s : State) (n : Nat) (f : Module → Module) : (s.updMod n f).qps = s.qps := rfl
@[simp] theorem State.updMod_trackers (s : State) (n : Nat) (f : Module → Module) : (s.updMod n f).trackers = s.trackers := rfl
@[simp] theorem State.updMod_grants (s : State) (n : Nat) (f : Module → Module) : (s.updMod n f).grants = s.grants := rfl
@[simp] theorem State.updMod_ertPort (s : State) (n : Nat) (f : Module → Module) : (s.updMod n f).ertPort = s.ertPort := rfl
@[simp] theorem State.updMod_tcWeight (s : State) (n : Nat) (f : Module → Module) : (s.updMod n f).tcWeight = s.tcWeight := rfl
@[simp] theorem State.updMod_tcDscp (s : State) (n : Nat) (f : Module → Module) : (s.updMod n f).tcDscp = s.tcDscp := rfl
@[simp] theorem State.updMod_tension (s : State) (n : Nat) (f : Module → Module) : (s.updMod n f).tension = s.tension := rfl
@[simp] theorem State.updMod_trkRsv (s : State) (n : Nat) (f : Module → Module) : (s.updMod n f).trkRsv = s.trkRsv := rfl
@[simp] theorem State.updMod_pfcEn (s : State) (n : Nat) (f : Module → Module) : (s.updMod n f).pfcEn = s.pfcEn := rfl
@[simp] theorem State.updMod_pfcPrio (s : State) (n : Nat) (f : Module → Module) : (s.updMod n f).pfcPrio = s.pfcPrio := rfl
@[simp] theorem State.updMod_xoff (s : State) (n : Nat) (f : Module → Module) : (s.updMod n f).xoff = s.xoff := rfl
@[simp] theorem State.updMod_xon (s : State) (n : Nat) (f : Module → Module) : (s.updMod n f).xon = s.xon := rfl
@[simp] theorem State.updMod_skeinRecs (s : State) (n : Nat) (f : Module → Module) : (s.updMod n f).skeinRecs = s.skeinRecs := rfl
@[simp] theorem State.updMod_recWrites (s : State) (n : Nat) (f : Module → Module) : (s.updMod n f).recWrites = s.recWrites := rfl
@[simp] theorem State.updMod_groups (s : State) (n : Nat) (f : Module → Module) : (s.updMod n f).groups = s.groups := rfl
@[simp] theorem State.updMod_links (s : State) (n : Nat) (f : Module → Module) : (s.updMod n f).links = s.links := rfl
@[simp] theorem State.updMod_cwc (s : State) (n : Nat) (f : Module → Module) : (s.updMod n f).cwc = s.cwc := rfl
@[simp] theorem State.updMod_hdm (s : State) (n : Nat) (f : Module → Module) : (s.updMod n f).hdm = s.hdm := rfl
@[simp] theorem State.updMod_biWait (s : State) (n : Nat) (f : Module → Module) : (s.updMod n f).biWait = s.biWait := rfl
@[simp] theorem State.updMod_lruClock (s : State) (n : Nat) (f : Module → Module) : (s.updMod n f).lruClock = s.lruClock := rfl
@[simp] theorem State.updMod_bar2Slide (s : State) (n : Nat) (f : Module → Module) : (s.updMod n f).bar2Slide = s.bar2Slide := rfl
@[simp] theorem State.updMod_ridFilter (s : State) (n : Nat) (f : Module → Module) : (s.updMod n f).ridFilter = s.ridFilter := rfl
@[simp] theorem State.updMod_directWait (s : State) (n : Nat) (f : Module → Module) : (s.updMod n f).directWait = s.directWait := rfl
@[simp] theorem State.updMod_directLds (s : State) (n : Nat) (f : Module → Module) : (s.updMod n f).directLds = s.directLds := rfl
@[simp] theorem State.updMod_dies (s : State) (n : Nat) (f : Module → Module) : (s.updMod n f).dies = s.dies := rfl
@[simp] theorem State.updMod_dlRoute (s : State) (n : Nat) (f : Module → Module) : (s.updMod n f).dlRoute = s.dlRoute := rfl
@[simp] theorem State.updMod_portCfg (s : State) (n : Nat) (f : Module → Module) : (s.updMod n f).portCfg = s.portCfg := rfl
@[simp] theorem State.updMod_nextHop (s : State) (n : Nat) (f : Module → Module) : (s.updMod n f).nextHop = s.nextHop := rfl
@[simp] theorem State.updMod_lports (s : State) (n : Nat) (f : Module → Module) : (s.updMod n f).lports = s.lports := rfl
@[simp] theorem State.updMod_sc (s : State) (n : Nat) (f : Module → Module) : (s.updMod n f).sc = s.sc := rfl
@[simp] theorem State.updMod_fc (s : State) (n : Nat) (f : Module → Module) : (s.updMod n f).fc = s.fc := rfl
@[simp] theorem State.updMod_heldWrites (s : State) (n : Nat) (f : Module → Module) : (s.updMod n f).heldWrites = s.heldWrites := rfl
@[simp] theorem State.updMod_heldSq (s : State) (n : Nat) (f : Module → Module) : (s.updMod n f).heldSq = s.heldSq := rfl
@[simp] theorem State.updMod_heldCq (s : State) (n : Nat) (f : Module → Module) : (s.updMod n f).heldCq = s.heldCq := rfl
@[simp] theorem State.updMod_heldAck (s : State) (n : Nat) (f : Module → Module) : (s.updMod n f).heldAck = s.heldAck := rfl
@[simp] theorem State.updMod_heldMb (s : State) (n : Nat) (f : Module → Module) : (s.updMod n f).heldMb = s.heldMb := rfl
@[simp] theorem State.updMod_heldOff (s : State) (n : Nat) (f : Module → Module) : (s.updMod n f).heldOff = s.heldOff := rfl
@[simp] theorem State.updMod_heldAns (s : State) (n : Nat) (f : Module → Module) : (s.updMod n f).heldAns = s.heldAns := rfl
@[simp] theorem State.updMod_heldLost (s : State) (n : Nat) (f : Module → Module) : (s.updMod n f).heldLost = s.heldLost := rfl
@[simp] theorem State.updMod_gov (s : State) (n : Nat) (f : Module → Module) : (s.updMod n f).gov = s.gov := rfl
@[simp] theorem State.updMod_counters (s : State) (n : Nat) (f : Module → Module) : (s.updMod n f).counters = s.counters := rfl

/-! ### updDie -/

@[simp] theorem State.updDie_die_self (s : State) (n : Nat) (f : DiePort → DiePort) : (s.updDie n f).die n = f (s.die n) := by simp [State.updDie, State.die]
theorem State.updDie_die_ne (s : State) {n m : Nat} (f : DiePort → DiePort) (h : m ≠ n) : (s.updDie n f).die m = s.die m := by simp [State.updDie, State.die, Tab.getD_upd_ne _ _ _ _ h]
@[simp] theorem State.updDie_pending (s : State) (n : Nat) (f : DiePort → DiePort) : (s.updDie n f).pending = s.pending := rfl
@[simp] theorem State.updDie_sent (s : State) (n : Nat) (f : DiePort → DiePort) : (s.updDie n f).sent = s.sent := rfl
@[simp] theorem State.updDie_freeCtr (s : State) (n : Nat) (f : DiePort → DiePort) : (s.updDie n f).freeCtr = s.freeCtr := rfl
@[simp] theorem State.updDie_ticks (s : State) (n : Nat) (f : DiePort → DiePort) : (s.updDie n f).ticks = s.ticks := rfl
@[simp] theorem State.updDie_castOnFuse (s : State) (n : Nat) (f : DiePort → DiePort) : (s.updDie n f).castOnFuse = s.castOnFuse := rfl
@[simp] theorem State.updDie_sec (s : State) (n : Nat) (f : DiePort → DiePort) : (s.updDie n f).sec = s.sec := rfl
@[simp] theorem State.updDie_fleet (s : State) (n : Nat) (f : DiePort → DiePort) : (s.updDie n f).fleet = s.fleet := rfl
@[simp] theorem State.updDie_castOn (s : State) (n : Nat) (f : DiePort → DiePort) : (s.updDie n f).castOn = s.castOn := rfl
@[simp] theorem State.updDie_fnd (s : State) (n : Nat) (f : DiePort → DiePort) : (s.updDie n f).fnd = s.fnd := rfl
@[simp] theorem State.updDie_rumel (s : State) (n : Nat) (f : DiePort → DiePort) : (s.updDie n f).rumel = s.rumel := rfl
@[simp] theorem State.updDie_hbmGib (s : State) (n : Nat) (f : DiePort → DiePort) : (s.updDie n f).hbmGib = s.hbmGib := rfl
@[simp] theorem State.updDie_hooksUp (s : State) (n : Nat) (f : DiePort → DiePort) : (s.updDie n f).hooksUp = s.hooksUp := rfl
@[simp] theorem State.updDie_slices (s : State) (n : Nat) (f : DiePort → DiePort) : (s.updDie n f).slices = s.slices := rfl
@[simp] theorem State.updDie_mailboxes (s : State) (n : Nat) (f : DiePort → DiePort) : (s.updDie n f).mailboxes = s.mailboxes := rfl
@[simp] theorem State.updDie_ctxs (s : State) (n : Nat) (f : DiePort → DiePort) : (s.updDie n f).ctxs = s.ctxs := rfl
@[simp] theorem State.updDie_mos (s : State) (n : Nat) (f : DiePort → DiePort) : (s.updDie n f).mos = s.mos := rfl
@[simp] theorem State.updDie_moNext (s : State) (n : Nat) (f : DiePort → DiePort) : (s.updDie n f).moNext = s.moNext := rfl
@[simp] theorem State.updDie_moFree (s : State) (n : Nat) (f : DiePort → DiePort) : (s.updDie n f).moFree = s.moFree := rfl
@[simp] theorem State.updDie_wins (s : State) (n : Nat) (f : DiePort → DiePort) : (s.updDie n f).wins = s.wins := rfl
@[simp] theorem State.updDie_winNext (s : State) (n : Nat) (f : DiePort → DiePort) : (s.updDie n f).winNext = s.winNext := rfl
@[simp] theorem State.updDie_winFree (s : State) (n : Nat) (f : DiePort → DiePort) : (s.updDie n f).winFree = s.winFree := rfl
@[simp] theorem State.updDie_markers (s : State) (n : Nat) (f : DiePort → DiePort) : (s.updDie n f).markers = s.markers := rfl
@[simp] theorem State.updDie_cookies (s : State) (n : Nat) (f : DiePort → DiePort) : (s.updDie n f).cookies = s.cookies := rfl
@[simp] theorem State.updDie_bindJobs (s : State) (n : Nat) (f : DiePort → DiePort) : (s.updDie n f).bindJobs = s.bindJobs := rfl
@[simp] theorem State.updDie_cm (s : State) (n : Nat) (f : DiePort → DiePort) : (s.updDie n f).cm = s.cm := rfl
@[simp] theorem State.updDie_sqs (s : State) (n : Nat) (f : DiePort → DiePort) : (s.updDie n f).sqs = s.sqs := rfl
@[simp] theorem State.updDie_cqs (s : State) (n : Nat) (f : DiePort → DiePort) : (s.updDie n f).cqs = s.cqs := rfl
@[simp] theorem State.updDie_ops (s : State) (n : Nat) (f : DiePort → DiePort) : (s.updDie n f).ops = s.ops := rfl
@[simp] theorem State.updDie_xlt (s : State) (n : Nat) (f : DiePort → DiePort) : (s.updDie n f).xlt = s.xlt := rfl
@[simp] theorem State.updDie_xuses (s : State) (n : Nat) (f : DiePort → DiePort) : (s.updDie n f).xuses = s.xuses := rfl
@[simp] theorem State.updDie_qps (s : State) (n : Nat) (f : DiePort → DiePort) : (s.updDie n f).qps = s.qps := rfl
@[simp] theorem State.updDie_trackers (s : State) (n : Nat) (f : DiePort → DiePort) : (s.updDie n f).trackers = s.trackers := rfl
@[simp] theorem State.updDie_grants (s : State) (n : Nat) (f : DiePort → DiePort) : (s.updDie n f).grants = s.grants := rfl
@[simp] theorem State.updDie_ertPort (s : State) (n : Nat) (f : DiePort → DiePort) : (s.updDie n f).ertPort = s.ertPort := rfl
@[simp] theorem State.updDie_tcWeight (s : State) (n : Nat) (f : DiePort → DiePort) : (s.updDie n f).tcWeight = s.tcWeight := rfl
@[simp] theorem State.updDie_tcDscp (s : State) (n : Nat) (f : DiePort → DiePort) : (s.updDie n f).tcDscp = s.tcDscp := rfl
@[simp] theorem State.updDie_tension (s : State) (n : Nat) (f : DiePort → DiePort) : (s.updDie n f).tension = s.tension := rfl
@[simp] theorem State.updDie_trkRsv (s : State) (n : Nat) (f : DiePort → DiePort) : (s.updDie n f).trkRsv = s.trkRsv := rfl
@[simp] theorem State.updDie_pfcEn (s : State) (n : Nat) (f : DiePort → DiePort) : (s.updDie n f).pfcEn = s.pfcEn := rfl
@[simp] theorem State.updDie_pfcPrio (s : State) (n : Nat) (f : DiePort → DiePort) : (s.updDie n f).pfcPrio = s.pfcPrio := rfl
@[simp] theorem State.updDie_xoff (s : State) (n : Nat) (f : DiePort → DiePort) : (s.updDie n f).xoff = s.xoff := rfl
@[simp] theorem State.updDie_xon (s : State) (n : Nat) (f : DiePort → DiePort) : (s.updDie n f).xon = s.xon := rfl
@[simp] theorem State.updDie_skeinRecs (s : State) (n : Nat) (f : DiePort → DiePort) : (s.updDie n f).skeinRecs = s.skeinRecs := rfl
@[simp] theorem State.updDie_recWrites (s : State) (n : Nat) (f : DiePort → DiePort) : (s.updDie n f).recWrites = s.recWrites := rfl
@[simp] theorem State.updDie_groups (s : State) (n : Nat) (f : DiePort → DiePort) : (s.updDie n f).groups = s.groups := rfl
@[simp] theorem State.updDie_links (s : State) (n : Nat) (f : DiePort → DiePort) : (s.updDie n f).links = s.links := rfl
@[simp] theorem State.updDie_cwc (s : State) (n : Nat) (f : DiePort → DiePort) : (s.updDie n f).cwc = s.cwc := rfl
@[simp] theorem State.updDie_hdm (s : State) (n : Nat) (f : DiePort → DiePort) : (s.updDie n f).hdm = s.hdm := rfl
@[simp] theorem State.updDie_biWait (s : State) (n : Nat) (f : DiePort → DiePort) : (s.updDie n f).biWait = s.biWait := rfl
@[simp] theorem State.updDie_lruClock (s : State) (n : Nat) (f : DiePort → DiePort) : (s.updDie n f).lruClock = s.lruClock := rfl
@[simp] theorem State.updDie_bar2Slide (s : State) (n : Nat) (f : DiePort → DiePort) : (s.updDie n f).bar2Slide = s.bar2Slide := rfl
@[simp] theorem State.updDie_ridFilter (s : State) (n : Nat) (f : DiePort → DiePort) : (s.updDie n f).ridFilter = s.ridFilter := rfl
@[simp] theorem State.updDie_directWait (s : State) (n : Nat) (f : DiePort → DiePort) : (s.updDie n f).directWait = s.directWait := rfl
@[simp] theorem State.updDie_directLds (s : State) (n : Nat) (f : DiePort → DiePort) : (s.updDie n f).directLds = s.directLds := rfl
@[simp] theorem State.updDie_mods (s : State) (n : Nat) (f : DiePort → DiePort) : (s.updDie n f).mods = s.mods := rfl
@[simp] theorem State.updDie_dlRoute (s : State) (n : Nat) (f : DiePort → DiePort) : (s.updDie n f).dlRoute = s.dlRoute := rfl
@[simp] theorem State.updDie_portCfg (s : State) (n : Nat) (f : DiePort → DiePort) : (s.updDie n f).portCfg = s.portCfg := rfl
@[simp] theorem State.updDie_nextHop (s : State) (n : Nat) (f : DiePort → DiePort) : (s.updDie n f).nextHop = s.nextHop := rfl
@[simp] theorem State.updDie_lports (s : State) (n : Nat) (f : DiePort → DiePort) : (s.updDie n f).lports = s.lports := rfl
@[simp] theorem State.updDie_sc (s : State) (n : Nat) (f : DiePort → DiePort) : (s.updDie n f).sc = s.sc := rfl
@[simp] theorem State.updDie_fc (s : State) (n : Nat) (f : DiePort → DiePort) : (s.updDie n f).fc = s.fc := rfl
@[simp] theorem State.updDie_heldWrites (s : State) (n : Nat) (f : DiePort → DiePort) : (s.updDie n f).heldWrites = s.heldWrites := rfl
@[simp] theorem State.updDie_heldSq (s : State) (n : Nat) (f : DiePort → DiePort) : (s.updDie n f).heldSq = s.heldSq := rfl
@[simp] theorem State.updDie_heldCq (s : State) (n : Nat) (f : DiePort → DiePort) : (s.updDie n f).heldCq = s.heldCq := rfl
@[simp] theorem State.updDie_heldAck (s : State) (n : Nat) (f : DiePort → DiePort) : (s.updDie n f).heldAck = s.heldAck := rfl
@[simp] theorem State.updDie_heldMb (s : State) (n : Nat) (f : DiePort → DiePort) : (s.updDie n f).heldMb = s.heldMb := rfl
@[simp] theorem State.updDie_heldOff (s : State) (n : Nat) (f : DiePort → DiePort) : (s.updDie n f).heldOff = s.heldOff := rfl
@[simp] theorem State.updDie_heldAns (s : State) (n : Nat) (f : DiePort → DiePort) : (s.updDie n f).heldAns = s.heldAns := rfl
@[simp] theorem State.updDie_heldLost (s : State) (n : Nat) (f : DiePort → DiePort) : (s.updDie n f).heldLost = s.heldLost := rfl
@[simp] theorem State.updDie_gov (s : State) (n : Nat) (f : DiePort → DiePort) : (s.updDie n f).gov = s.gov := rfl
@[simp] theorem State.updDie_counters (s : State) (n : Nat) (f : DiePort → DiePort) : (s.updDie n f).counters = s.counters := rfl

/-! ### updLport -/

@[simp] theorem State.updLport_lport_self (s : State) (n : Nat) (f : LPort → LPort) : (s.updLport n f).lport n = f (s.lport n) := by simp [State.updLport, State.lport]
theorem State.updLport_lport_ne (s : State) {n m : Nat} (f : LPort → LPort) (h : m ≠ n) : (s.updLport n f).lport m = s.lport m := by simp [State.updLport, State.lport, Tab.getD_upd_ne _ _ _ _ h]
@[simp] theorem State.updLport_pending (s : State) (n : Nat) (f : LPort → LPort) : (s.updLport n f).pending = s.pending := rfl
@[simp] theorem State.updLport_sent (s : State) (n : Nat) (f : LPort → LPort) : (s.updLport n f).sent = s.sent := rfl
@[simp] theorem State.updLport_freeCtr (s : State) (n : Nat) (f : LPort → LPort) : (s.updLport n f).freeCtr = s.freeCtr := rfl
@[simp] theorem State.updLport_ticks (s : State) (n : Nat) (f : LPort → LPort) : (s.updLport n f).ticks = s.ticks := rfl
@[simp] theorem State.updLport_castOnFuse (s : State) (n : Nat) (f : LPort → LPort) : (s.updLport n f).castOnFuse = s.castOnFuse := rfl
@[simp] theorem State.updLport_sec (s : State) (n : Nat) (f : LPort → LPort) : (s.updLport n f).sec = s.sec := rfl
@[simp] theorem State.updLport_fleet (s : State) (n : Nat) (f : LPort → LPort) : (s.updLport n f).fleet = s.fleet := rfl
@[simp] theorem State.updLport_castOn (s : State) (n : Nat) (f : LPort → LPort) : (s.updLport n f).castOn = s.castOn := rfl
@[simp] theorem State.updLport_fnd (s : State) (n : Nat) (f : LPort → LPort) : (s.updLport n f).fnd = s.fnd := rfl
@[simp] theorem State.updLport_rumel (s : State) (n : Nat) (f : LPort → LPort) : (s.updLport n f).rumel = s.rumel := rfl
@[simp] theorem State.updLport_hbmGib (s : State) (n : Nat) (f : LPort → LPort) : (s.updLport n f).hbmGib = s.hbmGib := rfl
@[simp] theorem State.updLport_hooksUp (s : State) (n : Nat) (f : LPort → LPort) : (s.updLport n f).hooksUp = s.hooksUp := rfl
@[simp] theorem State.updLport_slices (s : State) (n : Nat) (f : LPort → LPort) : (s.updLport n f).slices = s.slices := rfl
@[simp] theorem State.updLport_mailboxes (s : State) (n : Nat) (f : LPort → LPort) : (s.updLport n f).mailboxes = s.mailboxes := rfl
@[simp] theorem State.updLport_ctxs (s : State) (n : Nat) (f : LPort → LPort) : (s.updLport n f).ctxs = s.ctxs := rfl
@[simp] theorem State.updLport_mos (s : State) (n : Nat) (f : LPort → LPort) : (s.updLport n f).mos = s.mos := rfl
@[simp] theorem State.updLport_moNext (s : State) (n : Nat) (f : LPort → LPort) : (s.updLport n f).moNext = s.moNext := rfl
@[simp] theorem State.updLport_moFree (s : State) (n : Nat) (f : LPort → LPort) : (s.updLport n f).moFree = s.moFree := rfl
@[simp] theorem State.updLport_wins (s : State) (n : Nat) (f : LPort → LPort) : (s.updLport n f).wins = s.wins := rfl
@[simp] theorem State.updLport_winNext (s : State) (n : Nat) (f : LPort → LPort) : (s.updLport n f).winNext = s.winNext := rfl
@[simp] theorem State.updLport_winFree (s : State) (n : Nat) (f : LPort → LPort) : (s.updLport n f).winFree = s.winFree := rfl
@[simp] theorem State.updLport_markers (s : State) (n : Nat) (f : LPort → LPort) : (s.updLport n f).markers = s.markers := rfl
@[simp] theorem State.updLport_cookies (s : State) (n : Nat) (f : LPort → LPort) : (s.updLport n f).cookies = s.cookies := rfl
@[simp] theorem State.updLport_bindJobs (s : State) (n : Nat) (f : LPort → LPort) : (s.updLport n f).bindJobs = s.bindJobs := rfl
@[simp] theorem State.updLport_cm (s : State) (n : Nat) (f : LPort → LPort) : (s.updLport n f).cm = s.cm := rfl
@[simp] theorem State.updLport_sqs (s : State) (n : Nat) (f : LPort → LPort) : (s.updLport n f).sqs = s.sqs := rfl
@[simp] theorem State.updLport_cqs (s : State) (n : Nat) (f : LPort → LPort) : (s.updLport n f).cqs = s.cqs := rfl
@[simp] theorem State.updLport_ops (s : State) (n : Nat) (f : LPort → LPort) : (s.updLport n f).ops = s.ops := rfl
@[simp] theorem State.updLport_xlt (s : State) (n : Nat) (f : LPort → LPort) : (s.updLport n f).xlt = s.xlt := rfl
@[simp] theorem State.updLport_xuses (s : State) (n : Nat) (f : LPort → LPort) : (s.updLport n f).xuses = s.xuses := rfl
@[simp] theorem State.updLport_qps (s : State) (n : Nat) (f : LPort → LPort) : (s.updLport n f).qps = s.qps := rfl
@[simp] theorem State.updLport_trackers (s : State) (n : Nat) (f : LPort → LPort) : (s.updLport n f).trackers = s.trackers := rfl
@[simp] theorem State.updLport_grants (s : State) (n : Nat) (f : LPort → LPort) : (s.updLport n f).grants = s.grants := rfl
@[simp] theorem State.updLport_ertPort (s : State) (n : Nat) (f : LPort → LPort) : (s.updLport n f).ertPort = s.ertPort := rfl
@[simp] theorem State.updLport_tcWeight (s : State) (n : Nat) (f : LPort → LPort) : (s.updLport n f).tcWeight = s.tcWeight := rfl
@[simp] theorem State.updLport_tcDscp (s : State) (n : Nat) (f : LPort → LPort) : (s.updLport n f).tcDscp = s.tcDscp := rfl
@[simp] theorem State.updLport_tension (s : State) (n : Nat) (f : LPort → LPort) : (s.updLport n f).tension = s.tension := rfl
@[simp] theorem State.updLport_trkRsv (s : State) (n : Nat) (f : LPort → LPort) : (s.updLport n f).trkRsv = s.trkRsv := rfl
@[simp] theorem State.updLport_pfcEn (s : State) (n : Nat) (f : LPort → LPort) : (s.updLport n f).pfcEn = s.pfcEn := rfl
@[simp] theorem State.updLport_pfcPrio (s : State) (n : Nat) (f : LPort → LPort) : (s.updLport n f).pfcPrio = s.pfcPrio := rfl
@[simp] theorem State.updLport_xoff (s : State) (n : Nat) (f : LPort → LPort) : (s.updLport n f).xoff = s.xoff := rfl
@[simp] theorem State.updLport_xon (s : State) (n : Nat) (f : LPort → LPort) : (s.updLport n f).xon = s.xon := rfl
@[simp] theorem State.updLport_skeinRecs (s : State) (n : Nat) (f : LPort → LPort) : (s.updLport n f).skeinRecs = s.skeinRecs := rfl
@[simp] theorem State.updLport_recWrites (s : State) (n : Nat) (f : LPort → LPort) : (s.updLport n f).recWrites = s.recWrites := rfl
@[simp] theorem State.updLport_groups (s : State) (n : Nat) (f : LPort → LPort) : (s.updLport n f).groups = s.groups := rfl
@[simp] theorem State.updLport_links (s : State) (n : Nat) (f : LPort → LPort) : (s.updLport n f).links = s.links := rfl
@[simp] theorem State.updLport_cwc (s : State) (n : Nat) (f : LPort → LPort) : (s.updLport n f).cwc = s.cwc := rfl
@[simp] theorem State.updLport_hdm (s : State) (n : Nat) (f : LPort → LPort) : (s.updLport n f).hdm = s.hdm := rfl
@[simp] theorem State.updLport_biWait (s : State) (n : Nat) (f : LPort → LPort) : (s.updLport n f).biWait = s.biWait := rfl
@[simp] theorem State.updLport_lruClock (s : State) (n : Nat) (f : LPort → LPort) : (s.updLport n f).lruClock = s.lruClock := rfl
@[simp] theorem State.updLport_bar2Slide (s : State) (n : Nat) (f : LPort → LPort) : (s.updLport n f).bar2Slide = s.bar2Slide := rfl
@[simp] theorem State.updLport_ridFilter (s : State) (n : Nat) (f : LPort → LPort) : (s.updLport n f).ridFilter = s.ridFilter := rfl
@[simp] theorem State.updLport_directWait (s : State) (n : Nat) (f : LPort → LPort) : (s.updLport n f).directWait = s.directWait := rfl
@[simp] theorem State.updLport_directLds (s : State) (n : Nat) (f : LPort → LPort) : (s.updLport n f).directLds = s.directLds := rfl
@[simp] theorem State.updLport_mods (s : State) (n : Nat) (f : LPort → LPort) : (s.updLport n f).mods = s.mods := rfl
@[simp] theorem State.updLport_dies (s : State) (n : Nat) (f : LPort → LPort) : (s.updLport n f).dies = s.dies := rfl
@[simp] theorem State.updLport_dlRoute (s : State) (n : Nat) (f : LPort → LPort) : (s.updLport n f).dlRoute = s.dlRoute := rfl
@[simp] theorem State.updLport_portCfg (s : State) (n : Nat) (f : LPort → LPort) : (s.updLport n f).portCfg = s.portCfg := rfl
@[simp] theorem State.updLport_nextHop (s : State) (n : Nat) (f : LPort → LPort) : (s.updLport n f).nextHop = s.nextHop := rfl
@[simp] theorem State.updLport_sc (s : State) (n : Nat) (f : LPort → LPort) : (s.updLport n f).sc = s.sc := rfl
@[simp] theorem State.updLport_fc (s : State) (n : Nat) (f : LPort → LPort) : (s.updLport n f).fc = s.fc := rfl
@[simp] theorem State.updLport_heldWrites (s : State) (n : Nat) (f : LPort → LPort) : (s.updLport n f).heldWrites = s.heldWrites := rfl
@[simp] theorem State.updLport_heldSq (s : State) (n : Nat) (f : LPort → LPort) : (s.updLport n f).heldSq = s.heldSq := rfl
@[simp] theorem State.updLport_heldCq (s : State) (n : Nat) (f : LPort → LPort) : (s.updLport n f).heldCq = s.heldCq := rfl
@[simp] theorem State.updLport_heldAck (s : State) (n : Nat) (f : LPort → LPort) : (s.updLport n f).heldAck = s.heldAck := rfl
@[simp] theorem State.updLport_heldMb (s : State) (n : Nat) (f : LPort → LPort) : (s.updLport n f).heldMb = s.heldMb := rfl
@[simp] theorem State.updLport_heldOff (s : State) (n : Nat) (f : LPort → LPort) : (s.updLport n f).heldOff = s.heldOff := rfl
@[simp] theorem State.updLport_heldAns (s : State) (n : Nat) (f : LPort → LPort) : (s.updLport n f).heldAns = s.heldAns := rfl
@[simp] theorem State.updLport_heldLost (s : State) (n : Nat) (f : LPort → LPort) : (s.updLport n f).heldLost = s.heldLost := rfl
@[simp] theorem State.updLport_gov (s : State) (n : Nat) (f : LPort → LPort) : (s.updLport n f).gov = s.gov := rfl
@[simp] theorem State.updLport_counters (s : State) (n : Nat) (f : LPort → LPort) : (s.updLport n f).counters = s.counters := rfl

/-! ### updGroup -/

@[simp] theorem State.updGroup_group_self (s : State) (n : Nat) (f : Group → Group) : (s.updGroup n f).group n = f (s.group n) := by simp [State.updGroup, State.group]
theorem State.updGroup_group_ne (s : State) {n m : Nat} (f : Group → Group) (h : m ≠ n) : (s.updGroup n f).group m = s.group m := by simp [State.updGroup, State.group, Tab.getD_upd_ne _ _ _ _ h]
@[simp] theorem State.updGroup_pending (s : State) (n : Nat) (f : Group → Group) : (s.updGroup n f).pending = s.pending := rfl
@[simp] theorem State.updGroup_sent (s : State) (n : Nat) (f : Group → Group) : (s.updGroup n f).sent = s.sent := rfl
@[simp] theorem State.updGroup_freeCtr (s : State) (n : Nat) (f : Group → Group) : (s.updGroup n f).freeCtr = s.freeCtr := rfl
@[simp] theorem State.updGroup_ticks (s : State) (n : Nat) (f : Group → Group) : (s.updGroup n f).ticks = s.ticks := rfl
@[simp] theorem State.updGroup_castOnFuse (s : State) (n : Nat) (f : Group → Group) : (s.updGroup n f).castOnFuse = s.castOnFuse := rfl
@[simp] theorem State.updGroup_sec (s : State) (n : Nat) (f : Group → Group) : (s.updGroup n f).sec = s.sec := rfl
@[simp] theorem State.updGroup_fleet (s : State) (n : Nat) (f : Group → Group) : (s.updGroup n f).fleet = s.fleet := rfl
@[simp] theorem State.updGroup_castOn (s : State) (n : Nat) (f : Group → Group) : (s.updGroup n f).castOn = s.castOn := rfl
@[simp] theorem State.updGroup_fnd (s : State) (n : Nat) (f : Group → Group) : (s.updGroup n f).fnd = s.fnd := rfl
@[simp] theorem State.updGroup_rumel (s : State) (n : Nat) (f : Group → Group) : (s.updGroup n f).rumel = s.rumel := rfl
@[simp] theorem State.updGroup_hbmGib (s : State) (n : Nat) (f : Group → Group) : (s.updGroup n f).hbmGib = s.hbmGib := rfl
@[simp] theorem State.updGroup_hooksUp (s : State) (n : Nat) (f : Group → Group) : (s.updGroup n f).hooksUp = s.hooksUp := rfl
@[simp] theorem State.updGroup_slices (s : State) (n : Nat) (f : Group → Group) : (s.updGroup n f).slices = s.slices := rfl
@[simp] theorem State.updGroup_mailboxes (s : State) (n : Nat) (f : Group → Group) : (s.updGroup n f).mailboxes = s.mailboxes := rfl
@[simp] theorem State.updGroup_ctxs (s : State) (n : Nat) (f : Group → Group) : (s.updGroup n f).ctxs = s.ctxs := rfl
@[simp] theorem State.updGroup_mos (s : State) (n : Nat) (f : Group → Group) : (s.updGroup n f).mos = s.mos := rfl
@[simp] theorem State.updGroup_moNext (s : State) (n : Nat) (f : Group → Group) : (s.updGroup n f).moNext = s.moNext := rfl
@[simp] theorem State.updGroup_moFree (s : State) (n : Nat) (f : Group → Group) : (s.updGroup n f).moFree = s.moFree := rfl
@[simp] theorem State.updGroup_wins (s : State) (n : Nat) (f : Group → Group) : (s.updGroup n f).wins = s.wins := rfl
@[simp] theorem State.updGroup_winNext (s : State) (n : Nat) (f : Group → Group) : (s.updGroup n f).winNext = s.winNext := rfl
@[simp] theorem State.updGroup_winFree (s : State) (n : Nat) (f : Group → Group) : (s.updGroup n f).winFree = s.winFree := rfl
@[simp] theorem State.updGroup_markers (s : State) (n : Nat) (f : Group → Group) : (s.updGroup n f).markers = s.markers := rfl
@[simp] theorem State.updGroup_cookies (s : State) (n : Nat) (f : Group → Group) : (s.updGroup n f).cookies = s.cookies := rfl
@[simp] theorem State.updGroup_bindJobs (s : State) (n : Nat) (f : Group → Group) : (s.updGroup n f).bindJobs = s.bindJobs := rfl
@[simp] theorem State.updGroup_cm (s : State) (n : Nat) (f : Group → Group) : (s.updGroup n f).cm = s.cm := rfl
@[simp] theorem State.updGroup_sqs (s : State) (n : Nat) (f : Group → Group) : (s.updGroup n f).sqs = s.sqs := rfl
@[simp] theorem State.updGroup_cqs (s : State) (n : Nat) (f : Group → Group) : (s.updGroup n f).cqs = s.cqs := rfl
@[simp] theorem State.updGroup_ops (s : State) (n : Nat) (f : Group → Group) : (s.updGroup n f).ops = s.ops := rfl
@[simp] theorem State.updGroup_xlt (s : State) (n : Nat) (f : Group → Group) : (s.updGroup n f).xlt = s.xlt := rfl
@[simp] theorem State.updGroup_xuses (s : State) (n : Nat) (f : Group → Group) : (s.updGroup n f).xuses = s.xuses := rfl
@[simp] theorem State.updGroup_qps (s : State) (n : Nat) (f : Group → Group) : (s.updGroup n f).qps = s.qps := rfl
@[simp] theorem State.updGroup_trackers (s : State) (n : Nat) (f : Group → Group) : (s.updGroup n f).trackers = s.trackers := rfl
@[simp] theorem State.updGroup_grants (s : State) (n : Nat) (f : Group → Group) : (s.updGroup n f).grants = s.grants := rfl
@[simp] theorem State.updGroup_ertPort (s : State) (n : Nat) (f : Group → Group) : (s.updGroup n f).ertPort = s.ertPort := rfl
@[simp] theorem State.updGroup_tcWeight (s : State) (n : Nat) (f : Group → Group) : (s.updGroup n f).tcWeight = s.tcWeight := rfl
@[simp] theorem State.updGroup_tcDscp (s : State) (n : Nat) (f : Group → Group) : (s.updGroup n f).tcDscp = s.tcDscp := rfl
@[simp] theorem State.updGroup_tension (s : State) (n : Nat) (f : Group → Group) : (s.updGroup n f).tension = s.tension := rfl
@[simp] theorem State.updGroup_trkRsv (s : State) (n : Nat) (f : Group → Group) : (s.updGroup n f).trkRsv = s.trkRsv := rfl
@[simp] theorem State.updGroup_pfcEn (s : State) (n : Nat) (f : Group → Group) : (s.updGroup n f).pfcEn = s.pfcEn := rfl
@[simp] theorem State.updGroup_pfcPrio (s : State) (n : Nat) (f : Group → Group) : (s.updGroup n f).pfcPrio = s.pfcPrio := rfl
@[simp] theorem State.updGroup_xoff (s : State) (n : Nat) (f : Group → Group) : (s.updGroup n f).xoff = s.xoff := rfl
@[simp] theorem State.updGroup_xon (s : State) (n : Nat) (f : Group → Group) : (s.updGroup n f).xon = s.xon := rfl
@[simp] theorem State.updGroup_skeinRecs (s : State) (n : Nat) (f : Group → Group) : (s.updGroup n f).skeinRecs = s.skeinRecs := rfl
@[simp] theorem State.updGroup_recWrites (s : State) (n : Nat) (f : Group → Group) : (s.updGroup n f).recWrites = s.recWrites := rfl
@[simp] theorem State.updGroup_links (s : State) (n : Nat) (f : Group → Group) : (s.updGroup n f).links = s.links := rfl
@[simp] theorem State.updGroup_cwc (s : State) (n : Nat) (f : Group → Group) : (s.updGroup n f).cwc = s.cwc := rfl
@[simp] theorem State.updGroup_hdm (s : State) (n : Nat) (f : Group → Group) : (s.updGroup n f).hdm = s.hdm := rfl
@[simp] theorem State.updGroup_biWait (s : State) (n : Nat) (f : Group → Group) : (s.updGroup n f).biWait = s.biWait := rfl
@[simp] theorem State.updGroup_lruClock (s : State) (n : Nat) (f : Group → Group) : (s.updGroup n f).lruClock = s.lruClock := rfl
@[simp] theorem State.updGroup_bar2Slide (s : State) (n : Nat) (f : Group → Group) : (s.updGroup n f).bar2Slide = s.bar2Slide := rfl
@[simp] theorem State.updGroup_ridFilter (s : State) (n : Nat) (f : Group → Group) : (s.updGroup n f).ridFilter = s.ridFilter := rfl
@[simp] theorem State.updGroup_directWait (s : State) (n : Nat) (f : Group → Group) : (s.updGroup n f).directWait = s.directWait := rfl
@[simp] theorem State.updGroup_directLds (s : State) (n : Nat) (f : Group → Group) : (s.updGroup n f).directLds = s.directLds := rfl
@[simp] theorem State.updGroup_mods (s : State) (n : Nat) (f : Group → Group) : (s.updGroup n f).mods = s.mods := rfl
@[simp] theorem State.updGroup_dies (s : State) (n : Nat) (f : Group → Group) : (s.updGroup n f).dies = s.dies := rfl
@[simp] theorem State.updGroup_dlRoute (s : State) (n : Nat) (f : Group → Group) : (s.updGroup n f).dlRoute = s.dlRoute := rfl
@[simp] theorem State.updGroup_portCfg (s : State) (n : Nat) (f : Group → Group) : (s.updGroup n f).portCfg = s.portCfg := rfl
@[simp] theorem State.updGroup_nextHop (s : State) (n : Nat) (f : Group → Group) : (s.updGroup n f).nextHop = s.nextHop := rfl
@[simp] theorem State.updGroup_lports (s : State) (n : Nat) (f : Group → Group) : (s.updGroup n f).lports = s.lports := rfl
@[simp] theorem State.updGroup_sc (s : State) (n : Nat) (f : Group → Group) : (s.updGroup n f).sc = s.sc := rfl
@[simp] theorem State.updGroup_fc (s : State) (n : Nat) (f : Group → Group) : (s.updGroup n f).fc = s.fc := rfl
@[simp] theorem State.updGroup_heldWrites (s : State) (n : Nat) (f : Group → Group) : (s.updGroup n f).heldWrites = s.heldWrites := rfl
@[simp] theorem State.updGroup_heldSq (s : State) (n : Nat) (f : Group → Group) : (s.updGroup n f).heldSq = s.heldSq := rfl
@[simp] theorem State.updGroup_heldCq (s : State) (n : Nat) (f : Group → Group) : (s.updGroup n f).heldCq = s.heldCq := rfl
@[simp] theorem State.updGroup_heldAck (s : State) (n : Nat) (f : Group → Group) : (s.updGroup n f).heldAck = s.heldAck := rfl
@[simp] theorem State.updGroup_heldMb (s : State) (n : Nat) (f : Group → Group) : (s.updGroup n f).heldMb = s.heldMb := rfl
@[simp] theorem State.updGroup_heldOff (s : State) (n : Nat) (f : Group → Group) : (s.updGroup n f).heldOff = s.heldOff := rfl
@[simp] theorem State.updGroup_heldAns (s : State) (n : Nat) (f : Group → Group) : (s.updGroup n f).heldAns = s.heldAns := rfl
@[simp] theorem State.updGroup_heldLost (s : State) (n : Nat) (f : Group → Group) : (s.updGroup n f).heldLost = s.heldLost := rfl
@[simp] theorem State.updGroup_gov (s : State) (n : Nat) (f : Group → Group) : (s.updGroup n f).gov = s.gov := rfl
@[simp] theorem State.updGroup_counters (s : State) (n : Nat) (f : Group → Group) : (s.updGroup n f).counters = s.counters := rfl

/-! ### updMbox -/

@[simp] theorem State.updMbox_mbox_self (s : State) (n : Nat) (f : Mailbox → Mailbox) : (s.updMbox n f).mbox n = f (s.mbox n) := by simp [State.updMbox, State.mbox]
theorem State.updMbox_mbox_ne (s : State) {n m : Nat} (f : Mailbox → Mailbox) (h : m ≠ n) : (s.updMbox n f).mbox m = s.mbox m := by simp [State.updMbox, State.mbox, Tab.getD_upd_ne _ _ _ _ h]
@[simp] theorem State.updMbox_pending (s : State) (n : Nat) (f : Mailbox → Mailbox) : (s.updMbox n f).pending = s.pending := rfl
@[simp] theorem State.updMbox_sent (s : State) (n : Nat) (f : Mailbox → Mailbox) : (s.updMbox n f).sent = s.sent := rfl
@[simp] theorem State.updMbox_freeCtr (s : State) (n : Nat) (f : Mailbox → Mailbox) : (s.updMbox n f).freeCtr = s.freeCtr := rfl
@[simp] theorem State.updMbox_ticks (s : State) (n : Nat) (f : Mailbox → Mailbox) : (s.updMbox n f).ticks = s.ticks := rfl
@[simp] theorem State.updMbox_castOnFuse (s : State) (n : Nat) (f : Mailbox → Mailbox) : (s.updMbox n f).castOnFuse = s.castOnFuse := rfl
@[simp] theorem State.updMbox_sec (s : State) (n : Nat) (f : Mailbox → Mailbox) : (s.updMbox n f).sec = s.sec := rfl
@[simp] theorem State.updMbox_fleet (s : State) (n : Nat) (f : Mailbox → Mailbox) : (s.updMbox n f).fleet = s.fleet := rfl
@[simp] theorem State.updMbox_castOn (s : State) (n : Nat) (f : Mailbox → Mailbox) : (s.updMbox n f).castOn = s.castOn := rfl
@[simp] theorem State.updMbox_fnd (s : State) (n : Nat) (f : Mailbox → Mailbox) : (s.updMbox n f).fnd = s.fnd := rfl
@[simp] theorem State.updMbox_rumel (s : State) (n : Nat) (f : Mailbox → Mailbox) : (s.updMbox n f).rumel = s.rumel := rfl
@[simp] theorem State.updMbox_hbmGib (s : State) (n : Nat) (f : Mailbox → Mailbox) : (s.updMbox n f).hbmGib = s.hbmGib := rfl
@[simp] theorem State.updMbox_hooksUp (s : State) (n : Nat) (f : Mailbox → Mailbox) : (s.updMbox n f).hooksUp = s.hooksUp := rfl
@[simp] theorem State.updMbox_slices (s : State) (n : Nat) (f : Mailbox → Mailbox) : (s.updMbox n f).slices = s.slices := rfl
@[simp] theorem State.updMbox_ctxs (s : State) (n : Nat) (f : Mailbox → Mailbox) : (s.updMbox n f).ctxs = s.ctxs := rfl
@[simp] theorem State.updMbox_mos (s : State) (n : Nat) (f : Mailbox → Mailbox) : (s.updMbox n f).mos = s.mos := rfl
@[simp] theorem State.updMbox_moNext (s : State) (n : Nat) (f : Mailbox → Mailbox) : (s.updMbox n f).moNext = s.moNext := rfl
@[simp] theorem State.updMbox_moFree (s : State) (n : Nat) (f : Mailbox → Mailbox) : (s.updMbox n f).moFree = s.moFree := rfl
@[simp] theorem State.updMbox_wins (s : State) (n : Nat) (f : Mailbox → Mailbox) : (s.updMbox n f).wins = s.wins := rfl
@[simp] theorem State.updMbox_winNext (s : State) (n : Nat) (f : Mailbox → Mailbox) : (s.updMbox n f).winNext = s.winNext := rfl
@[simp] theorem State.updMbox_winFree (s : State) (n : Nat) (f : Mailbox → Mailbox) : (s.updMbox n f).winFree = s.winFree := rfl
@[simp] theorem State.updMbox_markers (s : State) (n : Nat) (f : Mailbox → Mailbox) : (s.updMbox n f).markers = s.markers := rfl
@[simp] theorem State.updMbox_cookies (s : State) (n : Nat) (f : Mailbox → Mailbox) : (s.updMbox n f).cookies = s.cookies := rfl
@[simp] theorem State.updMbox_bindJobs (s : State) (n : Nat) (f : Mailbox → Mailbox) : (s.updMbox n f).bindJobs = s.bindJobs := rfl
@[simp] theorem State.updMbox_cm (s : State) (n : Nat) (f : Mailbox → Mailbox) : (s.updMbox n f).cm = s.cm := rfl
@[simp] theorem State.updMbox_sqs (s : State) (n : Nat) (f : Mailbox → Mailbox) : (s.updMbox n f).sqs = s.sqs := rfl
@[simp] theorem State.updMbox_cqs (s : State) (n : Nat) (f : Mailbox → Mailbox) : (s.updMbox n f).cqs = s.cqs := rfl
@[simp] theorem State.updMbox_ops (s : State) (n : Nat) (f : Mailbox → Mailbox) : (s.updMbox n f).ops = s.ops := rfl
@[simp] theorem State.updMbox_xlt (s : State) (n : Nat) (f : Mailbox → Mailbox) : (s.updMbox n f).xlt = s.xlt := rfl
@[simp] theorem State.updMbox_xuses (s : State) (n : Nat) (f : Mailbox → Mailbox) : (s.updMbox n f).xuses = s.xuses := rfl
@[simp] theorem State.updMbox_qps (s : State) (n : Nat) (f : Mailbox → Mailbox) : (s.updMbox n f).qps = s.qps := rfl
@[simp] theorem State.updMbox_trackers (s : State) (n : Nat) (f : Mailbox → Mailbox) : (s.updMbox n f).trackers = s.trackers := rfl
@[simp] theorem State.updMbox_grants (s : State) (n : Nat) (f : Mailbox → Mailbox) : (s.updMbox n f).grants = s.grants := rfl
@[simp] theorem State.updMbox_ertPort (s : State) (n : Nat) (f : Mailbox → Mailbox) : (s.updMbox n f).ertPort = s.ertPort := rfl
@[simp] theorem State.updMbox_tcWeight (s : State) (n : Nat) (f : Mailbox → Mailbox) : (s.updMbox n f).tcWeight = s.tcWeight := rfl
@[simp] theorem State.updMbox_tcDscp (s : State) (n : Nat) (f : Mailbox → Mailbox) : (s.updMbox n f).tcDscp = s.tcDscp := rfl
@[simp] theorem State.updMbox_tension (s : State) (n : Nat) (f : Mailbox → Mailbox) : (s.updMbox n f).tension = s.tension := rfl
@[simp] theorem State.updMbox_trkRsv (s : State) (n : Nat) (f : Mailbox → Mailbox) : (s.updMbox n f).trkRsv = s.trkRsv := rfl
@[simp] theorem State.updMbox_pfcEn (s : State) (n : Nat) (f : Mailbox → Mailbox) : (s.updMbox n f).pfcEn = s.pfcEn := rfl
@[simp] theorem State.updMbox_pfcPrio (s : State) (n : Nat) (f : Mailbox → Mailbox) : (s.updMbox n f).pfcPrio = s.pfcPrio := rfl
@[simp] theorem State.updMbox_xoff (s : State) (n : Nat) (f : Mailbox → Mailbox) : (s.updMbox n f).xoff = s.xoff := rfl
@[simp] theorem State.updMbox_xon (s : State) (n : Nat) (f : Mailbox → Mailbox) : (s.updMbox n f).xon = s.xon := rfl
@[simp] theorem State.updMbox_skeinRecs (s : State) (n : Nat) (f : Mailbox → Mailbox) : (s.updMbox n f).skeinRecs = s.skeinRecs := rfl
@[simp] theorem State.updMbox_recWrites (s : State) (n : Nat) (f : Mailbox → Mailbox) : (s.updMbox n f).recWrites = s.recWrites := rfl
@[simp] theorem State.updMbox_groups (s : State) (n : Nat) (f : Mailbox → Mailbox) : (s.updMbox n f).groups = s.groups := rfl
@[simp] theorem State.updMbox_links (s : State) (n : Nat) (f : Mailbox → Mailbox) : (s.updMbox n f).links = s.links := rfl
@[simp] theorem State.updMbox_cwc (s : State) (n : Nat) (f : Mailbox → Mailbox) : (s.updMbox n f).cwc = s.cwc := rfl
@[simp] theorem State.updMbox_hdm (s : State) (n : Nat) (f : Mailbox → Mailbox) : (s.updMbox n f).hdm = s.hdm := rfl
@[simp] theorem State.updMbox_biWait (s : State) (n : Nat) (f : Mailbox → Mailbox) : (s.updMbox n f).biWait = s.biWait := rfl
@[simp] theorem State.updMbox_lruClock (s : State) (n : Nat) (f : Mailbox → Mailbox) : (s.updMbox n f).lruClock = s.lruClock := rfl
@[simp] theorem State.updMbox_bar2Slide (s : State) (n : Nat) (f : Mailbox → Mailbox) : (s.updMbox n f).bar2Slide = s.bar2Slide := rfl
@[simp] theorem State.updMbox_ridFilter (s : State) (n : Nat) (f : Mailbox → Mailbox) : (s.updMbox n f).ridFilter = s.ridFilter := rfl
@[simp] theorem State.updMbox_directWait (s : State) (n : Nat) (f : Mailbox → Mailbox) : (s.updMbox n f).directWait = s.directWait := rfl
@[simp] theorem State.updMbox_directLds (s : State) (n : Nat) (f : Mailbox → Mailbox) : (s.updMbox n f).directLds = s.directLds := rfl
@[simp] theorem State.updMbox_mods (s : State) (n : Nat) (f : Mailbox → Mailbox) : (s.updMbox n f).mods = s.mods := rfl
@[simp] theorem State.updMbox_dies (s : State) (n : Nat) (f : Mailbox → Mailbox) : (s.updMbox n f).dies = s.dies := rfl
@[simp] theorem State.updMbox_dlRoute (s : State) (n : Nat) (f : Mailbox → Mailbox) : (s.updMbox n f).dlRoute = s.dlRoute := rfl
@[simp] theorem State.updMbox_portCfg (s : State) (n : Nat) (f : Mailbox → Mailbox) : (s.updMbox n f).portCfg = s.portCfg := rfl
@[simp] theorem State.updMbox_nextHop (s : State) (n : Nat) (f : Mailbox → Mailbox) : (s.updMbox n f).nextHop = s.nextHop := rfl
@[simp] theorem State.updMbox_lports (s : State) (n : Nat) (f : Mailbox → Mailbox) : (s.updMbox n f).lports = s.lports := rfl
@[simp] theorem State.updMbox_sc (s : State) (n : Nat) (f : Mailbox → Mailbox) : (s.updMbox n f).sc = s.sc := rfl
@[simp] theorem State.updMbox_fc (s : State) (n : Nat) (f : Mailbox → Mailbox) : (s.updMbox n f).fc = s.fc := rfl
@[simp] theorem State.updMbox_heldWrites (s : State) (n : Nat) (f : Mailbox → Mailbox) : (s.updMbox n f).heldWrites = s.heldWrites := rfl
@[simp] theorem State.updMbox_heldSq (s : State) (n : Nat) (f : Mailbox → Mailbox) : (s.updMbox n f).heldSq = s.heldSq := rfl
@[simp] theorem State.updMbox_heldCq (s : State) (n : Nat) (f : Mailbox → Mailbox) : (s.updMbox n f).heldCq = s.heldCq := rfl
@[simp] theorem State.updMbox_heldAck (s : State) (n : Nat) (f : Mailbox → Mailbox) : (s.updMbox n f).heldAck = s.heldAck := rfl
@[simp] theorem State.updMbox_heldMb (s : State) (n : Nat) (f : Mailbox → Mailbox) : (s.updMbox n f).heldMb = s.heldMb := rfl
@[simp] theorem State.updMbox_heldOff (s : State) (n : Nat) (f : Mailbox → Mailbox) : (s.updMbox n f).heldOff = s.heldOff := rfl
@[simp] theorem State.updMbox_heldAns (s : State) (n : Nat) (f : Mailbox → Mailbox) : (s.updMbox n f).heldAns = s.heldAns := rfl
@[simp] theorem State.updMbox_heldLost (s : State) (n : Nat) (f : Mailbox → Mailbox) : (s.updMbox n f).heldLost = s.heldLost := rfl
@[simp] theorem State.updMbox_gov (s : State) (n : Nat) (f : Mailbox → Mailbox) : (s.updMbox n f).gov = s.gov := rfl
@[simp] theorem State.updMbox_counters (s : State) (n : Nat) (f : Mailbox → Mailbox) : (s.updMbox n f).counters = s.counters := rfl

/-! ### updQp, updOp -/

@[simp] theorem State.updQp_pending (s : State) (n : Nat) (f : Qp → Qp) : (s.updQp n f).pending = s.pending := rfl
@[simp] theorem State.updQp_sent (s : State) (n : Nat) (f : Qp → Qp) : (s.updQp n f).sent = s.sent := rfl
@[simp] theorem State.updQp_freeCtr (s : State) (n : Nat) (f : Qp → Qp) : (s.updQp n f).freeCtr = s.freeCtr := rfl
@[simp] theorem State.updQp_ticks (s : State) (n : Nat) (f : Qp → Qp) : (s.updQp n f).ticks = s.ticks := rfl
@[simp] theorem State.updQp_castOnFuse (s : State) (n : Nat) (f : Qp → Qp) : (s.updQp n f).castOnFuse = s.castOnFuse := rfl
@[simp] theorem State.updQp_sec (s : State) (n : Nat) (f : Qp → Qp) : (s.updQp n f).sec = s.sec := rfl
@[simp] theorem State.updQp_fleet (s : State) (n : Nat) (f : Qp → Qp) : (s.updQp n f).fleet = s.fleet := rfl
@[simp] theorem State.updQp_castOn (s : State) (n : Nat) (f : Qp → Qp) : (s.updQp n f).castOn = s.castOn := rfl
@[simp] theorem State.updQp_fnd (s : State) (n : Nat) (f : Qp → Qp) : (s.updQp n f).fnd = s.fnd := rfl
@[simp] theorem State.updQp_rumel (s : State) (n : Nat) (f : Qp → Qp) : (s.updQp n f).rumel = s.rumel := rfl
@[simp] theorem State.updQp_hbmGib (s : State) (n : Nat) (f : Qp → Qp) : (s.updQp n f).hbmGib = s.hbmGib := rfl
@[simp] theorem State.updQp_hooksUp (s : State) (n : Nat) (f : Qp → Qp) : (s.updQp n f).hooksUp = s.hooksUp := rfl
@[simp] theorem State.updQp_slices (s : State) (n : Nat) (f : Qp → Qp) : (s.updQp n f).slices = s.slices := rfl
@[simp] theorem State.updQp_mailboxes (s : State) (n : Nat) (f : Qp → Qp) : (s.updQp n f).mailboxes = s.mailboxes := rfl
@[simp] theorem State.updQp_ctxs (s : State) (n : Nat) (f : Qp → Qp) : (s.updQp n f).ctxs = s.ctxs := rfl
@[simp] theorem State.updQp_mos (s : State) (n : Nat) (f : Qp → Qp) : (s.updQp n f).mos = s.mos := rfl
@[simp] theorem State.updQp_moNext (s : State) (n : Nat) (f : Qp → Qp) : (s.updQp n f).moNext = s.moNext := rfl
@[simp] theorem State.updQp_moFree (s : State) (n : Nat) (f : Qp → Qp) : (s.updQp n f).moFree = s.moFree := rfl
@[simp] theorem State.updQp_wins (s : State) (n : Nat) (f : Qp → Qp) : (s.updQp n f).wins = s.wins := rfl
@[simp] theorem State.updQp_winNext (s : State) (n : Nat) (f : Qp → Qp) : (s.updQp n f).winNext = s.winNext := rfl
@[simp] theorem State.updQp_winFree (s : State) (n : Nat) (f : Qp → Qp) : (s.updQp n f).winFree = s.winFree := rfl
@[simp] theorem State.updQp_markers (s : State) (n : Nat) (f : Qp → Qp) : (s.updQp n f).markers = s.markers := rfl
@[simp] theorem State.updQp_cookies (s : State) (n : Nat) (f : Qp → Qp) : (s.updQp n f).cookies = s.cookies := rfl
@[simp] theorem State.updQp_bindJobs (s : State) (n : Nat) (f : Qp → Qp) : (s.updQp n f).bindJobs = s.bindJobs := rfl
@[simp] theorem State.updQp_cm (s : State) (n : Nat) (f : Qp → Qp) : (s.updQp n f).cm = s.cm := rfl
@[simp] theorem State.updQp_sqs (s : State) (n : Nat) (f : Qp → Qp) : (s.updQp n f).sqs = s.sqs := rfl
@[simp] theorem State.updQp_cqs (s : State) (n : Nat) (f : Qp → Qp) : (s.updQp n f).cqs = s.cqs := rfl
@[simp] theorem State.updQp_ops (s : State) (n : Nat) (f : Qp → Qp) : (s.updQp n f).ops = s.ops := rfl
@[simp] theorem State.updQp_xlt (s : State) (n : Nat) (f : Qp → Qp) : (s.updQp n f).xlt = s.xlt := rfl
@[simp] theorem State.updQp_xuses (s : State) (n : Nat) (f : Qp → Qp) : (s.updQp n f).xuses = s.xuses := rfl
@[simp] theorem State.updQp_trackers (s : State) (n : Nat) (f : Qp → Qp) : (s.updQp n f).trackers = s.trackers := rfl
@[simp] theorem State.updQp_grants (s : State) (n : Nat) (f : Qp → Qp) : (s.updQp n f).grants = s.grants := rfl
@[simp] theorem State.updQp_ertPort (s : State) (n : Nat) (f : Qp → Qp) : (s.updQp n f).ertPort = s.ertPort := rfl
@[simp] theorem State.updQp_tcWeight (s : State) (n : Nat) (f : Qp → Qp) : (s.updQp n f).tcWeight = s.tcWeight := rfl
@[simp] theorem State.updQp_tcDscp (s : State) (n : Nat) (f : Qp → Qp) : (s.updQp n f).tcDscp = s.tcDscp := rfl
@[simp] theorem State.updQp_tension (s : State) (n : Nat) (f : Qp → Qp) : (s.updQp n f).tension = s.tension := rfl
@[simp] theorem State.updQp_trkRsv (s : State) (n : Nat) (f : Qp → Qp) : (s.updQp n f).trkRsv = s.trkRsv := rfl
@[simp] theorem State.updQp_pfcEn (s : State) (n : Nat) (f : Qp → Qp) : (s.updQp n f).pfcEn = s.pfcEn := rfl
@[simp] theorem State.updQp_pfcPrio (s : State) (n : Nat) (f : Qp → Qp) : (s.updQp n f).pfcPrio = s.pfcPrio := rfl
@[simp] theorem State.updQp_xoff (s : State) (n : Nat) (f : Qp → Qp) : (s.updQp n f).xoff = s.xoff := rfl
@[simp] theorem State.updQp_xon (s : State) (n : Nat) (f : Qp → Qp) : (s.updQp n f).xon = s.xon := rfl
@[simp] theorem State.updQp_skeinRecs (s : State) (n : Nat) (f : Qp → Qp) : (s.updQp n f).skeinRecs = s.skeinRecs := rfl
@[simp] theorem State.updQp_recWrites (s : State) (n : Nat) (f : Qp → Qp) : (s.updQp n f).recWrites = s.recWrites := rfl
@[simp] theorem State.updQp_groups (s : State) (n : Nat) (f : Qp → Qp) : (s.updQp n f).groups = s.groups := rfl
@[simp] theorem State.updQp_links (s : State) (n : Nat) (f : Qp → Qp) : (s.updQp n f).links = s.links := rfl
@[simp] theorem State.updQp_cwc (s : State) (n : Nat) (f : Qp → Qp) : (s.updQp n f).cwc = s.cwc := rfl
@[simp] theorem State.updQp_hdm (s : State) (n : Nat) (f : Qp → Qp) : (s.updQp n f).hdm = s.hdm := rfl
@[simp] theorem State.updQp_biWait (s : State) (n : Nat) (f : Qp → Qp) : (s.updQp n f).biWait = s.biWait := rfl
@[simp] theorem State.updQp_lruClock (s : State) (n : Nat) (f : Qp → Qp) : (s.updQp n f).lruClock = s.lruClock := rfl
@[simp] theorem State.updQp_bar2Slide (s : State) (n : Nat) (f : Qp → Qp) : (s.updQp n f).bar2Slide = s.bar2Slide := rfl
@[simp] theorem State.updQp_ridFilter (s : State) (n : Nat) (f : Qp → Qp) : (s.updQp n f).ridFilter = s.ridFilter := rfl
@[simp] theorem State.updQp_directWait (s : State) (n : Nat) (f : Qp → Qp) : (s.updQp n f).directWait = s.directWait := rfl
@[simp] theorem State.updQp_directLds (s : State) (n : Nat) (f : Qp → Qp) : (s.updQp n f).directLds = s.directLds := rfl
@[simp] theorem State.updQp_mods (s : State) (n : Nat) (f : Qp → Qp) : (s.updQp n f).mods = s.mods := rfl
@[simp] theorem State.updQp_dies (s : State) (n : Nat) (f : Qp → Qp) : (s.updQp n f).dies = s.dies := rfl
@[simp] theorem State.updQp_dlRoute (s : State) (n : Nat) (f : Qp → Qp) : (s.updQp n f).dlRoute = s.dlRoute := rfl
@[simp] theorem State.updQp_portCfg (s : State) (n : Nat) (f : Qp → Qp) : (s.updQp n f).portCfg = s.portCfg := rfl
@[simp] theorem State.updQp_nextHop (s : State) (n : Nat) (f : Qp → Qp) : (s.updQp n f).nextHop = s.nextHop := rfl
@[simp] theorem State.updQp_lports (s : State) (n : Nat) (f : Qp → Qp) : (s.updQp n f).lports = s.lports := rfl
@[simp] theorem State.updQp_sc (s : State) (n : Nat) (f : Qp → Qp) : (s.updQp n f).sc = s.sc := rfl
@[simp] theorem State.updQp_fc (s : State) (n : Nat) (f : Qp → Qp) : (s.updQp n f).fc = s.fc := rfl
@[simp] theorem State.updQp_heldWrites (s : State) (n : Nat) (f : Qp → Qp) : (s.updQp n f).heldWrites = s.heldWrites := rfl
@[simp] theorem State.updQp_heldSq (s : State) (n : Nat) (f : Qp → Qp) : (s.updQp n f).heldSq = s.heldSq := rfl
@[simp] theorem State.updQp_heldCq (s : State) (n : Nat) (f : Qp → Qp) : (s.updQp n f).heldCq = s.heldCq := rfl
@[simp] theorem State.updQp_heldAck (s : State) (n : Nat) (f : Qp → Qp) : (s.updQp n f).heldAck = s.heldAck := rfl
@[simp] theorem State.updQp_heldMb (s : State) (n : Nat) (f : Qp → Qp) : (s.updQp n f).heldMb = s.heldMb := rfl
@[simp] theorem State.updQp_heldOff (s : State) (n : Nat) (f : Qp → Qp) : (s.updQp n f).heldOff = s.heldOff := rfl
@[simp] theorem State.updQp_heldAns (s : State) (n : Nat) (f : Qp → Qp) : (s.updQp n f).heldAns = s.heldAns := rfl
@[simp] theorem State.updQp_heldLost (s : State) (n : Nat) (f : Qp → Qp) : (s.updQp n f).heldLost = s.heldLost := rfl
@[simp] theorem State.updQp_gov (s : State) (n : Nat) (f : Qp → Qp) : (s.updQp n f).gov = s.gov := rfl
@[simp] theorem State.updQp_counters (s : State) (n : Nat) (f : Qp → Qp) : (s.updQp n f).counters = s.counters := rfl
theorem State.updQp_qp_self (s : State) (n : Nat) (f : Qp → Qp) (h : (Tab.get s.qps n).isSome) : (s.updQp n f).qp n = f (s.qp n) := by
  obtain ⟨q, hq⟩ := Option.isSome_iff_exists.1 h
  simp [State.updQp, State.qp, Tab.getD, hq]
theorem State.updQp_qp_ne (s : State) {n m : Nat} (f : Qp → Qp) (h : m ≠ n) : (s.updQp n f).qp m = s.qp m := by
  simp [State.updQp, State.qp, Tab.getD, Tab.get_adj_ne _ _ h]
@[simp] theorem State.updOp_pending (s : State) (n i : Nat) (f : Op → Op) : (s.updOp n i f).pending = s.pending := rfl
@[simp] theorem State.updOp_sent (s : State) (n i : Nat) (f : Op → Op) : (s.updOp n i f).sent = s.sent := rfl
@[simp] theorem State.updOp_freeCtr (s : State) (n i : Nat) (f : Op → Op) : (s.updOp n i f).freeCtr = s.freeCtr := rfl
@[simp] theorem State.updOp_ticks (s : State) (n i : Nat) (f : Op → Op) : (s.updOp n i f).ticks = s.ticks := rfl
@[simp] theorem State.updOp_castOnFuse (s : State) (n i : Nat) (f : Op → Op) : (s.updOp n i f).castOnFuse = s.castOnFuse := rfl
@[simp] theorem State.updOp_sec (s : State) (n i : Nat) (f : Op → Op) : (s.updOp n i f).sec = s.sec := rfl
@[simp] theorem State.updOp_fleet (s : State) (n i : Nat) (f : Op → Op) : (s.updOp n i f).fleet = s.fleet := rfl
@[simp] theorem State.updOp_castOn (s : State) (n i : Nat) (f : Op → Op) : (s.updOp n i f).castOn = s.castOn := rfl
@[simp] theorem State.updOp_fnd (s : State) (n i : Nat) (f : Op → Op) : (s.updOp n i f).fnd = s.fnd := rfl
@[simp] theorem State.updOp_rumel (s : State) (n i : Nat) (f : Op → Op) : (s.updOp n i f).rumel = s.rumel := rfl
@[simp] theorem State.updOp_hbmGib (s : State) (n i : Nat) (f : Op → Op) : (s.updOp n i f).hbmGib = s.hbmGib := rfl
@[simp] theorem State.updOp_hooksUp (s : State) (n i : Nat) (f : Op → Op) : (s.updOp n i f).hooksUp = s.hooksUp := rfl
@[simp] theorem State.updOp_slices (s : State) (n i : Nat) (f : Op → Op) : (s.updOp n i f).slices = s.slices := rfl
@[simp] theorem State.updOp_mailboxes (s : State) (n i : Nat) (f : Op → Op) : (s.updOp n i f).mailboxes = s.mailboxes := rfl
@[simp] theorem State.updOp_ctxs (s : State) (n i : Nat) (f : Op → Op) : (s.updOp n i f).ctxs = s.ctxs := rfl
@[simp] theorem State.updOp_mos (s : State) (n i : Nat) (f : Op → Op) : (s.updOp n i f).mos = s.mos := rfl
@[simp] theorem State.updOp_moNext (s : State) (n i : Nat) (f : Op → Op) : (s.updOp n i f).moNext = s.moNext := rfl
@[simp] theorem State.updOp_moFree (s : State) (n i : Nat) (f : Op → Op) : (s.updOp n i f).moFree = s.moFree := rfl
@[simp] theorem State.updOp_wins (s : State) (n i : Nat) (f : Op → Op) : (s.updOp n i f).wins = s.wins := rfl
@[simp] theorem State.updOp_winNext (s : State) (n i : Nat) (f : Op → Op) : (s.updOp n i f).winNext = s.winNext := rfl
@[simp] theorem State.updOp_winFree (s : State) (n i : Nat) (f : Op → Op) : (s.updOp n i f).winFree = s.winFree := rfl
@[simp] theorem State.updOp_markers (s : State) (n i : Nat) (f : Op → Op) : (s.updOp n i f).markers = s.markers := rfl
@[simp] theorem State.updOp_cookies (s : State) (n i : Nat) (f : Op → Op) : (s.updOp n i f).cookies = s.cookies := rfl
@[simp] theorem State.updOp_bindJobs (s : State) (n i : Nat) (f : Op → Op) : (s.updOp n i f).bindJobs = s.bindJobs := rfl
@[simp] theorem State.updOp_cm (s : State) (n i : Nat) (f : Op → Op) : (s.updOp n i f).cm = s.cm := rfl
@[simp] theorem State.updOp_sqs (s : State) (n i : Nat) (f : Op → Op) : (s.updOp n i f).sqs = s.sqs := rfl
@[simp] theorem State.updOp_cqs (s : State) (n i : Nat) (f : Op → Op) : (s.updOp n i f).cqs = s.cqs := rfl
@[simp] theorem State.updOp_xlt (s : State) (n i : Nat) (f : Op → Op) : (s.updOp n i f).xlt = s.xlt := rfl
@[simp] theorem State.updOp_xuses (s : State) (n i : Nat) (f : Op → Op) : (s.updOp n i f).xuses = s.xuses := rfl
@[simp] theorem State.updOp_qps (s : State) (n i : Nat) (f : Op → Op) : (s.updOp n i f).qps = s.qps := rfl
@[simp] theorem State.updOp_trackers (s : State) (n i : Nat) (f : Op → Op) : (s.updOp n i f).trackers = s.trackers := rfl
@[simp] theorem State.updOp_grants (s : State) (n i : Nat) (f : Op → Op) : (s.updOp n i f).grants = s.grants := rfl
@[simp] theorem State.updOp_ertPort (s : State) (n i : Nat) (f : Op → Op) : (s.updOp n i f).ertPort = s.ertPort := rfl
@[simp] theorem State.updOp_tcWeight (s : State) (n i : Nat) (f : Op → Op) : (s.updOp n i f).tcWeight = s.tcWeight := rfl
@[simp] theorem State.updOp_tcDscp (s : State) (n i : Nat) (f : Op → Op) : (s.updOp n i f).tcDscp = s.tcDscp := rfl
@[simp] theorem State.updOp_tension (s : State) (n i : Nat) (f : Op → Op) : (s.updOp n i f).tension = s.tension := rfl
@[simp] theorem State.updOp_trkRsv (s : State) (n i : Nat) (f : Op → Op) : (s.updOp n i f).trkRsv = s.trkRsv := rfl
@[simp] theorem State.updOp_pfcEn (s : State) (n i : Nat) (f : Op → Op) : (s.updOp n i f).pfcEn = s.pfcEn := rfl
@[simp] theorem State.updOp_pfcPrio (s : State) (n i : Nat) (f : Op → Op) : (s.updOp n i f).pfcPrio = s.pfcPrio := rfl
@[simp] theorem State.updOp_xoff (s : State) (n i : Nat) (f : Op → Op) : (s.updOp n i f).xoff = s.xoff := rfl
@[simp] theorem State.updOp_xon (s : State) (n i : Nat) (f : Op → Op) : (s.updOp n i f).xon = s.xon := rfl
@[simp] theorem State.updOp_skeinRecs (s : State) (n i : Nat) (f : Op → Op) : (s.updOp n i f).skeinRecs = s.skeinRecs := rfl
@[simp] theorem State.updOp_recWrites (s : State) (n i : Nat) (f : Op → Op) : (s.updOp n i f).recWrites = s.recWrites := rfl
@[simp] theorem State.updOp_groups (s : State) (n i : Nat) (f : Op → Op) : (s.updOp n i f).groups = s.groups := rfl
@[simp] theorem State.updOp_links (s : State) (n i : Nat) (f : Op → Op) : (s.updOp n i f).links = s.links := rfl
@[simp] theorem State.updOp_cwc (s : State) (n i : Nat) (f : Op → Op) : (s.updOp n i f).cwc = s.cwc := rfl
@[simp] theorem State.updOp_hdm (s : State) (n i : Nat) (f : Op → Op) : (s.updOp n i f).hdm = s.hdm := rfl
@[simp] theorem State.updOp_biWait (s : State) (n i : Nat) (f : Op → Op) : (s.updOp n i f).biWait = s.biWait := rfl
@[simp] theorem State.updOp_lruClock (s : State) (n i : Nat) (f : Op → Op) : (s.updOp n i f).lruClock = s.lruClock := rfl
@[simp] theorem State.updOp_bar2Slide (s : State) (n i : Nat) (f : Op → Op) : (s.updOp n i f).bar2Slide = s.bar2Slide := rfl
@[simp] theorem State.updOp_ridFilter (s : State) (n i : Nat) (f : Op → Op) : (s.updOp n i f).ridFilter = s.ridFilter := rfl
@[simp] theorem State.updOp_directWait (s : State) (n i : Nat) (f : Op → Op) : (s.updOp n i f).directWait = s.directWait := rfl
@[simp] theorem State.updOp_directLds (s : State) (n i : Nat) (f : Op → Op) : (s.updOp n i f).directLds = s.directLds := rfl
@[simp] theorem State.updOp_mods (s : State) (n i : Nat) (f : Op → Op) : (s.updOp n i f).mods = s.mods := rfl
@[simp] theorem State.updOp_dies (s : State) (n i : Nat) (f : Op → Op) : (s.updOp n i f).dies = s.dies := rfl
@[simp] theorem State.updOp_dlRoute (s : State) (n i : Nat) (f : Op → Op) : (s.updOp n i f).dlRoute = s.dlRoute := rfl
@[simp] theorem State.updOp_portCfg (s : State) (n i : Nat) (f : Op → Op) : (s.updOp n i f).portCfg = s.portCfg := rfl
@[simp] theorem State.updOp_nextHop (s : State) (n i : Nat) (f : Op → Op) : (s.updOp n i f).nextHop = s.nextHop := rfl
@[simp] theorem State.updOp_lports (s : State) (n i : Nat) (f : Op → Op) : (s.updOp n i f).lports = s.lports := rfl
@[simp] theorem State.updOp_sc (s : State) (n i : Nat) (f : Op → Op) : (s.updOp n i f).sc = s.sc := rfl
@[simp] theorem State.updOp_fc (s : State) (n i : Nat) (f : Op → Op) : (s.updOp n i f).fc = s.fc := rfl
@[simp] theorem State.updOp_heldWrites (s : State) (n i : Nat) (f : Op → Op) : (s.updOp n i f).heldWrites = s.heldWrites := rfl
@[simp] theorem State.updOp_heldSq (s : State) (n i : Nat) (f : Op → Op) : (s.updOp n i f).heldSq = s.heldSq := rfl
@[simp] theorem State.updOp_heldCq (s : State) (n i : Nat) (f : Op → Op) : (s.updOp n i f).heldCq = s.heldCq := rfl
@[simp] theorem State.updOp_heldAck (s : State) (n i : Nat) (f : Op → Op) : (s.updOp n i f).heldAck = s.heldAck := rfl
@[simp] theorem State.updOp_heldMb (s : State) (n i : Nat) (f : Op → Op) : (s.updOp n i f).heldMb = s.heldMb := rfl
@[simp] theorem State.updOp_heldOff (s : State) (n i : Nat) (f : Op → Op) : (s.updOp n i f).heldOff = s.heldOff := rfl
@[simp] theorem State.updOp_heldAns (s : State) (n i : Nat) (f : Op → Op) : (s.updOp n i f).heldAns = s.heldAns := rfl
@[simp] theorem State.updOp_heldLost (s : State) (n i : Nat) (f : Op → Op) : (s.updOp n i f).heldLost = s.heldLost := rfl
@[simp] theorem State.updOp_gov (s : State) (n i : Nat) (f : Op → Op) : (s.updOp n i f).gov = s.gov := rfl
@[simp] theorem State.updOp_counters (s : State) (n i : Nat) (f : Op → Op) : (s.updOp n i f).counters = s.counters := rfl
@[simp] theorem State.updOp_op_self (s : State) (n i : Nat) (f : Op → Op) : (s.updOp n i f).op n i = (s.op n i).map f := by simp [State.updOp, State.op]

/-! ### updFc -/

@[simp] theorem State.updFc_pending (s : State) (f : Fc → Fc) : (s.updFc f).pending = s.pending := rfl
@[simp] theorem State.updFc_sent (s : State) (f : Fc → Fc) : (s.updFc f).sent = s.sent := rfl
@[simp] theorem State.updFc_freeCtr (s : State) (f : Fc → Fc) : (s.updFc f).freeCtr = s.freeCtr := rfl
@[simp] theorem State.updFc_ticks (s : State) (f : Fc → Fc) : (s.updFc f).ticks = s.ticks := rfl
@[simp] theorem State.updFc_castOnFuse (s : State) (f : Fc → Fc) : (s.updFc f).castOnFuse = s.castOnFuse := rfl
@[simp] theorem State.updFc_sec (s : State) (f : Fc → Fc) : (s.updFc f).sec = s.sec := rfl
@[simp] theorem State.updFc_fleet (s : State) (f : Fc → Fc) : (s.updFc f).fleet = s.fleet := rfl
@[simp] theorem State.updFc_castOn (s : State) (f : Fc → Fc) : (s.updFc f).castOn = s.castOn := rfl
@[simp] theorem State.updFc_fnd (s : State) (f : Fc → Fc) : (s.updFc f).fnd = s.fnd := rfl
@[simp] theorem State.updFc_rumel (s : State) (f : Fc → Fc) : (s.updFc f).rumel = s.rumel := rfl
@[simp] theorem State.updFc_hbmGib (s : State) (f : Fc → Fc) : (s.updFc f).hbmGib = s.hbmGib := rfl
@[simp] theorem State.updFc_hooksUp (s : State) (f : Fc → Fc) : (s.updFc f).hooksUp = s.hooksUp := rfl
@[simp] theorem State.updFc_slices (s : State) (f : Fc → Fc) : (s.updFc f).slices = s.slices := rfl
@[simp] theorem State.updFc_mailboxes (s : State) (f : Fc → Fc) : (s.updFc f).mailboxes = s.mailboxes := rfl
@[simp] theorem State.updFc_ctxs (s : State) (f : Fc → Fc) : (s.updFc f).ctxs = s.ctxs := rfl
@[simp] theorem State.updFc_mos (s : State) (f : Fc → Fc) : (s.updFc f).mos = s.mos := rfl
@[simp] theorem State.updFc_moNext (s : State) (f : Fc → Fc) : (s.updFc f).moNext = s.moNext := rfl
@[simp] theorem State.updFc_moFree (s : State) (f : Fc → Fc) : (s.updFc f).moFree = s.moFree := rfl
@[simp] theorem State.updFc_wins (s : State) (f : Fc → Fc) : (s.updFc f).wins = s.wins := rfl
@[simp] theorem State.updFc_winNext (s : State) (f : Fc → Fc) : (s.updFc f).winNext = s.winNext := rfl
@[simp] theorem State.updFc_winFree (s : State) (f : Fc → Fc) : (s.updFc f).winFree = s.winFree := rfl
@[simp] theorem State.updFc_markers (s : State) (f : Fc → Fc) : (s.updFc f).markers = s.markers := rfl
@[simp] theorem State.updFc_cookies (s : State) (f : Fc → Fc) : (s.updFc f).cookies = s.cookies := rfl
@[simp] theorem State.updFc_bindJobs (s : State) (f : Fc → Fc) : (s.updFc f).bindJobs = s.bindJobs := rfl
@[simp] theorem State.updFc_cm (s : State) (f : Fc → Fc) : (s.updFc f).cm = s.cm := rfl
@[simp] theorem State.updFc_sqs (s : State) (f : Fc → Fc) : (s.updFc f).sqs = s.sqs := rfl
@[simp] theorem State.updFc_cqs (s : State) (f : Fc → Fc) : (s.updFc f).cqs = s.cqs := rfl
@[simp] theorem State.updFc_ops (s : State) (f : Fc → Fc) : (s.updFc f).ops = s.ops := rfl
@[simp] theorem State.updFc_xlt (s : State) (f : Fc → Fc) : (s.updFc f).xlt = s.xlt := rfl
@[simp] theorem State.updFc_xuses (s : State) (f : Fc → Fc) : (s.updFc f).xuses = s.xuses := rfl
@[simp] theorem State.updFc_qps (s : State) (f : Fc → Fc) : (s.updFc f).qps = s.qps := rfl
@[simp] theorem State.updFc_trackers (s : State) (f : Fc → Fc) : (s.updFc f).trackers = s.trackers := rfl
@[simp] theorem State.updFc_grants (s : State) (f : Fc → Fc) : (s.updFc f).grants = s.grants := rfl
@[simp] theorem State.updFc_ertPort (s : State) (f : Fc → Fc) : (s.updFc f).ertPort = s.ertPort := rfl
@[simp] theorem State.updFc_tcWeight (s : State) (f : Fc → Fc) : (s.updFc f).tcWeight = s.tcWeight := rfl
@[simp] theorem State.updFc_tcDscp (s : State) (f : Fc → Fc) : (s.updFc f).tcDscp = s.tcDscp := rfl
@[simp] theorem State.updFc_tension (s : State) (f : Fc → Fc) : (s.updFc f).tension = s.tension := rfl
@[simp] theorem State.updFc_trkRsv (s : State) (f : Fc → Fc) : (s.updFc f).trkRsv = s.trkRsv := rfl
@[simp] theorem State.updFc_pfcEn (s : State) (f : Fc → Fc) : (s.updFc f).pfcEn = s.pfcEn := rfl
@[simp] theorem State.updFc_pfcPrio (s : State) (f : Fc → Fc) : (s.updFc f).pfcPrio = s.pfcPrio := rfl
@[simp] theorem State.updFc_xoff (s : State) (f : Fc → Fc) : (s.updFc f).xoff = s.xoff := rfl
@[simp] theorem State.updFc_xon (s : State) (f : Fc → Fc) : (s.updFc f).xon = s.xon := rfl
@[simp] theorem State.updFc_skeinRecs (s : State) (f : Fc → Fc) : (s.updFc f).skeinRecs = s.skeinRecs := rfl
@[simp] theorem State.updFc_recWrites (s : State) (f : Fc → Fc) : (s.updFc f).recWrites = s.recWrites := rfl
@[simp] theorem State.updFc_groups (s : State) (f : Fc → Fc) : (s.updFc f).groups = s.groups := rfl
@[simp] theorem State.updFc_links (s : State) (f : Fc → Fc) : (s.updFc f).links = s.links := rfl
@[simp] theorem State.updFc_cwc (s : State) (f : Fc → Fc) : (s.updFc f).cwc = s.cwc := rfl
@[simp] theorem State.updFc_hdm (s : State) (f : Fc → Fc) : (s.updFc f).hdm = s.hdm := rfl
@[simp] theorem State.updFc_biWait (s : State) (f : Fc → Fc) : (s.updFc f).biWait = s.biWait := rfl
@[simp] theorem State.updFc_lruClock (s : State) (f : Fc → Fc) : (s.updFc f).lruClock = s.lruClock := rfl
@[simp] theorem State.updFc_bar2Slide (s : State) (f : Fc → Fc) : (s.updFc f).bar2Slide = s.bar2Slide := rfl
@[simp] theorem State.updFc_ridFilter (s : State) (f : Fc → Fc) : (s.updFc f).ridFilter = s.ridFilter := rfl
@[simp] theorem State.updFc_directWait (s : State) (f : Fc → Fc) : (s.updFc f).directWait = s.directWait := rfl
@[simp] theorem State.updFc_directLds (s : State) (f : Fc → Fc) : (s.updFc f).directLds = s.directLds := rfl
@[simp] theorem State.updFc_mods (s : State) (f : Fc → Fc) : (s.updFc f).mods = s.mods := rfl
@[simp] theorem State.updFc_dies (s : State) (f : Fc → Fc) : (s.updFc f).dies = s.dies := rfl
@[simp] theorem State.updFc_dlRoute (s : State) (f : Fc → Fc) : (s.updFc f).dlRoute = s.dlRoute := rfl
@[simp] theorem State.updFc_portCfg (s : State) (f : Fc → Fc) : (s.updFc f).portCfg = s.portCfg := rfl
@[simp] theorem State.updFc_nextHop (s : State) (f : Fc → Fc) : (s.updFc f).nextHop = s.nextHop := rfl
@[simp] theorem State.updFc_lports (s : State) (f : Fc → Fc) : (s.updFc f).lports = s.lports := rfl
@[simp] theorem State.updFc_sc (s : State) (f : Fc → Fc) : (s.updFc f).sc = s.sc := rfl
@[simp] theorem State.updFc_fc (s : State) (f : Fc → Fc) : (s.updFc f).fc = f s.fc := rfl
@[simp] theorem State.updFc_heldWrites (s : State) (f : Fc → Fc) : (s.updFc f).heldWrites = s.heldWrites := rfl
@[simp] theorem State.updFc_heldSq (s : State) (f : Fc → Fc) : (s.updFc f).heldSq = s.heldSq := rfl
@[simp] theorem State.updFc_heldCq (s : State) (f : Fc → Fc) : (s.updFc f).heldCq = s.heldCq := rfl
@[simp] theorem State.updFc_heldAck (s : State) (f : Fc → Fc) : (s.updFc f).heldAck = s.heldAck := rfl
@[simp] theorem State.updFc_heldMb (s : State) (f : Fc → Fc) : (s.updFc f).heldMb = s.heldMb := rfl
@[simp] theorem State.updFc_heldOff (s : State) (f : Fc → Fc) : (s.updFc f).heldOff = s.heldOff := rfl
@[simp] theorem State.updFc_heldAns (s : State) (f : Fc → Fc) : (s.updFc f).heldAns = s.heldAns := rfl
@[simp] theorem State.updFc_heldLost (s : State) (f : Fc → Fc) : (s.updFc f).heldLost = s.heldLost := rfl
@[simp] theorem State.updFc_gov (s : State) (f : Fc → Fc) : (s.updFc f).gov = s.gov := rfl
@[simp] theorem State.updFc_counters (s : State) (f : Fc → Fc) : (s.updFc f).counters = s.counters := rfl

/-! ### updXlt -/

@[simp] theorem State.updXlt_pending (s : State) (f : Xlt → Xlt) : (s.updXlt f).pending = s.pending := rfl
@[simp] theorem State.updXlt_sent (s : State) (f : Xlt → Xlt) : (s.updXlt f).sent = s.sent := rfl
@[simp] theorem State.updXlt_freeCtr (s : State) (f : Xlt → Xlt) : (s.updXlt f).freeCtr = s.freeCtr := rfl
@[simp] theorem State.updXlt_ticks (s : State) (f : Xlt → Xlt) : (s.updXlt f).ticks = s.ticks := rfl
@[simp] theorem State.updXlt_castOnFuse (s : State) (f : Xlt → Xlt) : (s.updXlt f).castOnFuse = s.castOnFuse := rfl
@[simp] theorem State.updXlt_sec (s : State) (f : Xlt → Xlt) : (s.updXlt f).sec = s.sec := rfl
@[simp] theorem State.updXlt_fleet (s : State) (f : Xlt → Xlt) : (s.updXlt f).fleet = s.fleet := rfl
@[simp] theorem State.updXlt_castOn (s : State) (f : Xlt → Xlt) : (s.updXlt f).castOn = s.castOn := rfl
@[simp] theorem State.updXlt_fnd (s : State) (f : Xlt → Xlt) : (s.updXlt f).fnd = s.fnd := rfl
@[simp] theorem State.updXlt_rumel (s : State) (f : Xlt → Xlt) : (s.updXlt f).rumel = s.rumel := rfl
@[simp] theorem State.updXlt_hbmGib (s : State) (f : Xlt → Xlt) : (s.updXlt f).hbmGib = s.hbmGib := rfl
@[simp] theorem State.updXlt_hooksUp (s : State) (f : Xlt → Xlt) : (s.updXlt f).hooksUp = s.hooksUp := rfl
@[simp] theorem State.updXlt_slices (s : State) (f : Xlt → Xlt) : (s.updXlt f).slices = s.slices := rfl
@[simp] theorem State.updXlt_mailboxes (s : State) (f : Xlt → Xlt) : (s.updXlt f).mailboxes = s.mailboxes := rfl
@[simp] theorem State.updXlt_ctxs (s : State) (f : Xlt → Xlt) : (s.updXlt f).ctxs = s.ctxs := rfl
@[simp] theorem State.updXlt_mos (s : State) (f : Xlt → Xlt) : (s.updXlt f).mos = s.mos := rfl
@[simp] theorem State.updXlt_moNext (s : State) (f : Xlt → Xlt) : (s.updXlt f).moNext = s.moNext := rfl
@[simp] theorem State.updXlt_moFree (s : State) (f : Xlt → Xlt) : (s.updXlt f).moFree = s.moFree := rfl
@[simp] theorem State.updXlt_wins (s : State) (f : Xlt → Xlt) : (s.updXlt f).wins = s.wins := rfl
@[simp] theorem State.updXlt_winNext (s : State) (f : Xlt → Xlt) : (s.updXlt f).winNext = s.winNext := rfl
@[simp] theorem State.updXlt_winFree (s : State) (f : Xlt → Xlt) : (s.updXlt f).winFree = s.winFree := rfl
@[simp] theorem State.updXlt_markers (s : State) (f : Xlt → Xlt) : (s.updXlt f).markers = s.markers := rfl
@[simp] theorem State.updXlt_cookies (s : State) (f : Xlt → Xlt) : (s.updXlt f).cookies = s.cookies := rfl
@[simp] theorem State.updXlt_bindJobs (s : State) (f : Xlt → Xlt) : (s.updXlt f).bindJobs = s.bindJobs := rfl
@[simp] theorem State.updXlt_cm (s : State) (f : Xlt → Xlt) : (s.updXlt f).cm = s.cm := rfl
@[simp] theorem State.updXlt_sqs (s : State) (f : Xlt → Xlt) : (s.updXlt f).sqs = s.sqs := rfl
@[simp] theorem State.updXlt_cqs (s : State) (f : Xlt → Xlt) : (s.updXlt f).cqs = s.cqs := rfl
@[simp] theorem State.updXlt_ops (s : State) (f : Xlt → Xlt) : (s.updXlt f).ops = s.ops := rfl
@[simp] theorem State.updXlt_xlt (s : State) (f : Xlt → Xlt) : (s.updXlt f).xlt = f s.xlt := rfl
@[simp] theorem State.updXlt_xuses (s : State) (f : Xlt → Xlt) : (s.updXlt f).xuses = s.xuses := rfl
@[simp] theorem State.updXlt_qps (s : State) (f : Xlt → Xlt) : (s.updXlt f).qps = s.qps := rfl
@[simp] theorem State.updXlt_trackers (s : State) (f : Xlt → Xlt) : (s.updXlt f).trackers = s.trackers := rfl
@[simp] theorem State.updXlt_grants (s : State) (f : Xlt → Xlt) : (s.updXlt f).grants = s.grants := rfl
@[simp] theorem State.updXlt_ertPort (s : State) (f : Xlt → Xlt) : (s.updXlt f).ertPort = s.ertPort := rfl
@[simp] theorem State.updXlt_tcWeight (s : State) (f : Xlt → Xlt) : (s.updXlt f).tcWeight = s.tcWeight := rfl
@[simp] theorem State.updXlt_tcDscp (s : State) (f : Xlt → Xlt) : (s.updXlt f).tcDscp = s.tcDscp := rfl
@[simp] theorem State.updXlt_tension (s : State) (f : Xlt → Xlt) : (s.updXlt f).tension = s.tension := rfl
@[simp] theorem State.updXlt_trkRsv (s : State) (f : Xlt → Xlt) : (s.updXlt f).trkRsv = s.trkRsv := rfl
@[simp] theorem State.updXlt_pfcEn (s : State) (f : Xlt → Xlt) : (s.updXlt f).pfcEn = s.pfcEn := rfl
@[simp] theorem State.updXlt_pfcPrio (s : State) (f : Xlt → Xlt) : (s.updXlt f).pfcPrio = s.pfcPrio := rfl
@[simp] theorem State.updXlt_xoff (s : State) (f : Xlt → Xlt) : (s.updXlt f).xoff = s.xoff := rfl
@[simp] theorem State.updXlt_xon (s : State) (f : Xlt → Xlt) : (s.updXlt f).xon = s.xon := rfl
@[simp] theorem State.updXlt_skeinRecs (s : State) (f : Xlt → Xlt) : (s.updXlt f).skeinRecs = s.skeinRecs := rfl
@[simp] theorem State.updXlt_recWrites (s : State) (f : Xlt → Xlt) : (s.updXlt f).recWrites = s.recWrites := rfl
@[simp] theorem State.updXlt_groups (s : State) (f : Xlt → Xlt) : (s.updXlt f).groups = s.groups := rfl
@[simp] theorem State.updXlt_links (s : State) (f : Xlt → Xlt) : (s.updXlt f).links = s.links := rfl
@[simp] theorem State.updXlt_cwc (s : State) (f : Xlt → Xlt) : (s.updXlt f).cwc = s.cwc := rfl
@[simp] theorem State.updXlt_hdm (s : State) (f : Xlt → Xlt) : (s.updXlt f).hdm = s.hdm := rfl
@[simp] theorem State.updXlt_biWait (s : State) (f : Xlt → Xlt) : (s.updXlt f).biWait = s.biWait := rfl
@[simp] theorem State.updXlt_lruClock (s : State) (f : Xlt → Xlt) : (s.updXlt f).lruClock = s.lruClock := rfl
@[simp] theorem State.updXlt_bar2Slide (s : State) (f : Xlt → Xlt) : (s.updXlt f).bar2Slide = s.bar2Slide := rfl
@[simp] theorem State.updXlt_ridFilter (s : State) (f : Xlt → Xlt) : (s.updXlt f).ridFilter = s.ridFilter := rfl
@[simp] theorem State.updXlt_directWait (s : State) (f : Xlt → Xlt) : (s.updXlt f).directWait = s.directWait := rfl
@[simp] theorem State.updXlt_directLds (s : State) (f : Xlt → Xlt) : (s.updXlt f).directLds = s.directLds := rfl
@[simp] theorem State.updXlt_mods (s : State) (f : Xlt → Xlt) : (s.updXlt f).mods = s.mods := rfl
@[simp] theorem State.updXlt_dies (s : State) (f : Xlt → Xlt) : (s.updXlt f).dies = s.dies := rfl
@[simp] theorem State.updXlt_dlRoute (s : State) (f : Xlt → Xlt) : (s.updXlt f).dlRoute = s.dlRoute := rfl
@[simp] theorem State.updXlt_portCfg (s : State) (f : Xlt → Xlt) : (s.updXlt f).portCfg = s.portCfg := rfl
@[simp] theorem State.updXlt_nextHop (s : State) (f : Xlt → Xlt) : (s.updXlt f).nextHop = s.nextHop := rfl
@[simp] theorem State.updXlt_lports (s : State) (f : Xlt → Xlt) : (s.updXlt f).lports = s.lports := rfl
@[simp] theorem State.updXlt_sc (s : State) (f : Xlt → Xlt) : (s.updXlt f).sc = s.sc := rfl
@[simp] theorem State.updXlt_fc (s : State) (f : Xlt → Xlt) : (s.updXlt f).fc = s.fc := rfl
@[simp] theorem State.updXlt_heldWrites (s : State) (f : Xlt → Xlt) : (s.updXlt f).heldWrites = s.heldWrites := rfl
@[simp] theorem State.updXlt_heldSq (s : State) (f : Xlt → Xlt) : (s.updXlt f).heldSq = s.heldSq := rfl
@[simp] theorem State.updXlt_heldCq (s : State) (f : Xlt → Xlt) : (s.updXlt f).heldCq = s.heldCq := rfl
@[simp] theorem State.updXlt_heldAck (s : State) (f : Xlt → Xlt) : (s.updXlt f).heldAck = s.heldAck := rfl
@[simp] theorem State.updXlt_heldMb (s : State) (f : Xlt → Xlt) : (s.updXlt f).heldMb = s.heldMb := rfl
@[simp] theorem State.updXlt_heldOff (s : State) (f : Xlt → Xlt) : (s.updXlt f).heldOff = s.heldOff := rfl
@[simp] theorem State.updXlt_heldAns (s : State) (f : Xlt → Xlt) : (s.updXlt f).heldAns = s.heldAns := rfl
@[simp] theorem State.updXlt_heldLost (s : State) (f : Xlt → Xlt) : (s.updXlt f).heldLost = s.heldLost := rfl
@[simp] theorem State.updXlt_gov (s : State) (f : Xlt → Xlt) : (s.updXlt f).gov = s.gov := rfl
@[simp] theorem State.updXlt_counters (s : State) (f : Xlt → Xlt) : (s.updXlt f).counters = s.counters := rfl

/-! ### Sending and counting -/

@[simp] theorem emit_pending (e : Emission) (s : State) : (emit e s).pending = s.pending := rfl
@[simp] theorem emit_sent (e : Emission) (s : State) : (emit e s).sent = e :: s.sent := rfl
@[simp] theorem emit_freeCtr (e : Emission) (s : State) : (emit e s).freeCtr = s.freeCtr := rfl
@[simp] theorem emit_ticks (e : Emission) (s : State) : (emit e s).ticks = s.ticks := rfl
@[simp] theorem emit_castOnFuse (e : Emission) (s : State) : (emit e s).castOnFuse = s.castOnFuse := rfl
@[simp] theorem emit_sec (e : Emission) (s : State) : (emit e s).sec = s.sec := rfl
@[simp] theorem emit_fleet (e : Emission) (s : State) : (emit e s).fleet = s.fleet := rfl
@[simp] theorem emit_castOn (e : Emission) (s : State) : (emit e s).castOn = s.castOn := rfl
@[simp] theorem emit_fnd (e : Emission) (s : State) : (emit e s).fnd = s.fnd := rfl
@[simp] theorem emit_rumel (e : Emission) (s : State) : (emit e s).rumel = s.rumel := rfl
@[simp] theorem emit_hbmGib (e : Emission) (s : State) : (emit e s).hbmGib = s.hbmGib := rfl
@[simp] theorem emit_hooksUp (e : Emission) (s : State) : (emit e s).hooksUp = s.hooksUp := rfl
@[simp] theorem emit_slices (e : Emission) (s : State) : (emit e s).slices = s.slices := rfl
@[simp] theorem emit_mailboxes (e : Emission) (s : State) : (emit e s).mailboxes = s.mailboxes := rfl
@[simp] theorem emit_ctxs (e : Emission) (s : State) : (emit e s).ctxs = s.ctxs := rfl
@[simp] theorem emit_mos (e : Emission) (s : State) : (emit e s).mos = s.mos := rfl
@[simp] theorem emit_moNext (e : Emission) (s : State) : (emit e s).moNext = s.moNext := rfl
@[simp] theorem emit_moFree (e : Emission) (s : State) : (emit e s).moFree = s.moFree := rfl
@[simp] theorem emit_wins (e : Emission) (s : State) : (emit e s).wins = s.wins := rfl
@[simp] theorem emit_winNext (e : Emission) (s : State) : (emit e s).winNext = s.winNext := rfl
@[simp] theorem emit_winFree (e : Emission) (s : State) : (emit e s).winFree = s.winFree := rfl
@[simp] theorem emit_markers (e : Emission) (s : State) : (emit e s).markers = s.markers := rfl
@[simp] theorem emit_cookies (e : Emission) (s : State) : (emit e s).cookies = s.cookies := rfl
@[simp] theorem emit_bindJobs (e : Emission) (s : State) : (emit e s).bindJobs = s.bindJobs := rfl
@[simp] theorem emit_cm (e : Emission) (s : State) : (emit e s).cm = s.cm := rfl
@[simp] theorem emit_sqs (e : Emission) (s : State) : (emit e s).sqs = s.sqs := rfl
@[simp] theorem emit_cqs (e : Emission) (s : State) : (emit e s).cqs = s.cqs := rfl
@[simp] theorem emit_ops (e : Emission) (s : State) : (emit e s).ops = s.ops := rfl
@[simp] theorem emit_xlt (e : Emission) (s : State) : (emit e s).xlt = s.xlt := rfl
@[simp] theorem emit_xuses (e : Emission) (s : State) : (emit e s).xuses = s.xuses := rfl
@[simp] theorem emit_qps (e : Emission) (s : State) : (emit e s).qps = s.qps := rfl
@[simp] theorem emit_trackers (e : Emission) (s : State) : (emit e s).trackers = s.trackers := rfl
@[simp] theorem emit_grants (e : Emission) (s : State) : (emit e s).grants = s.grants := rfl
@[simp] theorem emit_ertPort (e : Emission) (s : State) : (emit e s).ertPort = s.ertPort := rfl
@[simp] theorem emit_tcWeight (e : Emission) (s : State) : (emit e s).tcWeight = s.tcWeight := rfl
@[simp] theorem emit_tcDscp (e : Emission) (s : State) : (emit e s).tcDscp = s.tcDscp := rfl
@[simp] theorem emit_tension (e : Emission) (s : State) : (emit e s).tension = s.tension := rfl
@[simp] theorem emit_trkRsv (e : Emission) (s : State) : (emit e s).trkRsv = s.trkRsv := rfl
@[simp] theorem emit_pfcEn (e : Emission) (s : State) : (emit e s).pfcEn = s.pfcEn := rfl
@[simp] theorem emit_pfcPrio (e : Emission) (s : State) : (emit e s).pfcPrio = s.pfcPrio := rfl
@[simp] theorem emit_xoff (e : Emission) (s : State) : (emit e s).xoff = s.xoff := rfl
@[simp] theorem emit_xon (e : Emission) (s : State) : (emit e s).xon = s.xon := rfl
@[simp] theorem emit_skeinRecs (e : Emission) (s : State) : (emit e s).skeinRecs = s.skeinRecs := rfl
@[simp] theorem emit_recWrites (e : Emission) (s : State) : (emit e s).recWrites = s.recWrites := rfl
@[simp] theorem emit_groups (e : Emission) (s : State) : (emit e s).groups = s.groups := rfl
@[simp] theorem emit_links (e : Emission) (s : State) : (emit e s).links = s.links := rfl
@[simp] theorem emit_cwc (e : Emission) (s : State) : (emit e s).cwc = s.cwc := rfl
@[simp] theorem emit_hdm (e : Emission) (s : State) : (emit e s).hdm = s.hdm := rfl
@[simp] theorem emit_biWait (e : Emission) (s : State) : (emit e s).biWait = s.biWait := rfl
@[simp] theorem emit_lruClock (e : Emission) (s : State) : (emit e s).lruClock = s.lruClock := rfl
@[simp] theorem emit_bar2Slide (e : Emission) (s : State) : (emit e s).bar2Slide = s.bar2Slide := rfl
@[simp] theorem emit_ridFilter (e : Emission) (s : State) : (emit e s).ridFilter = s.ridFilter := rfl
@[simp] theorem emit_directWait (e : Emission) (s : State) : (emit e s).directWait = s.directWait := rfl
@[simp] theorem emit_directLds (e : Emission) (s : State) : (emit e s).directLds = s.directLds := rfl
@[simp] theorem emit_mods (e : Emission) (s : State) : (emit e s).mods = s.mods := rfl
@[simp] theorem emit_dies (e : Emission) (s : State) : (emit e s).dies = s.dies := rfl
@[simp] theorem emit_dlRoute (e : Emission) (s : State) : (emit e s).dlRoute = s.dlRoute := rfl
@[simp] theorem emit_portCfg (e : Emission) (s : State) : (emit e s).portCfg = s.portCfg := rfl
@[simp] theorem emit_nextHop (e : Emission) (s : State) : (emit e s).nextHop = s.nextHop := rfl
@[simp] theorem emit_lports (e : Emission) (s : State) : (emit e s).lports = s.lports := rfl
@[simp] theorem emit_sc (e : Emission) (s : State) : (emit e s).sc = s.sc := rfl
@[simp] theorem emit_fc (e : Emission) (s : State) : (emit e s).fc = s.fc := rfl
@[simp] theorem emit_heldWrites (e : Emission) (s : State) : (emit e s).heldWrites = s.heldWrites := rfl
@[simp] theorem emit_heldSq (e : Emission) (s : State) : (emit e s).heldSq = s.heldSq := rfl
@[simp] theorem emit_heldCq (e : Emission) (s : State) : (emit e s).heldCq = s.heldCq := rfl
@[simp] theorem emit_heldAck (e : Emission) (s : State) : (emit e s).heldAck = s.heldAck := rfl
@[simp] theorem emit_heldMb (e : Emission) (s : State) : (emit e s).heldMb = s.heldMb := rfl
@[simp] theorem emit_heldOff (e : Emission) (s : State) : (emit e s).heldOff = s.heldOff := rfl
@[simp] theorem emit_heldAns (e : Emission) (s : State) : (emit e s).heldAns = s.heldAns := rfl
@[simp] theorem emit_heldLost (e : Emission) (s : State) : (emit e s).heldLost = s.heldLost := rfl
@[simp] theorem emit_gov (e : Emission) (s : State) : (emit e s).gov = s.gov := rfl
@[simp] theorem emit_counters (e : Emission) (s : State) : (emit e s).counters = s.counters := rfl
@[simp] theorem countBy_pending (a i n : Nat) (s : State) : (countBy a i n s).pending = s.pending := rfl
@[simp] theorem count_pending (a i : Nat) (s : State) : (count a i s).pending = s.pending := rfl
@[simp] theorem countUnnamed_pending (s : State) : (countUnnamed s).pending = s.pending := rfl
@[simp] theorem histogram_pending (h n : Nat) (s : State) : (histogram h n s).pending = s.pending := rfl
@[simp] theorem countBy_sent (a i n : Nat) (s : State) : (countBy a i n s).sent = s.sent := rfl
@[simp] theorem count_sent (a i : Nat) (s : State) : (count a i s).sent = s.sent := rfl
@[simp] theorem countUnnamed_sent (s : State) : (countUnnamed s).sent = s.sent := rfl
@[simp] theorem histogram_sent (h n : Nat) (s : State) : (histogram h n s).sent = s.sent := rfl
@[simp] theorem countBy_freeCtr (a i n : Nat) (s : State) : (countBy a i n s).freeCtr = s.freeCtr := rfl
@[simp] theorem count_freeCtr (a i : Nat) (s : State) : (count a i s).freeCtr = s.freeCtr := rfl
@[simp] theorem countUnnamed_freeCtr (s : State) : (countUnnamed s).freeCtr = s.freeCtr := rfl
@[simp] theorem histogram_freeCtr (h n : Nat) (s : State) : (histogram h n s).freeCtr = s.freeCtr := rfl
@[simp] theorem countBy_ticks (a i n : Nat) (s : State) : (countBy a i n s).ticks = s.ticks := rfl
@[simp] theorem count_ticks (a i : Nat) (s : State) : (count a i s).ticks = s.ticks := rfl
@[simp] theorem countUnnamed_ticks (s : State) : (countUnnamed s).ticks = s.ticks := rfl
@[simp] theorem histogram_ticks (h n : Nat) (s : State) : (histogram h n s).ticks = s.ticks := rfl
@[simp] theorem countBy_castOnFuse (a i n : Nat) (s : State) : (countBy a i n s).castOnFuse = s.castOnFuse := rfl
@[simp] theorem count_castOnFuse (a i : Nat) (s : State) : (count a i s).castOnFuse = s.castOnFuse := rfl
@[simp] theorem countUnnamed_castOnFuse (s : State) : (countUnnamed s).castOnFuse = s.castOnFuse := rfl
@[simp] theorem histogram_castOnFuse (h n : Nat) (s : State) : (histogram h n s).castOnFuse = s.castOnFuse := rfl
@[simp] theorem countBy_sec (a i n : Nat) (s : State) : (countBy a i n s).sec = s.sec := rfl
@[simp] theorem count_sec (a i : Nat) (s : State) : (count a i s).sec = s.sec := rfl
@[simp] theorem countUnnamed_sec (s : State) : (countUnnamed s).sec = s.sec := rfl
@[simp] theorem histogram_sec (h n : Nat) (s : State) : (histogram h n s).sec = s.sec := rfl
@[simp] theorem countBy_fleet (a i n : Nat) (s : State) : (countBy a i n s).fleet = s.fleet := rfl
@[simp] theorem count_fleet (a i : Nat) (s : State) : (count a i s).fleet = s.fleet := rfl
@[simp] theorem countUnnamed_fleet (s : State) : (countUnnamed s).fleet = s.fleet := rfl
@[simp] theorem histogram_fleet (h n : Nat) (s : State) : (histogram h n s).fleet = s.fleet := rfl
@[simp] theorem countBy_castOn (a i n : Nat) (s : State) : (countBy a i n s).castOn = s.castOn := rfl
@[simp] theorem count_castOn (a i : Nat) (s : State) : (count a i s).castOn = s.castOn := rfl
@[simp] theorem countUnnamed_castOn (s : State) : (countUnnamed s).castOn = s.castOn := rfl
@[simp] theorem histogram_castOn (h n : Nat) (s : State) : (histogram h n s).castOn = s.castOn := rfl
@[simp] theorem countBy_fnd (a i n : Nat) (s : State) : (countBy a i n s).fnd = s.fnd := rfl
@[simp] theorem count_fnd (a i : Nat) (s : State) : (count a i s).fnd = s.fnd := rfl
@[simp] theorem countUnnamed_fnd (s : State) : (countUnnamed s).fnd = s.fnd := rfl
@[simp] theorem histogram_fnd (h n : Nat) (s : State) : (histogram h n s).fnd = s.fnd := rfl
@[simp] theorem countBy_rumel (a i n : Nat) (s : State) : (countBy a i n s).rumel = s.rumel := rfl
@[simp] theorem count_rumel (a i : Nat) (s : State) : (count a i s).rumel = s.rumel := rfl
@[simp] theorem countUnnamed_rumel (s : State) : (countUnnamed s).rumel = s.rumel := rfl
@[simp] theorem histogram_rumel (h n : Nat) (s : State) : (histogram h n s).rumel = s.rumel := rfl
@[simp] theorem countBy_hbmGib (a i n : Nat) (s : State) : (countBy a i n s).hbmGib = s.hbmGib := rfl
@[simp] theorem count_hbmGib (a i : Nat) (s : State) : (count a i s).hbmGib = s.hbmGib := rfl
@[simp] theorem countUnnamed_hbmGib (s : State) : (countUnnamed s).hbmGib = s.hbmGib := rfl
@[simp] theorem histogram_hbmGib (h n : Nat) (s : State) : (histogram h n s).hbmGib = s.hbmGib := rfl
@[simp] theorem countBy_hooksUp (a i n : Nat) (s : State) : (countBy a i n s).hooksUp = s.hooksUp := rfl
@[simp] theorem count_hooksUp (a i : Nat) (s : State) : (count a i s).hooksUp = s.hooksUp := rfl
@[simp] theorem countUnnamed_hooksUp (s : State) : (countUnnamed s).hooksUp = s.hooksUp := rfl
@[simp] theorem histogram_hooksUp (h n : Nat) (s : State) : (histogram h n s).hooksUp = s.hooksUp := rfl
@[simp] theorem countBy_slices (a i n : Nat) (s : State) : (countBy a i n s).slices = s.slices := rfl
@[simp] theorem count_slices (a i : Nat) (s : State) : (count a i s).slices = s.slices := rfl
@[simp] theorem countUnnamed_slices (s : State) : (countUnnamed s).slices = s.slices := rfl
@[simp] theorem histogram_slices (h n : Nat) (s : State) : (histogram h n s).slices = s.slices := rfl
@[simp] theorem countBy_mailboxes (a i n : Nat) (s : State) : (countBy a i n s).mailboxes = s.mailboxes := rfl
@[simp] theorem count_mailboxes (a i : Nat) (s : State) : (count a i s).mailboxes = s.mailboxes := rfl
@[simp] theorem countUnnamed_mailboxes (s : State) : (countUnnamed s).mailboxes = s.mailboxes := rfl
@[simp] theorem histogram_mailboxes (h n : Nat) (s : State) : (histogram h n s).mailboxes = s.mailboxes := rfl
@[simp] theorem countBy_ctxs (a i n : Nat) (s : State) : (countBy a i n s).ctxs = s.ctxs := rfl
@[simp] theorem count_ctxs (a i : Nat) (s : State) : (count a i s).ctxs = s.ctxs := rfl
@[simp] theorem countUnnamed_ctxs (s : State) : (countUnnamed s).ctxs = s.ctxs := rfl
@[simp] theorem histogram_ctxs (h n : Nat) (s : State) : (histogram h n s).ctxs = s.ctxs := rfl
@[simp] theorem countBy_mos (a i n : Nat) (s : State) : (countBy a i n s).mos = s.mos := rfl
@[simp] theorem count_mos (a i : Nat) (s : State) : (count a i s).mos = s.mos := rfl
@[simp] theorem countUnnamed_mos (s : State) : (countUnnamed s).mos = s.mos := rfl
@[simp] theorem histogram_mos (h n : Nat) (s : State) : (histogram h n s).mos = s.mos := rfl
@[simp] theorem countBy_moNext (a i n : Nat) (s : State) : (countBy a i n s).moNext = s.moNext := rfl
@[simp] theorem count_moNext (a i : Nat) (s : State) : (count a i s).moNext = s.moNext := rfl
@[simp] theorem countUnnamed_moNext (s : State) : (countUnnamed s).moNext = s.moNext := rfl
@[simp] theorem histogram_moNext (h n : Nat) (s : State) : (histogram h n s).moNext = s.moNext := rfl
@[simp] theorem countBy_moFree (a i n : Nat) (s : State) : (countBy a i n s).moFree = s.moFree := rfl
@[simp] theorem count_moFree (a i : Nat) (s : State) : (count a i s).moFree = s.moFree := rfl
@[simp] theorem countUnnamed_moFree (s : State) : (countUnnamed s).moFree = s.moFree := rfl
@[simp] theorem histogram_moFree (h n : Nat) (s : State) : (histogram h n s).moFree = s.moFree := rfl
@[simp] theorem countBy_wins (a i n : Nat) (s : State) : (countBy a i n s).wins = s.wins := rfl
@[simp] theorem count_wins (a i : Nat) (s : State) : (count a i s).wins = s.wins := rfl
@[simp] theorem countUnnamed_wins (s : State) : (countUnnamed s).wins = s.wins := rfl
@[simp] theorem histogram_wins (h n : Nat) (s : State) : (histogram h n s).wins = s.wins := rfl
@[simp] theorem countBy_winNext (a i n : Nat) (s : State) : (countBy a i n s).winNext = s.winNext := rfl
@[simp] theorem count_winNext (a i : Nat) (s : State) : (count a i s).winNext = s.winNext := rfl
@[simp] theorem countUnnamed_winNext (s : State) : (countUnnamed s).winNext = s.winNext := rfl
@[simp] theorem histogram_winNext (h n : Nat) (s : State) : (histogram h n s).winNext = s.winNext := rfl
@[simp] theorem countBy_winFree (a i n : Nat) (s : State) : (countBy a i n s).winFree = s.winFree := rfl
@[simp] theorem count_winFree (a i : Nat) (s : State) : (count a i s).winFree = s.winFree := rfl
@[simp] theorem countUnnamed_winFree (s : State) : (countUnnamed s).winFree = s.winFree := rfl
@[simp] theorem histogram_winFree (h n : Nat) (s : State) : (histogram h n s).winFree = s.winFree := rfl
@[simp] theorem countBy_markers (a i n : Nat) (s : State) : (countBy a i n s).markers = s.markers := rfl
@[simp] theorem count_markers (a i : Nat) (s : State) : (count a i s).markers = s.markers := rfl
@[simp] theorem countUnnamed_markers (s : State) : (countUnnamed s).markers = s.markers := rfl
@[simp] theorem histogram_markers (h n : Nat) (s : State) : (histogram h n s).markers = s.markers := rfl
@[simp] theorem countBy_cookies (a i n : Nat) (s : State) : (countBy a i n s).cookies = s.cookies := rfl
@[simp] theorem count_cookies (a i : Nat) (s : State) : (count a i s).cookies = s.cookies := rfl
@[simp] theorem countUnnamed_cookies (s : State) : (countUnnamed s).cookies = s.cookies := rfl
@[simp] theorem histogram_cookies (h n : Nat) (s : State) : (histogram h n s).cookies = s.cookies := rfl
@[simp] theorem countBy_bindJobs (a i n : Nat) (s : State) : (countBy a i n s).bindJobs = s.bindJobs := rfl
@[simp] theorem count_bindJobs (a i : Nat) (s : State) : (count a i s).bindJobs = s.bindJobs := rfl
@[simp] theorem countUnnamed_bindJobs (s : State) : (countUnnamed s).bindJobs = s.bindJobs := rfl
@[simp] theorem histogram_bindJobs (h n : Nat) (s : State) : (histogram h n s).bindJobs = s.bindJobs := rfl
@[simp] theorem countBy_cm (a i n : Nat) (s : State) : (countBy a i n s).cm = s.cm := rfl
@[simp] theorem count_cm (a i : Nat) (s : State) : (count a i s).cm = s.cm := rfl
@[simp] theorem countUnnamed_cm (s : State) : (countUnnamed s).cm = s.cm := rfl
@[simp] theorem histogram_cm (h n : Nat) (s : State) : (histogram h n s).cm = s.cm := rfl
@[simp] theorem countBy_sqs (a i n : Nat) (s : State) : (countBy a i n s).sqs = s.sqs := rfl
@[simp] theorem count_sqs (a i : Nat) (s : State) : (count a i s).sqs = s.sqs := rfl
@[simp] theorem countUnnamed_sqs (s : State) : (countUnnamed s).sqs = s.sqs := rfl
@[simp] theorem histogram_sqs (h n : Nat) (s : State) : (histogram h n s).sqs = s.sqs := rfl
@[simp] theorem countBy_cqs (a i n : Nat) (s : State) : (countBy a i n s).cqs = s.cqs := rfl
@[simp] theorem count_cqs (a i : Nat) (s : State) : (count a i s).cqs = s.cqs := rfl
@[simp] theorem countUnnamed_cqs (s : State) : (countUnnamed s).cqs = s.cqs := rfl
@[simp] theorem histogram_cqs (h n : Nat) (s : State) : (histogram h n s).cqs = s.cqs := rfl
@[simp] theorem countBy_ops (a i n : Nat) (s : State) : (countBy a i n s).ops = s.ops := rfl
@[simp] theorem count_ops (a i : Nat) (s : State) : (count a i s).ops = s.ops := rfl
@[simp] theorem countUnnamed_ops (s : State) : (countUnnamed s).ops = s.ops := rfl
@[simp] theorem histogram_ops (h n : Nat) (s : State) : (histogram h n s).ops = s.ops := rfl
@[simp] theorem countBy_xlt (a i n : Nat) (s : State) : (countBy a i n s).xlt = s.xlt := rfl
@[simp] theorem count_xlt (a i : Nat) (s : State) : (count a i s).xlt = s.xlt := rfl
@[simp] theorem countUnnamed_xlt (s : State) : (countUnnamed s).xlt = s.xlt := rfl
@[simp] theorem histogram_xlt (h n : Nat) (s : State) : (histogram h n s).xlt = s.xlt := rfl
@[simp] theorem countBy_xuses (a i n : Nat) (s : State) : (countBy a i n s).xuses = s.xuses := rfl
@[simp] theorem count_xuses (a i : Nat) (s : State) : (count a i s).xuses = s.xuses := rfl
@[simp] theorem countUnnamed_xuses (s : State) : (countUnnamed s).xuses = s.xuses := rfl
@[simp] theorem histogram_xuses (h n : Nat) (s : State) : (histogram h n s).xuses = s.xuses := rfl
@[simp] theorem countBy_qps (a i n : Nat) (s : State) : (countBy a i n s).qps = s.qps := rfl
@[simp] theorem count_qps (a i : Nat) (s : State) : (count a i s).qps = s.qps := rfl
@[simp] theorem countUnnamed_qps (s : State) : (countUnnamed s).qps = s.qps := rfl
@[simp] theorem histogram_qps (h n : Nat) (s : State) : (histogram h n s).qps = s.qps := rfl
@[simp] theorem countBy_trackers (a i n : Nat) (s : State) : (countBy a i n s).trackers = s.trackers := rfl
@[simp] theorem count_trackers (a i : Nat) (s : State) : (count a i s).trackers = s.trackers := rfl
@[simp] theorem countUnnamed_trackers (s : State) : (countUnnamed s).trackers = s.trackers := rfl
@[simp] theorem histogram_trackers (h n : Nat) (s : State) : (histogram h n s).trackers = s.trackers := rfl
@[simp] theorem countBy_grants (a i n : Nat) (s : State) : (countBy a i n s).grants = s.grants := rfl
@[simp] theorem count_grants (a i : Nat) (s : State) : (count a i s).grants = s.grants := rfl
@[simp] theorem countUnnamed_grants (s : State) : (countUnnamed s).grants = s.grants := rfl
@[simp] theorem histogram_grants (h n : Nat) (s : State) : (histogram h n s).grants = s.grants := rfl
@[simp] theorem countBy_ertPort (a i n : Nat) (s : State) : (countBy a i n s).ertPort = s.ertPort := rfl
@[simp] theorem count_ertPort (a i : Nat) (s : State) : (count a i s).ertPort = s.ertPort := rfl
@[simp] theorem countUnnamed_ertPort (s : State) : (countUnnamed s).ertPort = s.ertPort := rfl
@[simp] theorem histogram_ertPort (h n : Nat) (s : State) : (histogram h n s).ertPort = s.ertPort := rfl
@[simp] theorem countBy_tcWeight (a i n : Nat) (s : State) : (countBy a i n s).tcWeight = s.tcWeight := rfl
@[simp] theorem count_tcWeight (a i : Nat) (s : State) : (count a i s).tcWeight = s.tcWeight := rfl
@[simp] theorem countUnnamed_tcWeight (s : State) : (countUnnamed s).tcWeight = s.tcWeight := rfl
@[simp] theorem histogram_tcWeight (h n : Nat) (s : State) : (histogram h n s).tcWeight = s.tcWeight := rfl
@[simp] theorem countBy_tcDscp (a i n : Nat) (s : State) : (countBy a i n s).tcDscp = s.tcDscp := rfl
@[simp] theorem count_tcDscp (a i : Nat) (s : State) : (count a i s).tcDscp = s.tcDscp := rfl
@[simp] theorem countUnnamed_tcDscp (s : State) : (countUnnamed s).tcDscp = s.tcDscp := rfl
@[simp] theorem histogram_tcDscp (h n : Nat) (s : State) : (histogram h n s).tcDscp = s.tcDscp := rfl
@[simp] theorem countBy_tension (a i n : Nat) (s : State) : (countBy a i n s).tension = s.tension := rfl
@[simp] theorem count_tension (a i : Nat) (s : State) : (count a i s).tension = s.tension := rfl
@[simp] theorem countUnnamed_tension (s : State) : (countUnnamed s).tension = s.tension := rfl
@[simp] theorem histogram_tension (h n : Nat) (s : State) : (histogram h n s).tension = s.tension := rfl
@[simp] theorem countBy_trkRsv (a i n : Nat) (s : State) : (countBy a i n s).trkRsv = s.trkRsv := rfl
@[simp] theorem count_trkRsv (a i : Nat) (s : State) : (count a i s).trkRsv = s.trkRsv := rfl
@[simp] theorem countUnnamed_trkRsv (s : State) : (countUnnamed s).trkRsv = s.trkRsv := rfl
@[simp] theorem histogram_trkRsv (h n : Nat) (s : State) : (histogram h n s).trkRsv = s.trkRsv := rfl
@[simp] theorem countBy_pfcEn (a i n : Nat) (s : State) : (countBy a i n s).pfcEn = s.pfcEn := rfl
@[simp] theorem count_pfcEn (a i : Nat) (s : State) : (count a i s).pfcEn = s.pfcEn := rfl
@[simp] theorem countUnnamed_pfcEn (s : State) : (countUnnamed s).pfcEn = s.pfcEn := rfl
@[simp] theorem histogram_pfcEn (h n : Nat) (s : State) : (histogram h n s).pfcEn = s.pfcEn := rfl
@[simp] theorem countBy_pfcPrio (a i n : Nat) (s : State) : (countBy a i n s).pfcPrio = s.pfcPrio := rfl
@[simp] theorem count_pfcPrio (a i : Nat) (s : State) : (count a i s).pfcPrio = s.pfcPrio := rfl
@[simp] theorem countUnnamed_pfcPrio (s : State) : (countUnnamed s).pfcPrio = s.pfcPrio := rfl
@[simp] theorem histogram_pfcPrio (h n : Nat) (s : State) : (histogram h n s).pfcPrio = s.pfcPrio := rfl
@[simp] theorem countBy_xoff (a i n : Nat) (s : State) : (countBy a i n s).xoff = s.xoff := rfl
@[simp] theorem count_xoff (a i : Nat) (s : State) : (count a i s).xoff = s.xoff := rfl
@[simp] theorem countUnnamed_xoff (s : State) : (countUnnamed s).xoff = s.xoff := rfl
@[simp] theorem histogram_xoff (h n : Nat) (s : State) : (histogram h n s).xoff = s.xoff := rfl
@[simp] theorem countBy_xon (a i n : Nat) (s : State) : (countBy a i n s).xon = s.xon := rfl
@[simp] theorem count_xon (a i : Nat) (s : State) : (count a i s).xon = s.xon := rfl
@[simp] theorem countUnnamed_xon (s : State) : (countUnnamed s).xon = s.xon := rfl
@[simp] theorem histogram_xon (h n : Nat) (s : State) : (histogram h n s).xon = s.xon := rfl
@[simp] theorem countBy_skeinRecs (a i n : Nat) (s : State) : (countBy a i n s).skeinRecs = s.skeinRecs := rfl
@[simp] theorem count_skeinRecs (a i : Nat) (s : State) : (count a i s).skeinRecs = s.skeinRecs := rfl
@[simp] theorem countUnnamed_skeinRecs (s : State) : (countUnnamed s).skeinRecs = s.skeinRecs := rfl
@[simp] theorem histogram_skeinRecs (h n : Nat) (s : State) : (histogram h n s).skeinRecs = s.skeinRecs := rfl
@[simp] theorem countBy_recWrites (a i n : Nat) (s : State) : (countBy a i n s).recWrites = s.recWrites := rfl
@[simp] theorem count_recWrites (a i : Nat) (s : State) : (count a i s).recWrites = s.recWrites := rfl
@[simp] theorem countUnnamed_recWrites (s : State) : (countUnnamed s).recWrites = s.recWrites := rfl
@[simp] theorem histogram_recWrites (h n : Nat) (s : State) : (histogram h n s).recWrites = s.recWrites := rfl
@[simp] theorem countBy_groups (a i n : Nat) (s : State) : (countBy a i n s).groups = s.groups := rfl
@[simp] theorem count_groups (a i : Nat) (s : State) : (count a i s).groups = s.groups := rfl
@[simp] theorem countUnnamed_groups (s : State) : (countUnnamed s).groups = s.groups := rfl
@[simp] theorem histogram_groups (h n : Nat) (s : State) : (histogram h n s).groups = s.groups := rfl
@[simp] theorem countBy_links (a i n : Nat) (s : State) : (countBy a i n s).links = s.links := rfl
@[simp] theorem count_links (a i : Nat) (s : State) : (count a i s).links = s.links := rfl
@[simp] theorem countUnnamed_links (s : State) : (countUnnamed s).links = s.links := rfl
@[simp] theorem histogram_links (h n : Nat) (s : State) : (histogram h n s).links = s.links := rfl
@[simp] theorem countBy_cwc (a i n : Nat) (s : State) : (countBy a i n s).cwc = s.cwc := rfl
@[simp] theorem count_cwc (a i : Nat) (s : State) : (count a i s).cwc = s.cwc := rfl
@[simp] theorem countUnnamed_cwc (s : State) : (countUnnamed s).cwc = s.cwc := rfl
@[simp] theorem histogram_cwc (h n : Nat) (s : State) : (histogram h n s).cwc = s.cwc := rfl
@[simp] theorem countBy_hdm (a i n : Nat) (s : State) : (countBy a i n s).hdm = s.hdm := rfl
@[simp] theorem count_hdm (a i : Nat) (s : State) : (count a i s).hdm = s.hdm := rfl
@[simp] theorem countUnnamed_hdm (s : State) : (countUnnamed s).hdm = s.hdm := rfl
@[simp] theorem histogram_hdm (h n : Nat) (s : State) : (histogram h n s).hdm = s.hdm := rfl
@[simp] theorem countBy_biWait (a i n : Nat) (s : State) : (countBy a i n s).biWait = s.biWait := rfl
@[simp] theorem count_biWait (a i : Nat) (s : State) : (count a i s).biWait = s.biWait := rfl
@[simp] theorem countUnnamed_biWait (s : State) : (countUnnamed s).biWait = s.biWait := rfl
@[simp] theorem histogram_biWait (h n : Nat) (s : State) : (histogram h n s).biWait = s.biWait := rfl
@[simp] theorem countBy_lruClock (a i n : Nat) (s : State) : (countBy a i n s).lruClock = s.lruClock := rfl
@[simp] theorem count_lruClock (a i : Nat) (s : State) : (count a i s).lruClock = s.lruClock := rfl
@[simp] theorem countUnnamed_lruClock (s : State) : (countUnnamed s).lruClock = s.lruClock := rfl
@[simp] theorem histogram_lruClock (h n : Nat) (s : State) : (histogram h n s).lruClock = s.lruClock := rfl
@[simp] theorem countBy_bar2Slide (a i n : Nat) (s : State) : (countBy a i n s).bar2Slide = s.bar2Slide := rfl
@[simp] theorem count_bar2Slide (a i : Nat) (s : State) : (count a i s).bar2Slide = s.bar2Slide := rfl
@[simp] theorem countUnnamed_bar2Slide (s : State) : (countUnnamed s).bar2Slide = s.bar2Slide := rfl
@[simp] theorem histogram_bar2Slide (h n : Nat) (s : State) : (histogram h n s).bar2Slide = s.bar2Slide := rfl
@[simp] theorem countBy_ridFilter (a i n : Nat) (s : State) : (countBy a i n s).ridFilter = s.ridFilter := rfl
@[simp] theorem count_ridFilter (a i : Nat) (s : State) : (count a i s).ridFilter = s.ridFilter := rfl
@[simp] theorem countUnnamed_ridFilter (s : State) : (countUnnamed s).ridFilter = s.ridFilter := rfl
@[simp] theorem histogram_ridFilter (h n : Nat) (s : State) : (histogram h n s).ridFilter = s.ridFilter := rfl
@[simp] theorem countBy_directWait (a i n : Nat) (s : State) : (countBy a i n s).directWait = s.directWait := rfl
@[simp] theorem count_directWait (a i : Nat) (s : State) : (count a i s).directWait = s.directWait := rfl
@[simp] theorem countUnnamed_directWait (s : State) : (countUnnamed s).directWait = s.directWait := rfl
@[simp] theorem histogram_directWait (h n : Nat) (s : State) : (histogram h n s).directWait = s.directWait := rfl
@[simp] theorem countBy_directLds (a i n : Nat) (s : State) : (countBy a i n s).directLds = s.directLds := rfl
@[simp] theorem count_directLds (a i : Nat) (s : State) : (count a i s).directLds = s.directLds := rfl
@[simp] theorem countUnnamed_directLds (s : State) : (countUnnamed s).directLds = s.directLds := rfl
@[simp] theorem histogram_directLds (h n : Nat) (s : State) : (histogram h n s).directLds = s.directLds := rfl
@[simp] theorem countBy_mods (a i n : Nat) (s : State) : (countBy a i n s).mods = s.mods := rfl
@[simp] theorem count_mods (a i : Nat) (s : State) : (count a i s).mods = s.mods := rfl
@[simp] theorem countUnnamed_mods (s : State) : (countUnnamed s).mods = s.mods := rfl
@[simp] theorem histogram_mods (h n : Nat) (s : State) : (histogram h n s).mods = s.mods := rfl
@[simp] theorem countBy_dies (a i n : Nat) (s : State) : (countBy a i n s).dies = s.dies := rfl
@[simp] theorem count_dies (a i : Nat) (s : State) : (count a i s).dies = s.dies := rfl
@[simp] theorem countUnnamed_dies (s : State) : (countUnnamed s).dies = s.dies := rfl
@[simp] theorem histogram_dies (h n : Nat) (s : State) : (histogram h n s).dies = s.dies := rfl
@[simp] theorem countBy_dlRoute (a i n : Nat) (s : State) : (countBy a i n s).dlRoute = s.dlRoute := rfl
@[simp] theorem count_dlRoute (a i : Nat) (s : State) : (count a i s).dlRoute = s.dlRoute := rfl
@[simp] theorem countUnnamed_dlRoute (s : State) : (countUnnamed s).dlRoute = s.dlRoute := rfl
@[simp] theorem histogram_dlRoute (h n : Nat) (s : State) : (histogram h n s).dlRoute = s.dlRoute := rfl
@[simp] theorem countBy_portCfg (a i n : Nat) (s : State) : (countBy a i n s).portCfg = s.portCfg := rfl
@[simp] theorem count_portCfg (a i : Nat) (s : State) : (count a i s).portCfg = s.portCfg := rfl
@[simp] theorem countUnnamed_portCfg (s : State) : (countUnnamed s).portCfg = s.portCfg := rfl
@[simp] theorem histogram_portCfg (h n : Nat) (s : State) : (histogram h n s).portCfg = s.portCfg := rfl
@[simp] theorem countBy_nextHop (a i n : Nat) (s : State) : (countBy a i n s).nextHop = s.nextHop := rfl
@[simp] theorem count_nextHop (a i : Nat) (s : State) : (count a i s).nextHop = s.nextHop := rfl
@[simp] theorem countUnnamed_nextHop (s : State) : (countUnnamed s).nextHop = s.nextHop := rfl
@[simp] theorem histogram_nextHop (h n : Nat) (s : State) : (histogram h n s).nextHop = s.nextHop := rfl
@[simp] theorem countBy_lports (a i n : Nat) (s : State) : (countBy a i n s).lports = s.lports := rfl
@[simp] theorem count_lports (a i : Nat) (s : State) : (count a i s).lports = s.lports := rfl
@[simp] theorem countUnnamed_lports (s : State) : (countUnnamed s).lports = s.lports := rfl
@[simp] theorem histogram_lports (h n : Nat) (s : State) : (histogram h n s).lports = s.lports := rfl
@[simp] theorem countBy_sc (a i n : Nat) (s : State) : (countBy a i n s).sc = s.sc := rfl
@[simp] theorem count_sc (a i : Nat) (s : State) : (count a i s).sc = s.sc := rfl
@[simp] theorem countUnnamed_sc (s : State) : (countUnnamed s).sc = s.sc := rfl
@[simp] theorem histogram_sc (h n : Nat) (s : State) : (histogram h n s).sc = s.sc := rfl
@[simp] theorem countBy_fc (a i n : Nat) (s : State) : (countBy a i n s).fc = s.fc := rfl
@[simp] theorem count_fc (a i : Nat) (s : State) : (count a i s).fc = s.fc := rfl
@[simp] theorem countUnnamed_fc (s : State) : (countUnnamed s).fc = s.fc := rfl
@[simp] theorem histogram_fc (h n : Nat) (s : State) : (histogram h n s).fc = s.fc := rfl
@[simp] theorem countBy_heldWrites (a i n : Nat) (s : State) : (countBy a i n s).heldWrites = s.heldWrites := rfl
@[simp] theorem count_heldWrites (a i : Nat) (s : State) : (count a i s).heldWrites = s.heldWrites := rfl
@[simp] theorem countUnnamed_heldWrites (s : State) : (countUnnamed s).heldWrites = s.heldWrites := rfl
@[simp] theorem histogram_heldWrites (h n : Nat) (s : State) : (histogram h n s).heldWrites = s.heldWrites := rfl
@[simp] theorem countBy_heldSq (a i n : Nat) (s : State) : (countBy a i n s).heldSq = s.heldSq := rfl
@[simp] theorem count_heldSq (a i : Nat) (s : State) : (count a i s).heldSq = s.heldSq := rfl
@[simp] theorem countUnnamed_heldSq (s : State) : (countUnnamed s).heldSq = s.heldSq := rfl
@[simp] theorem histogram_heldSq (h n : Nat) (s : State) : (histogram h n s).heldSq = s.heldSq := rfl
@[simp] theorem countBy_heldCq (a i n : Nat) (s : State) : (countBy a i n s).heldCq = s.heldCq := rfl
@[simp] theorem count_heldCq (a i : Nat) (s : State) : (count a i s).heldCq = s.heldCq := rfl
@[simp] theorem countUnnamed_heldCq (s : State) : (countUnnamed s).heldCq = s.heldCq := rfl
@[simp] theorem histogram_heldCq (h n : Nat) (s : State) : (histogram h n s).heldCq = s.heldCq := rfl
@[simp] theorem countBy_heldAck (a i n : Nat) (s : State) : (countBy a i n s).heldAck = s.heldAck := rfl
@[simp] theorem count_heldAck (a i : Nat) (s : State) : (count a i s).heldAck = s.heldAck := rfl
@[simp] theorem countUnnamed_heldAck (s : State) : (countUnnamed s).heldAck = s.heldAck := rfl
@[simp] theorem histogram_heldAck (h n : Nat) (s : State) : (histogram h n s).heldAck = s.heldAck := rfl
@[simp] theorem countBy_heldMb (a i n : Nat) (s : State) : (countBy a i n s).heldMb = s.heldMb := rfl
@[simp] theorem count_heldMb (a i : Nat) (s : State) : (count a i s).heldMb = s.heldMb := rfl
@[simp] theorem countUnnamed_heldMb (s : State) : (countUnnamed s).heldMb = s.heldMb := rfl
@[simp] theorem histogram_heldMb (h n : Nat) (s : State) : (histogram h n s).heldMb = s.heldMb := rfl
@[simp] theorem countBy_heldOff (a i n : Nat) (s : State) : (countBy a i n s).heldOff = s.heldOff := rfl
@[simp] theorem count_heldOff (a i : Nat) (s : State) : (count a i s).heldOff = s.heldOff := rfl
@[simp] theorem countUnnamed_heldOff (s : State) : (countUnnamed s).heldOff = s.heldOff := rfl
@[simp] theorem histogram_heldOff (h n : Nat) (s : State) : (histogram h n s).heldOff = s.heldOff := rfl
@[simp] theorem countBy_heldAns (a i n : Nat) (s : State) : (countBy a i n s).heldAns = s.heldAns := rfl
@[simp] theorem count_heldAns (a i : Nat) (s : State) : (count a i s).heldAns = s.heldAns := rfl
@[simp] theorem countUnnamed_heldAns (s : State) : (countUnnamed s).heldAns = s.heldAns := rfl
@[simp] theorem histogram_heldAns (h n : Nat) (s : State) : (histogram h n s).heldAns = s.heldAns := rfl
@[simp] theorem countBy_heldLost (a i n : Nat) (s : State) : (countBy a i n s).heldLost = s.heldLost := rfl
@[simp] theorem count_heldLost (a i : Nat) (s : State) : (count a i s).heldLost = s.heldLost := rfl
@[simp] theorem countUnnamed_heldLost (s : State) : (countUnnamed s).heldLost = s.heldLost := rfl
@[simp] theorem histogram_heldLost (h n : Nat) (s : State) : (histogram h n s).heldLost = s.heldLost := rfl
@[simp] theorem countBy_gov (a i n : Nat) (s : State) : (countBy a i n s).gov = s.gov := rfl
@[simp] theorem count_gov (a i : Nat) (s : State) : (count a i s).gov = s.gov := rfl
@[simp] theorem countUnnamed_gov (s : State) : (countUnnamed s).gov = s.gov := rfl
@[simp] theorem histogram_gov (h n : Nat) (s : State) : (histogram h n s).gov = s.gov := rfl

/-! ### Records read after a change of something else -/

@[simp] theorem State.updSq_cq_other (s : State) (n m : Nat) (f : Sq → Sq) : (s.updSq n f).cq m = s.cq m := rfl
@[simp] theorem State.updSq_ctx_other (s : State) (n m : Nat) (f : Sq → Sq) : (s.updSq n f).ctx m = s.ctx m := rfl
@[simp] theorem State.updSq_slice_other (s : State) (n m : Nat) (f : Sq → Sq) : (s.updSq n f).slice m = s.slice m := rfl
@[simp] theorem State.updSq_mo_other (s : State) (n m : Nat) (f : Sq → Sq) : (s.updSq n f).mo m = s.mo m := rfl
@[simp] theorem State.updSq_win_other (s : State) (n m : Nat) (f : Sq → Sq) : (s.updSq n f).win m = s.win m := rfl
@[simp] theorem State.updSq_link_other (s : State) (n m : Nat) (f : Sq → Sq) : (s.updSq n f).link m = s.link m := rfl
@[simp] theorem State.updSq_mod_other (s : State) (n m : Nat) (f : Sq → Sq) : (s.updSq n f).mod m = s.mod m := rfl
@[simp] theorem State.updSq_die_other (s : State) (n m : Nat) (f : Sq → Sq) : (s.updSq n f).die m = s.die m := rfl
@[simp] theorem State.updSq_lport_other (s : State) (n m : Nat) (f : Sq → Sq) : (s.updSq n f).lport m = s.lport m := rfl
@[simp] theorem State.updSq_group_other (s : State) (n m : Nat) (f : Sq → Sq) : (s.updSq n f).group m = s.group m := rfl
@[simp] theorem State.updSq_mbox_other (s : State) (n m : Nat) (f : Sq → Sq) : (s.updSq n f).mbox m = s.mbox m := rfl
@[simp] theorem State.updSq_qp_other (s : State) (n m : Nat) (f : Sq → Sq) : (s.updSq n f).qp m = s.qp m := rfl
@[simp] theorem State.updSq_op_other (s : State) (n i j : Nat) (f : Sq → Sq) : (s.updSq n f).op i j = s.op i j := rfl
@[simp] theorem State.updCq_sq_other (s : State) (n m : Nat) (f : Cq → Cq) : (s.updCq n f).sq m = s.sq m := rfl
@[simp] theorem State.updCq_ctx_other (s : State) (n m : Nat) (f : Cq → Cq) : (s.updCq n f).ctx m = s.ctx m := rfl
@[simp] theorem State.updCq_slice_other (s : State) (n m : Nat) (f : Cq → Cq) : (s.updCq n f).slice m = s.slice m := rfl
@[simp] theorem State.updCq_mo_other (s : State) (n m : Nat) (f : Cq → Cq) : (s.updCq n f).mo m = s.mo m := rfl
@[simp] theorem State.updCq_win_other (s : State) (n m : Nat) (f : Cq → Cq) : (s.updCq n f).win m = s.win m := rfl
@[simp] theorem State.updCq_link_other (s : State) (n m : Nat) (f : Cq → Cq) : (s.updCq n f).link m = s.link m := rfl
@[simp] theorem State.updCq_mod_other (s : State) (n m : Nat) (f : Cq → Cq) : (s.updCq n f).mod m = s.mod m := rfl
@[simp] theorem State.updCq_die_other (s : State) (n m : Nat) (f : Cq → Cq) : (s.updCq n f).die m = s.die m := rfl
@[simp] theorem State.updCq_lport_other (s : State) (n m : Nat) (f : Cq → Cq) : (s.updCq n f).lport m = s.lport m := rfl
@[simp] theorem State.updCq_group_other (s : State) (n m : Nat) (f : Cq → Cq) : (s.updCq n f).group m = s.group m := rfl
@[simp] theorem State.updCq_mbox_other (s : State) (n m : Nat) (f : Cq → Cq) : (s.updCq n f).mbox m = s.mbox m := rfl
@[simp] theorem State.updCq_qp_other (s : State) (n m : Nat) (f : Cq → Cq) : (s.updCq n f).qp m = s.qp m := rfl
@[simp] theorem State.updCq_op_other (s : State) (n i j : Nat) (f : Cq → Cq) : (s.updCq n f).op i j = s.op i j := rfl
@[simp] theorem State.updCtx_sq_other (s : State) (n m : Nat) (f : Ctx → Ctx) : (s.updCtx n f).sq m = s.sq m := rfl
@[simp] theorem State.updCtx_cq_other (s : State) (n m : Nat) (f : Ctx → Ctx) : (s.updCtx n f).cq m = s.cq m := rfl
@[simp] theorem State.updCtx_slice_other (s : State) (n m : Nat) (f : Ctx → Ctx) : (s.updCtx n f).slice m = s.slice m := rfl
@[simp] theorem State.updCtx_mo_other (s : State) (n m : Nat) (f : Ctx → Ctx) : (s.updCtx n f).mo m = s.mo m := rfl
@[simp] theorem State.updCtx_win_other (s : State) (n m : Nat) (f : Ctx → Ctx) : (s.updCtx n f).win m = s.win m := rfl
@[simp] theorem State.updCtx_link_other (s : State) (n m : Nat) (f : Ctx → Ctx) : (s.updCtx n f).link m = s.link m := rfl
@[simp] theorem State.updCtx_mod_other (s : State) (n m : Nat) (f : Ctx → Ctx) : (s.updCtx n f).mod m = s.mod m := rfl
@[simp] theorem State.updCtx_die_other (s : State) (n m : Nat) (f : Ctx → Ctx) : (s.updCtx n f).die m = s.die m := rfl
@[simp] theorem State.updCtx_lport_other (s : State) (n m : Nat) (f : Ctx → Ctx) : (s.updCtx n f).lport m = s.lport m := rfl
@[simp] theorem State.updCtx_group_other (s : State) (n m : Nat) (f : Ctx → Ctx) : (s.updCtx n f).group m = s.group m := rfl
@[simp] theorem State.updCtx_mbox_other (s : State) (n m : Nat) (f : Ctx → Ctx) : (s.updCtx n f).mbox m = s.mbox m := rfl
@[simp] theorem State.updCtx_qp_other (s : State) (n m : Nat) (f : Ctx → Ctx) : (s.updCtx n f).qp m = s.qp m := rfl
@[simp] theorem State.updCtx_op_other (s : State) (n i j : Nat) (f : Ctx → Ctx) : (s.updCtx n f).op i j = s.op i j := rfl
@[simp] theorem State.updSlice_sq_other (s : State) (n m : Nat) (f : Slice → Slice) : (s.updSlice n f).sq m = s.sq m := rfl
@[simp] theorem State.updSlice_cq_other (s : State) (n m : Nat) (f : Slice → Slice) : (s.updSlice n f).cq m = s.cq m := rfl
@[simp] theorem State.updSlice_ctx_other (s : State) (n m : Nat) (f : Slice → Slice) : (s.updSlice n f).ctx m = s.ctx m := rfl
@[simp] theorem State.updSlice_mo_other (s : State) (n m : Nat) (f : Slice → Slice) : (s.updSlice n f).mo m = s.mo m := rfl
@[simp] theorem State.updSlice_win_other (s : State) (n m : Nat) (f : Slice → Slice) : (s.updSlice n f).win m = s.win m := rfl
@[simp] theorem State.updSlice_link_other (s : State) (n m : Nat) (f : Slice → Slice) : (s.updSlice n f).link m = s.link m := rfl
@[simp] theorem State.updSlice_mod_other (s : State) (n m : Nat) (f : Slice → Slice) : (s.updSlice n f).mod m = s.mod m := rfl
@[simp] theorem State.updSlice_die_other (s : State) (n m : Nat) (f : Slice → Slice) : (s.updSlice n f).die m = s.die m := rfl
@[simp] theorem State.updSlice_lport_other (s : State) (n m : Nat) (f : Slice → Slice) : (s.updSlice n f).lport m = s.lport m := rfl
@[simp] theorem State.updSlice_group_other (s : State) (n m : Nat) (f : Slice → Slice) : (s.updSlice n f).group m = s.group m := rfl
@[simp] theorem State.updSlice_mbox_other (s : State) (n m : Nat) (f : Slice → Slice) : (s.updSlice n f).mbox m = s.mbox m := rfl
@[simp] theorem State.updSlice_qp_other (s : State) (n m : Nat) (f : Slice → Slice) : (s.updSlice n f).qp m = s.qp m := rfl
@[simp] theorem State.updSlice_op_other (s : State) (n i j : Nat) (f : Slice → Slice) : (s.updSlice n f).op i j = s.op i j := rfl
@[simp] theorem State.updMo_sq_other (s : State) (n m : Nat) (f : Mo → Mo) : (s.updMo n f).sq m = s.sq m := rfl
@[simp] theorem State.updMo_cq_other (s : State) (n m : Nat) (f : Mo → Mo) : (s.updMo n f).cq m = s.cq m := rfl
@[simp] theorem State.updMo_ctx_other (s : State) (n m : Nat) (f : Mo → Mo) : (s.updMo n f).ctx m = s.ctx m := rfl
@[simp] theorem State.updMo_slice_other (s : State) (n m : Nat) (f : Mo → Mo) : (s.updMo n f).slice m = s.slice m := rfl
@[simp] theorem State.updMo_win_other (s : State) (n m : Nat) (f : Mo → Mo) : (s.updMo n f).win m = s.win m := rfl
@[simp] theorem State.updMo_link_other (s : State) (n m : Nat) (f : Mo → Mo) : (s.updMo n f).link m = s.link m := rfl
@[simp] theorem State.updMo_mod_other (s : State) (n m : Nat) (f : Mo → Mo) : (s.updMo n f).mod m = s.mod m := rfl
@[simp] theorem State.updMo_die_other (s : State) (n m : Nat) (f : Mo → Mo) : (s.updMo n f).die m = s.die m := rfl
@[simp] theorem State.updMo_lport_other (s : State) (n m : Nat) (f : Mo → Mo) : (s.updMo n f).lport m = s.lport m := rfl
@[simp] theorem State.updMo_group_other (s : State) (n m : Nat) (f : Mo → Mo) : (s.updMo n f).group m = s.group m := rfl
@[simp] theorem State.updMo_mbox_other (s : State) (n m : Nat) (f : Mo → Mo) : (s.updMo n f).mbox m = s.mbox m := rfl
@[simp] theorem State.updMo_qp_other (s : State) (n m : Nat) (f : Mo → Mo) : (s.updMo n f).qp m = s.qp m := rfl
@[simp] theorem State.updMo_op_other (s : State) (n i j : Nat) (f : Mo → Mo) : (s.updMo n f).op i j = s.op i j := rfl
@[simp] theorem State.updWin_sq_other (s : State) (n m : Nat) (f : Win → Win) : (s.updWin n f).sq m = s.sq m := rfl
@[simp] theorem State.updWin_cq_other (s : State) (n m : Nat) (f : Win → Win) : (s.updWin n f).cq m = s.cq m := rfl
@[simp] theorem State.updWin_ctx_other (s : State) (n m : Nat) (f : Win → Win) : (s.updWin n f).ctx m = s.ctx m := rfl
@[simp] theorem State.updWin_slice_other (s : State) (n m : Nat) (f : Win → Win) : (s.updWin n f).slice m = s.slice m := rfl
@[simp] theorem State.updWin_mo_other (s : State) (n m : Nat) (f : Win → Win) : (s.updWin n f).mo m = s.mo m := rfl
@[simp] theorem State.updWin_link_other (s : State) (n m : Nat) (f : Win → Win) : (s.updWin n f).link m = s.link m := rfl
@[simp] theorem State.updWin_mod_other (s : State) (n m : Nat) (f : Win → Win) : (s.updWin n f).mod m = s.mod m := rfl
@[simp] theorem State.updWin_die_other (s : State) (n m : Nat) (f : Win → Win) : (s.updWin n f).die m = s.die m := rfl
@[simp] theorem State.updWin_lport_other (s : State) (n m : Nat) (f : Win → Win) : (s.updWin n f).lport m = s.lport m := rfl
@[simp] theorem State.updWin_group_other (s : State) (n m : Nat) (f : Win → Win) : (s.updWin n f).group m = s.group m := rfl
@[simp] theorem State.updWin_mbox_other (s : State) (n m : Nat) (f : Win → Win) : (s.updWin n f).mbox m = s.mbox m := rfl
@[simp] theorem State.updWin_qp_other (s : State) (n m : Nat) (f : Win → Win) : (s.updWin n f).qp m = s.qp m := rfl
@[simp] theorem State.updWin_op_other (s : State) (n i j : Nat) (f : Win → Win) : (s.updWin n f).op i j = s.op i j := rfl
@[simp] theorem State.updLink_sq_other (s : State) (n m : Nat) (f : Link → Link) : (s.updLink n f).sq m = s.sq m := rfl
@[simp] theorem State.updLink_cq_other (s : State) (n m : Nat) (f : Link → Link) : (s.updLink n f).cq m = s.cq m := rfl
@[simp] theorem State.updLink_ctx_other (s : State) (n m : Nat) (f : Link → Link) : (s.updLink n f).ctx m = s.ctx m := rfl
@[simp] theorem State.updLink_slice_other (s : State) (n m : Nat) (f : Link → Link) : (s.updLink n f).slice m = s.slice m := rfl
@[simp] theorem State.updLink_mo_other (s : State) (n m : Nat) (f : Link → Link) : (s.updLink n f).mo m = s.mo m := rfl
@[simp] theorem State.updLink_win_other (s : State) (n m : Nat) (f : Link → Link) : (s.updLink n f).win m = s.win m := rfl
@[simp] theorem State.updLink_mod_other (s : State) (n m : Nat) (f : Link → Link) : (s.updLink n f).mod m = s.mod m := rfl
@[simp] theorem State.updLink_die_other (s : State) (n m : Nat) (f : Link → Link) : (s.updLink n f).die m = s.die m := rfl
@[simp] theorem State.updLink_lport_other (s : State) (n m : Nat) (f : Link → Link) : (s.updLink n f).lport m = s.lport m := rfl
@[simp] theorem State.updLink_group_other (s : State) (n m : Nat) (f : Link → Link) : (s.updLink n f).group m = s.group m := rfl
@[simp] theorem State.updLink_mbox_other (s : State) (n m : Nat) (f : Link → Link) : (s.updLink n f).mbox m = s.mbox m := rfl
@[simp] theorem State.updLink_qp_other (s : State) (n m : Nat) (f : Link → Link) : (s.updLink n f).qp m = s.qp m := rfl
@[simp] theorem State.updLink_op_other (s : State) (n i j : Nat) (f : Link → Link) : (s.updLink n f).op i j = s.op i j := rfl
@[simp] theorem State.updMod_sq_other (s : State) (n m : Nat) (f : Module → Module) : (s.updMod n f).sq m = s.sq m := rfl
@[simp] theorem State.updMod_cq_other (s : State) (n m : Nat) (f : Module → Module) : (s.updMod n f).cq m = s.cq m := rfl
@[simp] theorem State.updMod_ctx_other (s : State) (n m : Nat) (f : Module → Module) : (s.updMod n f).ctx m = s.ctx m := rfl
@[simp] theorem State.updMod_slice_other (s : State) (n m : Nat) (f : Module → Module) : (s.updMod n f).slice m = s.slice m := rfl
@[simp] theorem State.updMod_mo_other (s : State) (n m : Nat) (f : Module → Module) : (s.updMod n f).mo m = s.mo m := rfl
@[simp] theorem State.updMod_win_other (s : State) (n m : Nat) (f : Module → Module) : (s.updMod n f).win m = s.win m := rfl
@[simp] theorem State.updMod_link_other (s : State) (n m : Nat) (f : Module → Module) : (s.updMod n f).link m = s.link m := rfl
@[simp] theorem State.updMod_die_other (s : State) (n m : Nat) (f : Module → Module) : (s.updMod n f).die m = s.die m := rfl
@[simp] theorem State.updMod_lport_other (s : State) (n m : Nat) (f : Module → Module) : (s.updMod n f).lport m = s.lport m := rfl
@[simp] theorem State.updMod_group_other (s : State) (n m : Nat) (f : Module → Module) : (s.updMod n f).group m = s.group m := rfl
@[simp] theorem State.updMod_mbox_other (s : State) (n m : Nat) (f : Module → Module) : (s.updMod n f).mbox m = s.mbox m := rfl
@[simp] theorem State.updMod_qp_other (s : State) (n m : Nat) (f : Module → Module) : (s.updMod n f).qp m = s.qp m := rfl
@[simp] theorem State.updMod_op_other (s : State) (n i j : Nat) (f : Module → Module) : (s.updMod n f).op i j = s.op i j := rfl
@[simp] theorem State.updDie_sq_other (s : State) (n m : Nat) (f : DiePort → DiePort) : (s.updDie n f).sq m = s.sq m := rfl
@[simp] theorem State.updDie_cq_other (s : State) (n m : Nat) (f : DiePort → DiePort) : (s.updDie n f).cq m = s.cq m := rfl
@[simp] theorem State.updDie_ctx_other (s : State) (n m : Nat) (f : DiePort → DiePort) : (s.updDie n f).ctx m = s.ctx m := rfl
@[simp] theorem State.updDie_slice_other (s : State) (n m : Nat) (f : DiePort → DiePort) : (s.updDie n f).slice m = s.slice m := rfl
@[simp] theorem State.updDie_mo_other (s : State) (n m : Nat) (f : DiePort → DiePort) : (s.updDie n f).mo m = s.mo m := rfl
@[simp] theorem State.updDie_win_other (s : State) (n m : Nat) (f : DiePort → DiePort) : (s.updDie n f).win m = s.win m := rfl
@[simp] theorem State.updDie_link_other (s : State) (n m : Nat) (f : DiePort → DiePort) : (s.updDie n f).link m = s.link m := rfl
@[simp] theorem State.updDie_mod_other (s : State) (n m : Nat) (f : DiePort → DiePort) : (s.updDie n f).mod m = s.mod m := rfl
@[simp] theorem State.updDie_lport_other (s : State) (n m : Nat) (f : DiePort → DiePort) : (s.updDie n f).lport m = s.lport m := rfl
@[simp] theorem State.updDie_group_other (s : State) (n m : Nat) (f : DiePort → DiePort) : (s.updDie n f).group m = s.group m := rfl
@[simp] theorem State.updDie_mbox_other (s : State) (n m : Nat) (f : DiePort → DiePort) : (s.updDie n f).mbox m = s.mbox m := rfl
@[simp] theorem State.updDie_qp_other (s : State) (n m : Nat) (f : DiePort → DiePort) : (s.updDie n f).qp m = s.qp m := rfl
@[simp] theorem State.updDie_op_other (s : State) (n i j : Nat) (f : DiePort → DiePort) : (s.updDie n f).op i j = s.op i j := rfl
@[simp] theorem State.updLport_sq_other (s : State) (n m : Nat) (f : LPort → LPort) : (s.updLport n f).sq m = s.sq m := rfl
@[simp] theorem State.updLport_cq_other (s : State) (n m : Nat) (f : LPort → LPort) : (s.updLport n f).cq m = s.cq m := rfl
@[simp] theorem State.updLport_ctx_other (s : State) (n m : Nat) (f : LPort → LPort) : (s.updLport n f).ctx m = s.ctx m := rfl
@[simp] theorem State.updLport_slice_other (s : State) (n m : Nat) (f : LPort → LPort) : (s.updLport n f).slice m = s.slice m := rfl
@[simp] theorem State.updLport_mo_other (s : State) (n m : Nat) (f : LPort → LPort) : (s.updLport n f).mo m = s.mo m := rfl
@[simp] theorem State.updLport_win_other (s : State) (n m : Nat) (f : LPort → LPort) : (s.updLport n f).win m = s.win m := rfl
@[simp] theorem State.updLport_link_other (s : State) (n m : Nat) (f : LPort → LPort) : (s.updLport n f).link m = s.link m := rfl
@[simp] theorem State.updLport_mod_other (s : State) (n m : Nat) (f : LPort → LPort) : (s.updLport n f).mod m = s.mod m := rfl
@[simp] theorem State.updLport_die_other (s : State) (n m : Nat) (f : LPort → LPort) : (s.updLport n f).die m = s.die m := rfl
@[simp] theorem State.updLport_group_other (s : State) (n m : Nat) (f : LPort → LPort) : (s.updLport n f).group m = s.group m := rfl
@[simp] theorem State.updLport_mbox_other (s : State) (n m : Nat) (f : LPort → LPort) : (s.updLport n f).mbox m = s.mbox m := rfl
@[simp] theorem State.updLport_qp_other (s : State) (n m : Nat) (f : LPort → LPort) : (s.updLport n f).qp m = s.qp m := rfl
@[simp] theorem State.updLport_op_other (s : State) (n i j : Nat) (f : LPort → LPort) : (s.updLport n f).op i j = s.op i j := rfl
@[simp] theorem State.updGroup_sq_other (s : State) (n m : Nat) (f : Group → Group) : (s.updGroup n f).sq m = s.sq m := rfl
@[simp] theorem State.updGroup_cq_other (s : State) (n m : Nat) (f : Group → Group) : (s.updGroup n f).cq m = s.cq m := rfl
@[simp] theorem State.updGroup_ctx_other (s : State) (n m : Nat) (f : Group → Group) : (s.updGroup n f).ctx m = s.ctx m := rfl
@[simp] theorem State.updGroup_slice_other (s : State) (n m : Nat) (f : Group → Group) : (s.updGroup n f).slice m = s.slice m := rfl
@[simp] theorem State.updGroup_mo_other (s : State) (n m : Nat) (f : Group → Group) : (s.updGroup n f).mo m = s.mo m := rfl
@[simp] theorem State.updGroup_win_other (s : State) (n m : Nat) (f : Group → Group) : (s.updGroup n f).win m = s.win m := rfl
@[simp] theorem State.updGroup_link_other (s : State) (n m : Nat) (f : Group → Group) : (s.updGroup n f).link m = s.link m := rfl
@[simp] theorem State.updGroup_mod_other (s : State) (n m : Nat) (f : Group → Group) : (s.updGroup n f).mod m = s.mod m := rfl
@[simp] theorem State.updGroup_die_other (s : State) (n m : Nat) (f : Group → Group) : (s.updGroup n f).die m = s.die m := rfl
@[simp] theorem State.updGroup_lport_other (s : State) (n m : Nat) (f : Group → Group) : (s.updGroup n f).lport m = s.lport m := rfl
@[simp] theorem State.updGroup_mbox_other (s : State) (n m : Nat) (f : Group → Group) : (s.updGroup n f).mbox m = s.mbox m := rfl
@[simp] theorem State.updGroup_qp_other (s : State) (n m : Nat) (f : Group → Group) : (s.updGroup n f).qp m = s.qp m := rfl
@[simp] theorem State.updGroup_op_other (s : State) (n i j : Nat) (f : Group → Group) : (s.updGroup n f).op i j = s.op i j := rfl
@[simp] theorem State.updMbox_sq_other (s : State) (n m : Nat) (f : Mailbox → Mailbox) : (s.updMbox n f).sq m = s.sq m := rfl
@[simp] theorem State.updMbox_cq_other (s : State) (n m : Nat) (f : Mailbox → Mailbox) : (s.updMbox n f).cq m = s.cq m := rfl
@[simp] theorem State.updMbox_ctx_other (s : State) (n m : Nat) (f : Mailbox → Mailbox) : (s.updMbox n f).ctx m = s.ctx m := rfl
@[simp] theorem State.updMbox_slice_other (s : State) (n m : Nat) (f : Mailbox → Mailbox) : (s.updMbox n f).slice m = s.slice m := rfl
@[simp] theorem State.updMbox_mo_other (s : State) (n m : Nat) (f : Mailbox → Mailbox) : (s.updMbox n f).mo m = s.mo m := rfl
@[simp] theorem State.updMbox_win_other (s : State) (n m : Nat) (f : Mailbox → Mailbox) : (s.updMbox n f).win m = s.win m := rfl
@[simp] theorem State.updMbox_link_other (s : State) (n m : Nat) (f : Mailbox → Mailbox) : (s.updMbox n f).link m = s.link m := rfl
@[simp] theorem State.updMbox_mod_other (s : State) (n m : Nat) (f : Mailbox → Mailbox) : (s.updMbox n f).mod m = s.mod m := rfl
@[simp] theorem State.updMbox_die_other (s : State) (n m : Nat) (f : Mailbox → Mailbox) : (s.updMbox n f).die m = s.die m := rfl
@[simp] theorem State.updMbox_lport_other (s : State) (n m : Nat) (f : Mailbox → Mailbox) : (s.updMbox n f).lport m = s.lport m := rfl
@[simp] theorem State.updMbox_group_other (s : State) (n m : Nat) (f : Mailbox → Mailbox) : (s.updMbox n f).group m = s.group m := rfl
@[simp] theorem State.updMbox_qp_other (s : State) (n m : Nat) (f : Mailbox → Mailbox) : (s.updMbox n f).qp m = s.qp m := rfl
@[simp] theorem State.updMbox_op_other (s : State) (n i j : Nat) (f : Mailbox → Mailbox) : (s.updMbox n f).op i j = s.op i j := rfl
@[simp] theorem State.updQp_sq_other (s : State) (n m : Nat) (f : Qp → Qp) : (s.updQp n f).sq m = s.sq m := rfl
@[simp] theorem State.updOp_sq_other (s : State) (n i m : Nat) (f : Op → Op) : (s.updOp n i f).sq m = s.sq m := rfl
@[simp] theorem State.updFc_sq_other (s : State) (m : Nat) (f : Fc → Fc) : (s.updFc f).sq m = s.sq m := rfl
@[simp] theorem State.updXlt_sq_other (s : State) (m : Nat) (f : Xlt → Xlt) : (s.updXlt f).sq m = s.sq m := rfl
@[simp] theorem emit_sq_other (e : Emission) (s : State) (m : Nat) : (emit e s).sq m = s.sq m := rfl
@[simp] theorem countBy_sq_other (a i n : Nat) (s : State) (m : Nat) : (countBy a i n s).sq m = s.sq m := rfl
@[simp] theorem count_sq_other (a i : Nat) (s : State) (m : Nat) : (count a i s).sq m = s.sq m := rfl
@[simp] theorem countUnnamed_sq_other (s : State) (m : Nat) : (countUnnamed s).sq m = s.sq m := rfl
@[simp] theorem histogram_sq_other (h n : Nat) (s : State) (m : Nat) : (histogram h n s).sq m = s.sq m := rfl
@[simp] theorem State.updQp_cq_other (s : State) (n m : Nat) (f : Qp → Qp) : (s.updQp n f).cq m = s.cq m := rfl
@[simp] theorem State.updOp_cq_other (s : State) (n i m : Nat) (f : Op → Op) : (s.updOp n i f).cq m = s.cq m := rfl
@[simp] theorem State.updFc_cq_other (s : State) (m : Nat) (f : Fc → Fc) : (s.updFc f).cq m = s.cq m := rfl
@[simp] theorem State.updXlt_cq_other (s : State) (m : Nat) (f : Xlt → Xlt) : (s.updXlt f).cq m = s.cq m := rfl
@[simp] theorem emit_cq_other (e : Emission) (s : State) (m : Nat) : (emit e s).cq m = s.cq m := rfl
@[simp] theorem countBy_cq_other (a i n : Nat) (s : State) (m : Nat) : (countBy a i n s).cq m = s.cq m := rfl
@[simp] theorem count_cq_other (a i : Nat) (s : State) (m : Nat) : (count a i s).cq m = s.cq m := rfl
@[simp] theorem countUnnamed_cq_other (s : State) (m : Nat) : (countUnnamed s).cq m = s.cq m := rfl
@[simp] theorem histogram_cq_other (h n : Nat) (s : State) (m : Nat) : (histogram h n s).cq m = s.cq m := rfl
@[simp] theorem State.updQp_ctx_other (s : State) (n m : Nat) (f : Qp → Qp) : (s.updQp n f).ctx m = s.ctx m := rfl
@[simp] theorem State.updOp_ctx_other (s : State) (n i m : Nat) (f : Op → Op) : (s.updOp n i f).ctx m = s.ctx m := rfl
@[simp] theorem State.updFc_ctx_other (s : State) (m : Nat) (f : Fc → Fc) : (s.updFc f).ctx m = s.ctx m := rfl
@[simp] theorem State.updXlt_ctx_other (s : State) (m : Nat) (f : Xlt → Xlt) : (s.updXlt f).ctx m = s.ctx m := rfl
@[simp] theorem emit_ctx_other (e : Emission) (s : State) (m : Nat) : (emit e s).ctx m = s.ctx m := rfl
@[simp] theorem countBy_ctx_other (a i n : Nat) (s : State) (m : Nat) : (countBy a i n s).ctx m = s.ctx m := rfl
@[simp] theorem count_ctx_other (a i : Nat) (s : State) (m : Nat) : (count a i s).ctx m = s.ctx m := rfl
@[simp] theorem countUnnamed_ctx_other (s : State) (m : Nat) : (countUnnamed s).ctx m = s.ctx m := rfl
@[simp] theorem histogram_ctx_other (h n : Nat) (s : State) (m : Nat) : (histogram h n s).ctx m = s.ctx m := rfl
@[simp] theorem State.updQp_slice_other (s : State) (n m : Nat) (f : Qp → Qp) : (s.updQp n f).slice m = s.slice m := rfl
@[simp] theorem State.updOp_slice_other (s : State) (n i m : Nat) (f : Op → Op) : (s.updOp n i f).slice m = s.slice m := rfl
@[simp] theorem State.updFc_slice_other (s : State) (m : Nat) (f : Fc → Fc) : (s.updFc f).slice m = s.slice m := rfl
@[simp] theorem State.updXlt_slice_other (s : State) (m : Nat) (f : Xlt → Xlt) : (s.updXlt f).slice m = s.slice m := rfl
@[simp] theorem emit_slice_other (e : Emission) (s : State) (m : Nat) : (emit e s).slice m = s.slice m := rfl
@[simp] theorem countBy_slice_other (a i n : Nat) (s : State) (m : Nat) : (countBy a i n s).slice m = s.slice m := rfl
@[simp] theorem count_slice_other (a i : Nat) (s : State) (m : Nat) : (count a i s).slice m = s.slice m := rfl
@[simp] theorem countUnnamed_slice_other (s : State) (m : Nat) : (countUnnamed s).slice m = s.slice m := rfl
@[simp] theorem histogram_slice_other (h n : Nat) (s : State) (m : Nat) : (histogram h n s).slice m = s.slice m := rfl
@[simp] theorem State.updQp_mo_other (s : State) (n m : Nat) (f : Qp → Qp) : (s.updQp n f).mo m = s.mo m := rfl
@[simp] theorem State.updOp_mo_other (s : State) (n i m : Nat) (f : Op → Op) : (s.updOp n i f).mo m = s.mo m := rfl
@[simp] theorem State.updFc_mo_other (s : State) (m : Nat) (f : Fc → Fc) : (s.updFc f).mo m = s.mo m := rfl
@[simp] theorem State.updXlt_mo_other (s : State) (m : Nat) (f : Xlt → Xlt) : (s.updXlt f).mo m = s.mo m := rfl
@[simp] theorem emit_mo_other (e : Emission) (s : State) (m : Nat) : (emit e s).mo m = s.mo m := rfl
@[simp] theorem countBy_mo_other (a i n : Nat) (s : State) (m : Nat) : (countBy a i n s).mo m = s.mo m := rfl
@[simp] theorem count_mo_other (a i : Nat) (s : State) (m : Nat) : (count a i s).mo m = s.mo m := rfl
@[simp] theorem countUnnamed_mo_other (s : State) (m : Nat) : (countUnnamed s).mo m = s.mo m := rfl
@[simp] theorem histogram_mo_other (h n : Nat) (s : State) (m : Nat) : (histogram h n s).mo m = s.mo m := rfl
@[simp] theorem State.updQp_win_other (s : State) (n m : Nat) (f : Qp → Qp) : (s.updQp n f).win m = s.win m := rfl
@[simp] theorem State.updOp_win_other (s : State) (n i m : Nat) (f : Op → Op) : (s.updOp n i f).win m = s.win m := rfl
@[simp] theorem State.updFc_win_other (s : State) (m : Nat) (f : Fc → Fc) : (s.updFc f).win m = s.win m := rfl
@[simp] theorem State.updXlt_win_other (s : State) (m : Nat) (f : Xlt → Xlt) : (s.updXlt f).win m = s.win m := rfl
@[simp] theorem emit_win_other (e : Emission) (s : State) (m : Nat) : (emit e s).win m = s.win m := rfl
@[simp] theorem countBy_win_other (a i n : Nat) (s : State) (m : Nat) : (countBy a i n s).win m = s.win m := rfl
@[simp] theorem count_win_other (a i : Nat) (s : State) (m : Nat) : (count a i s).win m = s.win m := rfl
@[simp] theorem countUnnamed_win_other (s : State) (m : Nat) : (countUnnamed s).win m = s.win m := rfl
@[simp] theorem histogram_win_other (h n : Nat) (s : State) (m : Nat) : (histogram h n s).win m = s.win m := rfl
@[simp] theorem State.updQp_link_other (s : State) (n m : Nat) (f : Qp → Qp) : (s.updQp n f).link m = s.link m := rfl
@[simp] theorem State.updOp_link_other (s : State) (n i m : Nat) (f : Op → Op) : (s.updOp n i f).link m = s.link m := rfl
@[simp] theorem State.updFc_link_other (s : State) (m : Nat) (f : Fc → Fc) : (s.updFc f).link m = s.link m := rfl
@[simp] theorem State.updXlt_link_other (s : State) (m : Nat) (f : Xlt → Xlt) : (s.updXlt f).link m = s.link m := rfl
@[simp] theorem emit_link_other (e : Emission) (s : State) (m : Nat) : (emit e s).link m = s.link m := rfl
@[simp] theorem countBy_link_other (a i n : Nat) (s : State) (m : Nat) : (countBy a i n s).link m = s.link m := rfl
@[simp] theorem count_link_other (a i : Nat) (s : State) (m : Nat) : (count a i s).link m = s.link m := rfl
@[simp] theorem countUnnamed_link_other (s : State) (m : Nat) : (countUnnamed s).link m = s.link m := rfl
@[simp] theorem histogram_link_other (h n : Nat) (s : State) (m : Nat) : (histogram h n s).link m = s.link m := rfl
@[simp] theorem State.updQp_mod_other (s : State) (n m : Nat) (f : Qp → Qp) : (s.updQp n f).mod m = s.mod m := rfl
@[simp] theorem State.updOp_mod_other (s : State) (n i m : Nat) (f : Op → Op) : (s.updOp n i f).mod m = s.mod m := rfl
@[simp] theorem State.updFc_mod_other (s : State) (m : Nat) (f : Fc → Fc) : (s.updFc f).mod m = s.mod m := rfl
@[simp] theorem State.updXlt_mod_other (s : State) (m : Nat) (f : Xlt → Xlt) : (s.updXlt f).mod m = s.mod m := rfl
@[simp] theorem emit_mod_other (e : Emission) (s : State) (m : Nat) : (emit e s).mod m = s.mod m := rfl
@[simp] theorem countBy_mod_other (a i n : Nat) (s : State) (m : Nat) : (countBy a i n s).mod m = s.mod m := rfl
@[simp] theorem count_mod_other (a i : Nat) (s : State) (m : Nat) : (count a i s).mod m = s.mod m := rfl
@[simp] theorem countUnnamed_mod_other (s : State) (m : Nat) : (countUnnamed s).mod m = s.mod m := rfl
@[simp] theorem histogram_mod_other (h n : Nat) (s : State) (m : Nat) : (histogram h n s).mod m = s.mod m := rfl
@[simp] theorem State.updQp_die_other (s : State) (n m : Nat) (f : Qp → Qp) : (s.updQp n f).die m = s.die m := rfl
@[simp] theorem State.updOp_die_other (s : State) (n i m : Nat) (f : Op → Op) : (s.updOp n i f).die m = s.die m := rfl
@[simp] theorem State.updFc_die_other (s : State) (m : Nat) (f : Fc → Fc) : (s.updFc f).die m = s.die m := rfl
@[simp] theorem State.updXlt_die_other (s : State) (m : Nat) (f : Xlt → Xlt) : (s.updXlt f).die m = s.die m := rfl
@[simp] theorem emit_die_other (e : Emission) (s : State) (m : Nat) : (emit e s).die m = s.die m := rfl
@[simp] theorem countBy_die_other (a i n : Nat) (s : State) (m : Nat) : (countBy a i n s).die m = s.die m := rfl
@[simp] theorem count_die_other (a i : Nat) (s : State) (m : Nat) : (count a i s).die m = s.die m := rfl
@[simp] theorem countUnnamed_die_other (s : State) (m : Nat) : (countUnnamed s).die m = s.die m := rfl
@[simp] theorem histogram_die_other (h n : Nat) (s : State) (m : Nat) : (histogram h n s).die m = s.die m := rfl
@[simp] theorem State.updQp_lport_other (s : State) (n m : Nat) (f : Qp → Qp) : (s.updQp n f).lport m = s.lport m := rfl
@[simp] theorem State.updOp_lport_other (s : State) (n i m : Nat) (f : Op → Op) : (s.updOp n i f).lport m = s.lport m := rfl
@[simp] theorem State.updFc_lport_other (s : State) (m : Nat) (f : Fc → Fc) : (s.updFc f).lport m = s.lport m := rfl
@[simp] theorem State.updXlt_lport_other (s : State) (m : Nat) (f : Xlt → Xlt) : (s.updXlt f).lport m = s.lport m := rfl
@[simp] theorem emit_lport_other (e : Emission) (s : State) (m : Nat) : (emit e s).lport m = s.lport m := rfl
@[simp] theorem countBy_lport_other (a i n : Nat) (s : State) (m : Nat) : (countBy a i n s).lport m = s.lport m := rfl
@[simp] theorem count_lport_other (a i : Nat) (s : State) (m : Nat) : (count a i s).lport m = s.lport m := rfl
@[simp] theorem countUnnamed_lport_other (s : State) (m : Nat) : (countUnnamed s).lport m = s.lport m := rfl
@[simp] theorem histogram_lport_other (h n : Nat) (s : State) (m : Nat) : (histogram h n s).lport m = s.lport m := rfl
@[simp] theorem State.updQp_group_other (s : State) (n m : Nat) (f : Qp → Qp) : (s.updQp n f).group m = s.group m := rfl
@[simp] theorem State.updOp_group_other (s : State) (n i m : Nat) (f : Op → Op) : (s.updOp n i f).group m = s.group m := rfl
@[simp] theorem State.updFc_group_other (s : State) (m : Nat) (f : Fc → Fc) : (s.updFc f).group m = s.group m := rfl
@[simp] theorem State.updXlt_group_other (s : State) (m : Nat) (f : Xlt → Xlt) : (s.updXlt f).group m = s.group m := rfl
@[simp] theorem emit_group_other (e : Emission) (s : State) (m : Nat) : (emit e s).group m = s.group m := rfl
@[simp] theorem countBy_group_other (a i n : Nat) (s : State) (m : Nat) : (countBy a i n s).group m = s.group m := rfl
@[simp] theorem count_group_other (a i : Nat) (s : State) (m : Nat) : (count a i s).group m = s.group m := rfl
@[simp] theorem countUnnamed_group_other (s : State) (m : Nat) : (countUnnamed s).group m = s.group m := rfl
@[simp] theorem histogram_group_other (h n : Nat) (s : State) (m : Nat) : (histogram h n s).group m = s.group m := rfl
@[simp] theorem State.updQp_mbox_other (s : State) (n m : Nat) (f : Qp → Qp) : (s.updQp n f).mbox m = s.mbox m := rfl
@[simp] theorem State.updOp_mbox_other (s : State) (n i m : Nat) (f : Op → Op) : (s.updOp n i f).mbox m = s.mbox m := rfl
@[simp] theorem State.updFc_mbox_other (s : State) (m : Nat) (f : Fc → Fc) : (s.updFc f).mbox m = s.mbox m := rfl
@[simp] theorem State.updXlt_mbox_other (s : State) (m : Nat) (f : Xlt → Xlt) : (s.updXlt f).mbox m = s.mbox m := rfl
@[simp] theorem emit_mbox_other (e : Emission) (s : State) (m : Nat) : (emit e s).mbox m = s.mbox m := rfl
@[simp] theorem countBy_mbox_other (a i n : Nat) (s : State) (m : Nat) : (countBy a i n s).mbox m = s.mbox m := rfl
@[simp] theorem count_mbox_other (a i : Nat) (s : State) (m : Nat) : (count a i s).mbox m = s.mbox m := rfl
@[simp] theorem countUnnamed_mbox_other (s : State) (m : Nat) : (countUnnamed s).mbox m = s.mbox m := rfl
@[simp] theorem histogram_mbox_other (h n : Nat) (s : State) (m : Nat) : (histogram h n s).mbox m = s.mbox m := rfl
@[simp] theorem State.updOp_qp_other (s : State) (n i m : Nat) (f : Op → Op) : (s.updOp n i f).qp m = s.qp m := rfl
@[simp] theorem State.updFc_qp_other (s : State) (m : Nat) (f : Fc → Fc) : (s.updFc f).qp m = s.qp m := rfl
@[simp] theorem State.updXlt_qp_other (s : State) (m : Nat) (f : Xlt → Xlt) : (s.updXlt f).qp m = s.qp m := rfl
@[simp] theorem emit_qp_other (e : Emission) (s : State) (m : Nat) : (emit e s).qp m = s.qp m := rfl
@[simp] theorem countBy_qp_other (a i n : Nat) (s : State) (m : Nat) : (countBy a i n s).qp m = s.qp m := rfl
@[simp] theorem count_qp_other (a i : Nat) (s : State) (m : Nat) : (count a i s).qp m = s.qp m := rfl
@[simp] theorem countUnnamed_qp_other (s : State) (m : Nat) : (countUnnamed s).qp m = s.qp m := rfl
@[simp] theorem histogram_qp_other (h n : Nat) (s : State) (m : Nat) : (histogram h n s).qp m = s.qp m := rfl
@[simp] theorem State.updQp_op_other (s : State) (n : Nat) (f : Qp → Qp) (i j : Nat) : (s.updQp n f).op i j = s.op i j := rfl
@[simp] theorem State.updFc_op_other (s : State) (f : Fc → Fc) (i j : Nat) : (s.updFc f).op i j = s.op i j := rfl
@[simp] theorem State.updXlt_op_other (s : State) (f : Xlt → Xlt) (i j : Nat) : (s.updXlt f).op i j = s.op i j := rfl
@[simp] theorem emit_op_other (s : State) (e : Emission) (i j : Nat) : (emit e s).op i j = s.op i j := rfl
@[simp] theorem countBy_op_other (s : State) (a b n : Nat) (i j : Nat) : (countBy a b n s).op i j = s.op i j := rfl
@[simp] theorem count_op_other (s : State) (a b : Nat) (i j : Nat) : (count a b s).op i j = s.op i j := rfl
@[simp] theorem countUnnamed_op_other (s : State)  (i j : Nat) : (countUnnamed s).op i j = s.op i j := rfl
@[simp] theorem histogram_op_other (s : State) (h n : Nat) (i j : Nat) : (histogram h n s).op i j = s.op i j := rfl

end Sys2Proof.Machine
end

