-- ==== Sys2Proof/Laws/Transport.lean ====
section
/-! SUPPORT. What the shared tests on an arriving packet come to. -/

namespace Sys2Proof.Machine

/-- A packet of its row's opcode is looked at once its frame is counted. -/
theorem rowOp_of {p : ErtPkt} {k : Nat} {f : State → State} {s : State} (h : p.hdr.op = BitVec.ofNat 4 k) (hk : k < 16) :
    rowOp p k f s = f (arrived p s) := by
  have : p.hdr.op.toNat = k := by rw [h, BitVec.toNat_ofNat, Nat.mod_eq_of_lt hk]
  simp [rowOp, arrived, this]

/-- A packet that is taken stops at no test. -/
theorem rxGate_of_taken {s : State} {p : ErtPkt} (h : packetTaken s p = true) : rxGate p false s = .take := by
  unfold packetTaken at h
  split at h
  · assumption
  · cases h

/-- A packet that is not a NAK and is taken would be taken as a NAK too. -/
theorem rxGate_nak {s : State} {p : ErtPkt} (h : rxGate p false s = .take) : rxGate p true s = .take := by
  simp only [rxGate] at h ⊢
  by_cases h1 : running s = true
  · by_cases h2 : p.csumOk = true
    · by_cases h3 : p.hdr.ver ≠ 1 || 7 < p.hdr.tc.toNat || 14 ≤ p.hdr.op.toNat
      · simp only [h1, h2, h3, Bool.not_true, Bool.false_eq_true, if_false, if_true, reduceCtorEq] at h
      · cases hq : Tab.get s.qps p.hdr.dstQpn.toNat with
        | none => simp only [h1, h2, h3, hq, Bool.not_true, Bool.false_eq_true, if_false, reduceCtorEq] at h
        | some q =>
          simp only [h1, h2, h3, hq, Bool.not_true, Bool.false_eq_true, if_false] at h ⊢
          by_cases h4 : (q.st == .error || (q.st == .draining && q.abort)) = true
          · simp only [h4, if_true] at h ⊢
            repeat' split at h
            all_goals cases h
          · simp only [h4] at h ⊢
            exact h
    · simp only [h1, h2, Bool.not_true, Bool.false_eq_true, if_false, Bool.not_false, if_true, reduceCtorEq] at h
  · simp only [h1, Bool.not_false, if_true, reduceCtorEq] at h

/-- A packet taken as NEW reaches its row's own work. -/
theorem rxNew_of_new {s : State} {p : ErtPkt} {k : Nat → Qp → State → State} (h : packetNew s p = true) :
    rxNew p k s = k p.hdr.dstQpn.toNat (s.qp p.hdr.dstQpn.toNat) (touchQp p.hdr.dstQpn.toNat s) := by
  simp only [packetNew, Bool.and_eq_true, Bool.not_eq_true', beq_iff_eq] at h
  obtain ⟨⟨h1, h2⟩, h3⟩ := h
  rw [rxNew, rxGate_of_taken h1]
  simp only [h2, h3]
  rfl

/-- A RoCEv2 packet that passes the tests is taken. -/
theorem roceGate_of {s : State} {p : RocePkt} {k : Nat → State → State} (h : roceTaken s p) :
    roceGate p k s = k (p.dstQp.toNat - 0x20000) (count 524 (32 * p.lport + 1) s) := by
  obtain ⟨h1, h0, h2, h3, h4, h5, h6, h7⟩ := h
  obtain ⟨q, hq⟩ := Option.isSome_iff_exists.1 h3
  have hq' : s.qp (p.dstQp.toNat - 131072) = q := by simp [State.qp, Tab.getD, hq]
  rw [hq'] at h5 h6 h7
  have hr : running (count 524 (32 * p.lport + 1) s) = true := by simp [running, h1]
  have hi : (if 0x20000 ≤ p.dstQp.toNat then Tab.get (count 524 (32 * p.lport + 1) s).qps (p.dstQp.toNat - 0x20000) else none) = some q := by
    rw [if_pos h2]
    exact hq
  rw [roceGate]
  simp only [hi, hr, h0, h4, h5]
  rcases h7 with h7 | h7 <;> simp [List.contains_iff_mem.1 h6, h7]

end Sys2Proof.Machine
end

