-- ==== Sys2Proof/WellFormed.lean ====
section
/-! DEFINITION. Well-formed commands: every number that names a link, module, port, queue, QP, slice,
context or table entry lies in the range the spec gives it. -/

namespace Sys2Proof

/-- A host link, 0-3 (R292). -/
def okLink (n : Nat) : Bool := decide (n < 4)
/-- A die-link module, 0-23 (00_scope, Names). -/
def okModule (n : Nat) : Bool := decide (n < 24)
/-- A die port, 0-3. -/
def okDie (n : Nat) : Bool := decide (n < 4)
/-- A fabric port, 0-11. -/
def okPort (n : Nat) : Bool := decide (n < 12)
/-- A logical port, 0-95 (R318). -/
def okLport (n : Nat) : Bool := decide (n < 96)
/-- A submission or completion queue, 0-65,535 (R61). -/
def okQueue (n : Nat) : Bool := decide (n < 65536)
/-- A ring index, 24 bits (R62). -/
def okIdx (n : Nat) : Bool := decide (n < 16777216)
/-- A QP number, 17 bits (R142). -/
def okQpn (n : Nat) : Bool := decide (n < 131072)
/-- A slice, 0-511 (R27). -/
def okSlice (n : Nat) : Bool := decide (n < 512)
/-- A context or a group, 12 bits (R27, R255). -/
def okCtx (n : Nat) : Bool := decide (n < 4096)
/-- A fault source, 0-59 (R389). -/
def okSource (n : Nat) : Bool := decide (n < 60)
/-- A tracker, 0-16,383 (R160). -/
def okTracker (n : Nat) : Bool := decide (n < 16384)
/-- A mailbox (R368). -/
def okMbox : Mbox → Bool
  | .manager => true
  | .slice s => okSlice s
/-- A register write arrives on a link, in 4 or 8 bytes. -/
def okReg (w : RegWrite) : Bool := okLink w.link && (w.size == 4 || w.size == 8)
/-- A doorbell write names a link and a slice page. -/
def okDb (w : DbWrite) : Bool := okLink w.link && okSlice w.slice
/-- A push carries eight words. -/
def okPush (w : PushWrite) : Bool := okLink w.link && okSlice w.slice && decide (w.words.length = 8)
/-- An ERT packet arrives on a logical port with at most 8,192 bytes of payload (R143). -/
def okPkt (p : ErtPkt) : Bool := okLport p.lport && decide (p.payload.length ≤ 8192)
/-- A RoCEv2 packet carries at most 4,096 bytes (R182). -/
def okRoce (p : RocePkt) : Bool := okLport p.lport && decide (p.payload.length ≤ 4096)
/-- A ring read returns one slot or two (R72). -/
def okRing : RingRead → Bool
  | .words ws => ws.length == 8 || ws.length == 16
  | _ => true

/-- Well-formed commands. -/
def Instr.wf : Instr → Bool
  | .ssuSqDb w | .ssuCqDb w | .ssuCqNoticeAck w => okDb w
  | .ssuPush w => okPush w
  | .descriptorFetch sq r => okQueue sq && okRing r
  | .rowReread sq k r => okQueue sq && okRing r && decide (1 ≤ k ∧ k ≤ 8)
  | .nop q i | .copy q i | .fill q i | .convert q i | .writeRemote q i | .readRemote q i | .send q i
  | .atomicFadd q i | .atomicCas q i | .skein q i _ _ | .collective q i | .markerSignal q i
  | .markerWait q i | .triggerArm q i | .invalidate q i | .triggerFire q i
  | .layerOpen q i => okQueue q && okIdx i
  | .operationComplete q i | .invalidateDrained q i => decide (q < 131072) && okIdx i
  | .cqFullTimeout c | .cqDrainDiscard c | .cqWriteRetry c _ | .queueFree c => okQueue c
  | .walkDone w _ => decide (w < 256)
  | .xltFringDb w | .xltFringCfg w | .faultResolveRetry w _ | .faultResolveFail w => okReg w
  | .faultTimeout e => decide (e < 65536)
  | .contextFree c | .ctxDrainTimeout c => okCtx c
  | .moRetired i => decide (i < 1048576)
  | .windowFreed i => decide (i < 262144)
  | .firmwareErrorBinding => true
  | .write p | .rxSend p | .readReq p | .readResp p | .atomic p | .atomicResp p | .ack p | .nak p
  | .grant p | .resume p | .skeinData p | .purlData p | .purlResult p | .hello p | .credit p
  | .purlRestart p | .purlAbort p => okPkt p
  | .rocePacket p | .cnp p => okRoce p
  | .cmDatagram l _ d => okLport l && decide (d.length ≤ 256)
  | .rxFrameDiscard l _ => okLport l
  | .pfcFrame p pr _ => okLport p && decide (pr < 8)
  | .deliver q | .ackTimer q | .tink q _ | .noProgressTimeout q | .sickHoldExpiry q _
  | .retryDelayExpiry q _ | .pageHoldTimeout q _ | .dcqcnAlphaTimer q | .dcqcnIncreaseTimer q _
  | .roceAckTimeout q | .qpDrainTimeout q | .qpFreed q | .rnrTimerExpiry q => okQpn q
  | .rxStalled t | .grantResend t | .grantReclaim t => okTracker t
  | .grantEngine _ _ => true
  | .helloTimer g | .formationTimeout g | .progressTimeout g _ | .slotAssign g | .groupFree g => okCtx g
  | .rspData m _ _ d => okModule m && decide (d.length ≤ 4096)
  | .rspAck m _ _ | .badFlit m | .flitNak m _ | .flitAckTimeout m | .moduleRetrainTimeout m
  | .sidebandHello m _ _ | .idleFlit m _ _ _ _ | .moduleLinkLoss m _ => okModule m
  | .directLd m _ _ _ n => okModule m && decide (1 ≤ n ∧ n ≤ 256)
  | .directSt m _ _ d => okModule m && decide (d.length ≤ 4096)
  | .markerSig m _ _ _ _ _ => okModule m
  | .tfAck p _ | .tfViolation p _ _ | .telemetry p _ | .ocAlert p _ _ | .telemetryStale p _ => okDie p
  | .vinOvercurrent _ | .govFallbackBudget => true
  | .governorLoop own _ => decide (own.length ≤ 10)
  | .sensorThreshold n _ => decide (n < 32)
  | .nativeDataBlock b => okLport b.lport
  | .blockNak l _ | .blockAckTimeout l | .widthReq l _ _ | .widthAck l _ _ | .tsAlign l _ _
  | .trainingRetry l | .ieeeLinkUp l _ | .subportDown l | .subportUp l | .idleBlock l _
  | .egressPacketSelect l _ => okLport l
  | .tsEq l n _ _ _ _ | .laneFail l n | .laneRetrain l n _ => okLport l && decide (n < 8)
  | .bar2Read r _ | .bar2Write r _ _ | .bar2Atomic r _ _ _ => okLink r.link
  | .cxlMemRead l _ _ _ | .cxlMemWrite l _ _ _ | .hostSnoop l _ _ _ | .hostReadCompletion l _ _
  | .hostReadTimeout l _ | .linkReset l _ | .linkLossTimeout l | .powerStateChange l _
  | .configurationRequest l _ | .cxlCacheResponse l _ _ | .backInvalidateResponse l _ _
  | .dataLinkLayerLoss l | .dataLinkLayerUp l _ _ _ _ _ => okLink l
  | .perstDeassert => true
  | .faultEvent e => okSource e.source && decide (1 ≤ e.cls ∧ e.cls ≤ 3) && decide (e.unit < 64)
  | .escalationTimer n _ => okSource n
  | .unitResetDone n u | .swatchDone n u _ => okSource n && decide (u < 64)
  | .fcStatus w => okReg w
  | .reinitQuiesce | .reinitReset _ _ | .reinitVerify _ _ | .reinitRestart _ _ _ | .reinitResume
  | .refclkAbsentTimeout => true
  | .scrubLine h f => decide (h < 2) && decide (f < 3)
  | .wayDisable h w => decide (h < 2) && decide (w < 16)
  | .scClean w | .scInvalidate w | .scCleanInvalidate w | .scMaintAddr w => okReg w
  | .scMaintComplete => true
  | .netPortCfg n w => okPort n && okReg w
  | .netErtUdpPort w | .netTrkRsv w | .netPfcCfg w | .dlRoute w => okReg w
  | .registerWrite off w => decide (off < 0x4000000) && okReg w
  | .devInfo m | .devPortAddr m | .sliceCreate m | .sliceDestroy m | .sliceSetQuota m | .sliceSetRights m
  | .sliceQuery m | .ctxCreate m | .ctxSetPanel m | .ctxQuery m | .ctxDestroy m | .ctxInvalidate m
  | .ctxLose m | .queueCreate m | .queueDestroy m | .queueHold m | .queueResume m | .queueQpCreate m
  | .queueQpInit m | .queueQpConnect m | .queueQpHold m | .queueQpResume m | .queueQpDestroy m
  | .queueQpReset m | .queueQpQuery m | .queueCmSend m | .queueCmRecv m | .memRegister m | .memFree m
  | .memQuery m | .winRegister m | .winRevoke m | .markerReset m | .markerExport m | .markerImport m
  | .markerBind m | .markerUnbind m | .groupCreate m _ | .groupDestroy m | .groupQuery m | .skeinQuery m
  | .govQuery m | .govSetEnvelope m | .faultQuery m | .faultRestore m | .faultInject m _
  | .secBundleLoad m _ | .secMeasure m | .dbgCounters m | .dbgTrace m | .dbgState m
  | .mbDb m _ _ _ => okMbox m
  | .sliceFree s | .sliceDrainTimeout s => okSlice s
  | .bundleLoadDone l _ _ => decide (l < 1024)
  | .getVersion _ | .getCapabilities _ | .negotiateAlgorithms _ _ | .getDigests _
  | .getCertificate _ _ _ _ | .challenge _ _ _ | .getMeasurements _ _ _ _ | .dbgNonce _
  | .dbgUnlock _ _ _ _ _ | .fuseRecheck _ | .foundationRestart | .coldReset | .vinLoss => true
  | .railsInTolerance g _ => decide (1 ≤ g ∧ g ≤ 5)
  | .refclkMeasured _ | .foundationReady _ _ _ => true
  | .bar4ImageWrite o d => decide (o + d.length ≤ 0x4000000)
  | .go n => decide (n < 0x4000000)
  | .abort => true
  | .imgWrite _ d => decide (1 ≤ d.length ∧ d.length ≤ 240)
  | .imgGo _ | .imgStatus | .imgAbort | .bootReqTimer => true
  | .bootData _ _ d => decide (1 ≤ d.length ∧ d.length ≤ 2048)
  | .claimTimeout | .imageVerified _ | .hooksStarted _ | .castOnReady _ _ _ _ => true

end Sys2Proof
end

