-- ==== Sys2Proof/Tests/Slice0.lean ====
section
/-! SUPPORT. The model's own tests: ill-formed commands, the worked examples of the spec, and for each obligation with hypotheses a
state and operands that meet them. -/

namespace Sys2Proof.Tests

open Sys2Proof Sys2Proof.Machine

set_option Elab.async false

/-! ### Ill-formed commands are refused, one for each check -/

/-- A register write. -/
def regW (link size : Nat) : RegWrite := { link := link, size := size, hi := false, aligned := true, value := 0 }
/-- A doorbell write. -/
def dbW (link slice : Nat) : DbWrite := { link := link, slice := slice, aligned8 := true, value := 0 }
/-- A packet with a payload of `n` bytes. -/
def pktOf (lport n : Nat) : ErtPkt :=
  { lport := lport, src := 0, dport := 0, csumOk := true, ce := false, payload := List.replicate n 0
    hdr := { ver := 1, op := 0, tc := 0, path := 0, flags := 0, poison := false, psn := 0, msgId := 0, dstQpn := 0
             offsetLen := 0, window := 0, imm := 0, stamp := 0 } }

theorem test_wf_link : Instr.wf (.linkLossTimeout 3) = true ∧ Instr.wf (.linkLossTimeout 4) = false := by decide
theorem test_wf_module : Instr.wf (.badFlit 23) = true ∧ Instr.wf (.badFlit 24) = false := by decide
theorem test_wf_die : Instr.wf (.telemetry 3 0) = true ∧ Instr.wf (.telemetry 4 0) = false := by decide
theorem test_wf_port : Instr.wf (.netPortCfg 11 (regW 0 8)) = true ∧ Instr.wf (.netPortCfg 12 (regW 0 8)) = false := by decide
theorem test_wf_lport : Instr.wf (.subportDown 95) = true ∧ Instr.wf (.subportDown 96) = false := by decide
theorem test_wf_lane : Instr.wf (.laneFail 0 7) = true ∧ Instr.wf (.laneFail 0 8) = false := by decide
theorem test_wf_queue : Instr.wf (.queueFree 65535) = true ∧ Instr.wf (.queueFree 65536) = false := by decide
theorem test_wf_idx : Instr.wf (.copy 0 16777215) = true ∧ Instr.wf (.copy 0 16777216) = false := by decide
theorem test_wf_qpn : Instr.wf (.deliver 131071) = true ∧ Instr.wf (.deliver 131072) = false := by decide
theorem test_wf_slice : Instr.wf (.sliceFree 511) = true ∧ Instr.wf (.sliceFree 512) = false := by decide
theorem test_wf_ctx : Instr.wf (.contextFree 4095) = true ∧ Instr.wf (.contextFree 4096) = false := by decide
theorem test_wf_source : Instr.wf (.escalationTimer 59 false) = true ∧ Instr.wf (.escalationTimer 60 false) = false := by decide
theorem test_wf_unit : Instr.wf (.unitResetDone 0 63) = true ∧ Instr.wf (.unitResetDone 0 64) = false := by decide
theorem test_wf_tracker : Instr.wf (.rxStalled 16383) = true ∧ Instr.wf (.rxStalled 16384) = false := by decide
theorem test_wf_mailbox : Instr.wf (.devInfo (.slice 511)) = true ∧ Instr.wf (.devInfo (.slice 512)) = false := by decide
theorem test_wf_register : Instr.wf (.dlRoute (regW 0 4)) = true ∧ Instr.wf (.dlRoute (regW 0 2)) = false := by decide
theorem test_wf_doorbell : Instr.wf (.ssuSqDb (dbW 3 511)) = true ∧ Instr.wf (.ssuSqDb (dbW 3 512)) = false := by decide
theorem test_wf_push :
    Instr.wf (.ssuPush { link := 0, slice := 0, aligned64 := true, words := List.replicate 8 0 }) = true ∧
      Instr.wf (.ssuPush { link := 0, slice := 0, aligned64 := true, words := [0] }) = false := by decide
theorem test_wf_packet : Instr.wf (.write (pktOf 95 4)) = true ∧ Instr.wf (.write (pktOf 96 4)) = false := by decide
theorem test_wf_payload : Instr.wf (.write (pktOf 0 8192)) = true ∧ Instr.wf (.write (pktOf 0 8193)) = false := by decide +kernel
theorem test_wf_roce :
    Instr.wf (.cnp { lport := 0, src := 0, dscp := 0, icrcOk := true, ce := false, kind := .other, psn := 0, dstQp := 0, va := 0
                     rkey := 0, dmaLen := 0, imm := 0, swapAdd := 0, compare := 0, payload := List.replicate 4097 0 }) = false := by
  decide +kernel
theorem test_wf_ring :
    Instr.wf (.descriptorFetch 0 (.words (List.replicate 8 0))) = true ∧ Instr.wf (.descriptorFetch 0 (.words (List.replicate 9 0))) = false := by
  decide
theorem test_wf_reread : Instr.wf (.rowReread 0 8 .error) = true ∧ Instr.wf (.rowReread 0 9 .error) = false := by decide
theorem test_wf_walk : Instr.wf (.walkDone 255 .failed) = true ∧ Instr.wf (.walkDone 256 .failed) = false := by decide
theorem test_wf_fault_entry : Instr.wf (.faultTimeout 65535) = true ∧ Instr.wf (.faultTimeout 65536) = false := by decide
theorem test_wf_mo : Instr.wf (.moRetired 1048575) = true ∧ Instr.wf (.moRetired 1048576) = false := by decide
theorem test_wf_window : Instr.wf (.windowFreed 262143) = true ∧ Instr.wf (.windowFreed 262144) = false := by decide
theorem test_wf_way : Instr.wf (.wayDisable 1 15) = true ∧ Instr.wf (.wayDisable 1 16) = false := by decide
theorem test_wf_direct : Instr.wf (.directLd 0 0 0 0 256) = true ∧ Instr.wf (.directLd 0 0 0 0 257) = false := by decide
theorem test_wf_rail : Instr.wf (.railsInTolerance 5 0) = true ∧ Instr.wf (.railsInTolerance 6 0) = false := by decide
theorem test_wf_image_write : Instr.wf (.imgWrite 0 (List.replicate 240 0)) = true ∧ Instr.wf (.imgWrite 0 []) = false := by
  decide +kernel

/-- No row of the table gives its command bits (opcode_table.json: `fields` is empty in every row). -/
theorem test_no_word_spells_a_command : decodeTableWord 64 0xFFFFFFFFFFFFFFFF = none := by decide

/-! ### States and operands of the tests -/

theorem taken_db {s : State} {link slice ctx : Nat} (h1 : s.fc.dstate = .normal) (h2 : pageActive s link slice = true)
    (h3 : dbCtxOk s ctx slice = true) : dbTaken s link slice ctx := ⟨h1, h2, h3⟩
theorem taken_reg {s : State} {w : RegWrite} (h1 : s.fc.dstate = .normal) (h2 : w.link = mgrLink s) (h3 : w.aligned = true) : regTaken s w :=
  ⟨h1, h2, h3⟩
theorem starts_now {s : State} {sq idx opcode : Nat} {o : Op} (h1 : s.op sq idx = some o) (h2 : o.opcode = opcode)
    (h3 : mayStart s sq idx = true) (h4 : admitted (s.ctx o.ctx) = true)
    (h5 : dSbWait (o.w 0) = false ∨ (localSq s o.ctx (dSbQueue (o.w 0))).isSome = true) (h6 : o.stale = none) (h7 : qpGate s o = .run)
    (h8 : schedTurn s sq = true := by decide +kernel) : startsNow s sq idx opcode o := ⟨h1, h2, h3, h8, h4, h5, h6, h7⟩
theorem admitted_cmd {s : State} {mb : Mbox} {k : Cmd} {c : Caller} {a : List Word} (h1 : (s.mbox (mbNum mb)).running = true)
    (h2 : fld ((s.mbox (mbNum mb)).req.getD 0 0) 15 0 = k.opcode) (h3 : s.fc.dstate = .normal) (h4 : mbLive s (mbNum mb) = true)
    (h5 : a = (s.mbox (mbNum mb)).req.drop 2) (h6 : cmdCaller s (mbNum mb) k ((s.mbox (mbNum mb)).req.getD 0 0) = .inl c)
    (h7 : fld ((s.mbox (mbNum mb)).req.getD 0 0) 31 16 % 8 = 0) (h8 : fld ((s.mbox (mbNum mb)).req.getD 0 0) 31 16 ≤ 8 * k.len a) :
    cmdAdmitted s mb k c a := ⟨h1, h2, h3, h4, h5, h6, h7, h8⟩
theorem taken_roce {s : State} {p : RocePkt} (h1 : s.fc.dstate = .normal) (h2 : 0x20000 ≤ p.dstQp.toNat)
    (h3 : (Tab.get s.qps (p.dstQp.toNat - 0x20000)).isSome = true) (h4 : p.icrcOk = true) (h5 : (s.qp (p.dstQp.toNat - 0x20000)).mode = .roce)
    (h6 : (s.qp (p.dstQp.toNat - 0x20000)).remoteAddrs.contains p.src = true)
    (h7 : (s.qp (p.dstQp.toNat - 0x20000)).st = .active ∨ (s.qp (p.dstQp.toNat - 0x20000)).st = .held)
    (h8 : roceNoRoom (count 524 (32 * p.lport + 1) s) p = false := by decide +kernel) : roceTaken s p :=
  ⟨h1, h8, h2, h3, h4, h5, h6, h7⟩

/-- A card that is READY, with slice 0 on link 0, context 0 and its panel of all HBM. -/
def up : State :=
  { castOn := { powered := true, rails := 5, measured := true, st := .ready }
    fnd := { ready := true, accepted := true }, hooksUp := true, hbmGib := 64
    slices := [(0, { st := .active, gen := 1, link := 0, msixBase := 16, msixCount := 16, rights := 0xFF, targets := 7
                     quota := [16, 16, 16, 16, 16, 16, 16, 16, 16, 16, 16] })]
    ctxs := [(0, { st := .active, epoch := 1, slice := 0 })] }
/-- A doorbell of slice 0 for queue 0. -/
def db (v : Nat) : DbWrite := { link := 0, slice := 0, aligned8 := true, value := BitVec.ofNat 64 v }
/-- A state with one SQ, numbered 0. -/
def withSq (q : Sq) : State := { up with sqs := [(0, q)] }
/-- A state with one CQ, numbered 0. -/
def withCq (q : Cq) : State := { up with cqs := [(0, q)] }
/-- A descriptor of an opcode, with the words after W0. -/
def desc (opcode : Nat) (ws : List Word := []) : Op := { ws := BitVec.ofNat 64 opcode :: ws }
/-- A state with one operation, at slot 0 of queue 0. -/
def withOp (o : Op) : State := { withSq { st := .active, size := 16, pi := 1, fi := 1 } with ops := [(0, o)] }
/-- A register write of eight bytes on the manager link. -/
def wr (v : Nat) : RegWrite := { link := 0, size := 8, hi := false, aligned := true, value := BitVec.ofNat 64 v }

/-- The descriptor of a passed check. -/
def okOp : Chk × State → Op
  | (.ok o, _) => o
  | _ => { ws := [] }

/-- What a passed check is, in terms of its descriptor. -/
theorem okOp_ok {x : Chk × State} (h : (match x.1 with | .ok _ => true | _ => false) = true) : x = (.ok (okOp x), x.2) := by
  obtain ⟨c, s⟩ := x
  cases c <;> first | rfl | cases h

/-- Object 1 and window 1, over the first 4 KiB of context 0's panel of HBM. -/
def netUp : State :=
  { up with
    ctxs := [(0, { st := .active, epoch := 1, slice := 0, panels := [(0, { p0 := 0x13F01 })] })]
    mos := [(1, { gen := 1, st := .valid, len := 4096, rights := 0x3F })]
    wins := [(1, { gen := 1, st := .valid, mo := moHandle 1 1, len := 4096, rights := 0xF })] }
/-- An ERT QP, numbered 5, in service. -/
def ertQp : Qp := { st := .active, remoteAddrs := [9], rxMo := moHandle 1 1, needle := some 3, rcvPsn0 := 0 }
/-- A state with that QP, and CQ 0 for its receive ring. -/
def netQp (q : Qp) : State := { netUp with qps := [(5, q)], cqs := [(0, { active := true, size := 16 })] }
/-- A packet for QP 5. -/
def pk (op : BitVec 4) (flags : BitVec 8) (offLen : BitVec 48) (window imm : BitVec 32) (payload : List Byte) : ErtPkt :=
  { lport := 0, src := 9, dport := 0, csumOk := true, ce := false
    hdr := { ver := 1, op := op, tc := 0, path := 0, flags := flags, poison := false, psn := 0, msgId := 1, dstQpn := 5
             offsetLen := offLen, window := window, imm := imm, stamp := 0 }
    payload := payload }
/-- The bytes of words, most significant first. -/
def be (ws : List Nat) : List Byte := ws.flatMap (fun w => beBytes 8 w)
/-- What an option holds. -/
def got {α : Type} (x : Option (α × State)) (d : α) : α × State := x.getD (d, {})

theorem never {α : Type} {o : Option α} {P : α → Prop} (h : o = none) : ∀ k, o = some k → P k := by
  intro k hk; rw [h] at hk; cases hk

/-- What a choice of the next packet holds. -/
def gotEg (x : Option (Nat × TxEntry × Tab Nat)) : Nat × TxEntry × Tab Nat := x.getD (0, { kind := .control, tc := 0, bytes := 0, frame := .pfc 0 false }, [])

/-- A command running in a mailbox, with its arguments. -/
def ask (mb : Nat) (k : Cmd) (args : List Word) (s : State) : State :=
  { s with mailboxes := [(mb, {
      running := true, started := false
      req := [BitVec.ofNat 64 (k.opcode + 8 * args.length * 2 ^ 16 + (if mb = 512 then 0x1FF else mb) * 2 ^ 48), 0] ++ args })] }

/-- The record a mailbox command's marker argument names. -/
def markGot : MarkGot → MarkRef
  | .ok r => r
  | _ => { mo := 0, off := 0, key := 0 }
/-- The next state of an outcome. -/
def after : Host.Outcome State Fault Refusal → State
  | .next s => s
  | _ => {}
/-- A WEIGHTS header with one device entry and one plain byte (R430, R437). -/
def bundleHead : List Byte :=
  leBytes 4 0x53544E4F ++ [2, 2, 0, 0] ++ leBytes 8 337 ++ leBytes 8 1 ++ leBytes 8 1 ++ leBytes 8 1 ++ zeros 8 ++ zeros 272
/-- A load that runs on a decryption unit. -/
def aLoad : Load :=
  { slice := 0, ctx := 0, mo := 0, dst := 0, dpas := [], plainLen := 1, bundleId := 1, header := bundleHead, sealRuns := false
    done := none, seq := 0, running := some 0 }
/-- A card on which native boot may run on port 0. -/
def bootCard (c : CastOn) : State :=
  { castOnFuse := 0x200, fnd := { ready := true }, castOn := { c with bootPort := true }, lports := [(0, { train := .up })] }

theorem legal_all {vs : List Word} (h : vs.all (fun v => decide (v.toNat < 2 ^ 63)) = true) : ∀ v ∈ vs, legalSignal v := by
  simpa [legalSignal] using h

/-! ### Worked examples of the spec -/

/-- The SQ of 03's example of a doorbell ahead of its descriptor. -/
def exampleSq (f : Fetch) : State :=
  { up with
    ctxs := [(0, { st := .active, epoch := 1, slice := 0, panels := [(0, { p0 := 0x13F01 })] })]
    sqs := [(0x123, { st := .active, size := 1024, pi := 0x4A18, fi := 0x4A17, fetch := f })] }

/-- 03, "a doorbell ahead of its descriptor": ROW 0x4617 does not match, and the re-reads are scheduled. -/
theorem test_row_mismatch_is_reread :
    ((after (exec (.descriptorFetch 0x123 (.words (0x46170000 :: List.replicate 7 0))) (exampleSq (.reading 1)))).sq 0x123).fetch = .reread 1 0 := by
  decide +kernel

/-- 03, the same: re-read 2 returns ROW 0x4A17, and FI becomes 0x00_4A18. -/
theorem test_row_reread_is_accepted :
    ((after (exec (.rowReread 0x123 2 (.words (0x4A170000 :: List.replicate 7 0))) (exampleSq (.reread 1 1)))).sq 0x123).fi = 0x4A18 := by
  decide +kernel

/-- 02, "one marker through an error": 20, 10, 30, then PARTIAL with ROW 0x01A3, then 50. -/
def exampleMarker : Marker := (signalRecord (errorRecord (signals {} [20, 10, 30]) mePartial 0x01A3) 50).2

theorem test_marker_through_an_error :
    exampleMarker.value = 30 ∧ exampleMarker.status = 0x01A30002 ∧ exampleMarker.ooo = 1 ∧ exampleMarker.flags = 4 := by decide

/-- The same marker's waits: 30 is satisfied, 40 fails. -/
theorem test_waits_on_that_marker : waitState exampleMarker 30 = .satisfied ∧ waitState exampleMarker 40 = .failed := by decide

/-- 03, "a 64 MiB copy with one bad extent": sixteen extents of 4 MiB. -/
theorem test_extents_of_64_mib :
    (desc 0x01 [0x4000000 * 2 ^ 16]).splits.map (·.len) = List.replicate 16 4194304 := by decide

/-- 03, the same: a WRITE_REMOTE of 1,000,000 B. -/
theorem test_extents_of_a_million_bytes :
    (desc 0x10 [1000000 * 2 ^ 16]).splits.map (·.len) = [262144, 262144, 262144, 213568] := by decide

/-- The panel of 04's example of a translation that spans two pages, with the entries of its pages 5, 6 and 7. -/
def exampleChart : State :=
  { up with
    ctxs := [(0, { st := .active, panels := [(2, { p0 := 0x83F09, p1 := 0x4000000000, p2 := 0x123400000 })] })]
    xlt := { cache := [⟨0, 2, 5, 0, 0x000000037E00000F⟩, ⟨0, 2, 6, 0, 0x000000038000000F⟩, ⟨0, 2, 7, 0, 0x000000030000000F⟩] } }

/-- 04, "a translation that spans two pages": 33,554,496 B from DPA 0x0003_7FFF_FFC0. -/
theorem test_two_pages :
    (match translate exampleChart .prefetch { ctx := 0, cva := 0x400BFFFFC0, len := 256, kind := .read } with
      | .ok e => (e.base, e.len)
      | _ => (0, 0)) = (0x37FFFFFC0, 33554496) := by decide +kernel

/-- The inputs of 08's example of one MX block: 0x4078, 0x4040, 0x3C28, 0xC040 and +0. -/
def exampleMx : List Sys2Proof.Machine.Num := ([0x4078, 0x4040, 0x3C28, 0xC040] ++ List.replicate 28 0).map (decodeFloat fmtBf16)

/-- 08, "one MX block, both roundings": with SAT, and without. -/
theorem test_mx_block :
    mxBlock 5 true exampleMx (List.replicate 32 none) = (120, [0x7E, 0x7C, 0x3A, 0xFC] ++ List.replicate 28 0) ∧
      mxBlock 5 false exampleMx (List.replicate 32 none) = (120, [0x7F, 0x7C, 0x3A, 0xFC] ++ List.replicate 28 0) := by
  decide +kernel

/-- 08, the same: with STOCH, element 2 rounds up from r = 32,768. -/
theorem test_mx_stochastic :
    (mxBlock 5 true exampleMx (List.replicate 32 (some 32768))).2.getD 2 0 = 0x3B ∧
      (mxBlock 5 true exampleMx (List.replicate 32 (some 32767))).2.getD 2 0 = 0x3A := by decide +kernel

/-- The block of 08's example of BF16 KV data, with one element of exponent 125 and the others of 118. -/
def exampleBf16 : List Byte := ([0xBDA3, 0x3C28, 0x3B00, 0x3E80] ++ List.replicate 252 0x3B00).flatMap (fun v => leBytes 2 v)

/-- 08, "one BF16 block of KV data": header, sign-and-mantissa ply, exponent ply and length. -/
theorem test_ply_block :
    let b := plyEncode 0 false exampleBf16
    b.take 7 = [0x31, 0x76, 0xFF, 0x00, 0xA3, 0x28, 0x00] ∧ (b.getD 260 0).toNat % 64 = 0x15 ∧ b.length = 356 := by decide +kernel

/-- 09: 1.0, 2^24 and 1.0 give the partial 0x4B80_0001, in either order. -/
theorem test_partial_is_order_free :
    partEncode false 0 0 (([0x3F800000, 0x4B800000, 0x3F800000].map (decodeFloat fmtFp32)).foldl (LongRow.fold 0) {}) = leBytes 4 0x4B800001 ∧
      partEncode false 0 0 (([0x4B800000, 0x3F800000, 0x3F800000].map (decodeFloat fmtFp32)).foldl (LongRow.fold 0) {}) = leBytes 4 0x4B800001 := by
  decide +kernel

/-- 09, "64-member all-reduce": in chunk 5, rank 5 has children 6-21, and rank 40's parent is rank 7. -/
theorem test_collective_tree :
    pcTree (desc 0x21) 64 16 5 5 = (none, (List.range 16).map (· + 6)) ∧ pcTree (desc 0x21) 64 16 5 40 = (some 7, []) := by decide

/-- 07, "Aran-88 prefill to decode": LAYER_BYTES of 512 blocks of 131,072 B from BF16 to MXFP8. -/
theorem test_layer_bytes : 512 * fmtBytes 5 (fmtElems 1 131072) = 34603008 := by decide

/-- 06, "three slices into one decode device": SHARED and the tracker guarantee of slice A. -/
theorem test_tracker_pool :
    let s : State := { slices := [(0, { quota := [0, 0, 0, 0, 0, 0, 0, 0, 0, 256] })] }
    trkShared s = 12288 ∧ trkGuar s 0 = 3072 := by decide

/-- 05, "last packet first": window 0x0084_1F40 has index 0x1F40 and generation 0x21. -/
theorem test_window_handle : winIndex 0x00841F40 = 0x1F40 ∧ winGen 0x00841F40 = 0x21 := by decide

/-- 15, "cleaning one QP's record": both lines lie in set 0x005, one in each half. -/
theorem test_qp_record_lines :
    scHome ((0x07000000 + 512 * 0x12005) / 256) = (0, 5) ∧ scHome ((0x07000000 + 512 * 0x12005) / 256 + 1) = (1, 5) := by decide

/-- The dies of 17's example of a loop and an over-current. -/
def exampleDies : State :=
  { up with
    gov := { envelope := 1600000, telem := [(0, [280000]), (1, [300000]), (2, [260000]), (3, [320000])] }
    dies := [0, 1, 2, 3].map (fun p => (p, { attached := true, heard := true, budget := 300000 })) }

/-- 17, "a loop and an over-current": the budgets that the loop gives. -/
theorem test_governor_loop :
    [0, 1, 2, 3].map (fun p => ((after (exec (.governorLoop [185000] 1800) exampleDies)).die p).budget) = [334500, 357000, 312000, 379500] := by
  decide +kernel

/-- 17, the same: an OC_ALERT cuts the budgets to 75 %, in steps of 10 mW. -/
theorem test_over_current :
    let s := after (exec (.ocAlert 0 0 false) { up with dies := [(0, { attached := true, budget := 334500 }), (3, { attached := true, budget := 379500 })] })
    (s.die 0).budget = 250870 ∧ (s.die 3).budget = 284620 := by decide +kernel

/-! ### Witnesses: one theorem for each obligation with hypotheses, one conjunct for each clause -/

/-- What meets the hypotheses of each clause of `Obligations.StepRunsTheFrontCommand`. -/
theorem wit_StepRunsTheFrontCommand :
    (∃ s : State, s.pending = []) :=
  ⟨State.reset, by decide +kernel⟩

/-- What meets the hypotheses of each clause of `Obligations.SqDoorbellTakesAStaleOrHolds`. -/
theorem wit_SqDoorbellTakesAStaleOrHolds :
    (∃ w : DbWrite, ∃ s : State, let n := fld w.value 15 0; let q := s.sq n; w.aligned8 = true ∧ q.st ≠ .free ∧
        pageActive s w.link w.slice = true ∧ dbCtxOk s q.ctx w.slice = true ∧ s.fc.dstate = .normal ∧ q.st = .active) ∧
    (∃ w : DbWrite, ∃ s : State, let n := fld w.value 15 0; let q := s.sq n; w.aligned8 = true ∧ q.st ≠ .free ∧
        pageActive s w.link w.slice = true ∧ dbCtxOk s q.ctx w.slice = true ∧ s.fc.dstate = .normal ∧ q.st = .closed) ∧
    (∃ w : DbWrite, ∃ s : State,
        let n := fld w.value 15 0; let pi := BitVec.ofNat 24 (fld w.value 39 16); let q := s.sq n; w.aligned8 = true ∧
        q.st ≠ .free ∧ pageActive s w.link w.slice = true ∧ dbCtxOk s q.ctx w.slice = true ∧ s.fc.dstate = .normal ∧
        q.st = .held ∧ ((q.cause = .doorbellAhead ∨ q.cause = .ringRead)) ∧
        ((2 ^ 23 ≤ ringDiff pi q.fi ∨ ringDiff pi q.fi ≤ ringDiff q.pi q.fi))) ∧
    (∃ w : DbWrite, ∃ s : State, let n := fld w.value 15 0; let q := s.sq n; w.aligned8 = true ∧ q.st ≠ .free ∧
        pageActive s w.link w.slice = true ∧ dbCtxOk s q.ctx w.slice = true ∧ s.fc.dstate = .reinit) :=
  ⟨⟨db 0x140000, withSq { st := .active, size := 16, pi := 8, fi := 4 }, by decide +kernel⟩,
   ⟨db 0x140000, withSq { st := .closed, size := 16 }, by decide +kernel⟩,
   ⟨db 0x040000, withSq { st := .held, cause := .doorbellAhead, size := 16, pi := 8, fi := 4 }, by decide +kernel⟩,
   ⟨db 0x140000, { withSq { st := .active, size := 16, pi := 8, fi := 4 } with fc := { dstate := .reinit } }, by decide +kernel⟩⟩

/-- What meets the hypotheses of each clause of `Obligations.CqDoorbellMovesTheConsumerOrIsDropped`. -/
theorem wit_CqDoorbellMovesTheConsumerOrIsDropped :
    (∃ w : DbWrite, ∃ s : State,
        let n := fld w.value 15 0; let c := BitVec.ofNat 24 (fld w.value 39 16); let q := s.cq n; w.aligned8 = true ∧
        q.active = true ∧ dbTaken s w.link w.slice q.ctx ∧ ringDiff c q.c ≤ ringDiff q.w q.c) ∧
    (∃ w : DbWrite, ∃ s : State,
        let n := fld w.value 15 0; let c := BitVec.ofNat 24 (fld w.value 39 16); let q := s.cq n; w.aligned8 = true ∧
        q.active = true ∧ dbTaken s w.link w.slice q.ctx ∧ ringDiff q.w q.c < ringDiff c q.c) :=
  ⟨⟨db 0x040000, withCq { active := true, size := 16, w := 4, c := 0 }, by decide +kernel, by decide +kernel,
      taken_db rfl rfl rfl, by decide +kernel⟩,
   ⟨db 0x050000, withCq { active := true, size := 16, w := 4, c := 0 }, by decide +kernel, by decide +kernel,
       taken_db rfl rfl rfl, by decide +kernel⟩⟩

/-- What meets the hypotheses of each clause of `Obligations.DroppedDoorbellOnlyCounts`. -/
theorem wit_DroppedDoorbellOnlyCounts :
    (∃ w : DbWrite, ∃ s : State, s.fc.dstate = .normal ∧ pageActive s w.link w.slice = true ∧
        ((w.aligned8 = false ∨ (s.ctx (s.sq (fld w.value 15 0)).ctx).st = .draining ∨ (s.ctx (s.sq (fld w.value 15 0)).ctx).st = .free))) ∧
    (∃ w : DbWrite, ∃ s : State, s.fc.dstate = .normal ∧ pageActive s w.link w.slice = true ∧
        ((w.aligned8 = false ∨ (s.ctx (s.cq (fld w.value 15 0)).ctx).st = .draining ∨ (s.ctx (s.cq (fld w.value 15 0)).ctx).st = .free))) ∧
    (∃ w : DbWrite, ∃ s : State, s.fc.dstate = .normal ∧ pageActive s w.link w.slice = true ∧ w.aligned8 = false) :=
  ⟨⟨{ db 0 with aligned8 := false }, up, by decide +kernel⟩,
   ⟨db 0, { up with ctxs := [] }, by decide +kernel⟩,
   ⟨{ db 0 with aligned8 := false }, up, by decide +kernel⟩⟩

/-- What meets the hypotheses of each clause of `Obligations.PushDoorbellExecutesTheCopyOrRings`. -/
theorem wit_PushDoorbellExecutesTheCopyOrRings :
    (∃ w : PushWrite, ∃ s : State,
        let d := w.words.getD 0 0; let n := dQueue d; let q := s.sq n; let rel := (dRow d + 65536 - q.fi.toNat % 65536) % 65536; w.aligned64 = true ∧
        w.words.length = 8 ∧ q.st ≠ .free ∧ dbTaken s w.link w.slice q.ctx ∧ 2 ^ 15 ≤ rel) ∧
    (∃ w : PushWrite, ∃ s : State,
        let d := w.words.getD 0 0; let n := dQueue d; let q := s.sq n; let rel := (dRow d + 65536 - q.fi.toNat % 65536) % 65536; w.aligned64 = true ∧
        w.words.length = 8 ∧ q.st ≠ .free ∧ dbTaken s w.link w.slice q.ctx ∧ rel = 0 ∧ q.st = .active ∧ q.pi = q.fi ∧
        dExt d = false ∧ q.fetch = .idle ∧ storeRoom s n = true ∧ admitted (s.ctx q.ctx) = true) ∧
    (∃ w : PushWrite, ∃ s : State,
        let d := w.words.getD 0 0; let n := dQueue d; let q := s.sq n; let rel := (dRow d + 65536 - q.fi.toNat % 65536) % 65536; w.aligned64 = true ∧
        w.words.length = 8 ∧ q.st ≠ .free ∧ dbTaken s w.link w.slice q.ctx ∧ rel < 2 ^ 15 ∧
        ((q.st ≠ .active ∨ q.pi ≠ q.fi ∨ rel ≠ 0 ∨ dExt d = true ∨ q.fetch ≠ .idle))) :=
  ⟨⟨{ link := 0, slice := 0, aligned64 := true, words := [BitVec.ofNat 64 (32771 * 2 ^ 16 + 0 * 2 ^ 12), 0, 0, 0, 0, 0, 0, 0] },
      withSq { st := .active, size := 16, pi := 3, fi := 3 }, by decide +kernel, by decide +kernel, by decide +kernel,
      taken_db rfl rfl rfl, by decide +kernel⟩,
   ⟨{ link := 0, slice := 0, aligned64 := true, words := [BitVec.ofNat 64 (3 * 2 ^ 16 + 0 * 2 ^ 12), 0, 0, 0, 0, 0, 0, 0] },
       withSq { st := .active, size := 16, pi := 3, fi := 3 }, by decide +kernel, by decide +kernel, by decide +kernel,
       taken_db rfl rfl rfl, by decide +kernel⟩,
   ⟨{ link := 0, slice := 0, aligned64 := true, words := [BitVec.ofNat 64 (32770 * 2 ^ 16 + 0 * 2 ^ 12), 0, 0, 0, 0, 0, 0, 0] },
       withSq { st := .active, size := 16, pi := 3, fi := 3 }, by decide +kernel, by decide +kernel, by decide +kernel,
       taken_db rfl rfl rfl, by decide +kernel⟩⟩

/-- What meets the hypotheses of each clause of `Obligations.RingReadTakesRereadsOrHolds`. -/
theorem wit_RingReadTakesRereadsOrHolds :
    (∃ sq k : Nat, ∃ s : State, (s.sq sq).fetch = .reading k ∧ s.fc.dstate = .normal ∧ sqFetches (s.sq sq) = true ∧
        (∃ ws : List Word, ws.length = 8 * k)) ∧
    (∃ sq k : Nat, ∃ s : State, (s.sq sq).fetch = .reading k ∧ s.fc.dstate = .normal ∧ sqFetches (s.sq sq) = false) ∧
    (∃ sq slots seen : Nat, ∃ s : State, (s.sq sq).fetch = .reread slots seen ∧ s.fc.dstate = .normal ∧ sqFetches (s.sq sq) = true ∧
        (∃ ws : List Word, ws.length = 8 * slots ∧ rowOk ws (s.sq sq).fi = true ∧ wantsSecond ws = false)) ∧
    (∃ sq slots seen : Nat, ∃ s : State, (s.sq sq).fetch = .reread slots seen ∧ s.fc.dstate = .normal ∧ sqFetches (s.sq sq) = true ∧
        (∃ ws : List Word, ws.length = 8 * slots ∧ rowOk ws (s.sq sq).fi = false ∧ seen < 7)) ∧
    (∃ sq slots seen : Nat, ∃ s : State, (s.sq sq).fetch = .reread slots seen ∧ s.fc.dstate = .normal ∧ sqFetches (s.sq sq) = true ∧
        (∃ ws : List Word, ws.length = 8 * slots ∧ rowOk ws (s.sq sq).fi = false ∧ 7 ≤ seen)) :=
  ⟨⟨0, 1, withSq { st := .active, size := 16, pi := 1, fetch := .reading 1 }, by decide +kernel, by decide +kernel, by decide +kernel,
      List.replicate 8 0, by decide +kernel⟩,
   ⟨0, 1, withSq { st := .held, size := 16, pi := 1, fetch := .reading 1 }, by decide +kernel⟩,
   ⟨0, 1, 6, withSq { st := .active, size := 16, pi := 1, fetch := .reread 1 6 }, by decide +kernel, by decide +kernel, by decide +kernel,
       List.replicate 8 0, by decide +kernel⟩,
   ⟨0, 1, 6, withSq { st := .active, size := 16, pi := 1, fetch := .reread 1 6 }, by decide +kernel, by decide +kernel, by decide +kernel,
       List.replicate 8 (0x10000 : Word), by decide +kernel⟩,
   ⟨0, 1, 7, withSq { st := .active, size := 16, pi := 1, fetch := .reread 1 7 }, by decide +kernel, by decide +kernel, by decide +kernel,
       List.replicate 8 (0x10000 : Word), by decide +kernel⟩⟩

/-- Two queues of slice 0 with a descriptor each, of which queue 0 started last. -/
def twoQueues : State :=
  let q : Sq := { st := .active, size := 16, pi := 1, fi := 1 }
  { up with slices := [(0, { st := .active, gen := 1, credit := 1, lastSq := 0 })], sqs := [(0, q), (1, q)]
            ops := [(0, desc 0x00), (16777216, desc 0x00)] }

/-- What meets the hypotheses of each clause of `Obligations.StartedDescriptorsRunTheirExtents`. -/
theorem wit_StartedDescriptorsRunTheirExtents :
    (∃ s : State, ∃ sq : Nat, ∃ idx : Nat, ∃ o : Op, startsNow s sq idx 0x00 o) ∧
    (∃ s : State, ∃ sq : Nat, ∃ idx : Nat, ∃ o : Op, startsNow s sq idx 0x01 o) ∧
    (∃ s : State, ∃ sq : Nat, ∃ idx : Nat, ∃ o : Op, startsNow s sq idx 0x02 o) ∧
    (∃ s : State, ∃ sq : Nat, ∃ idx : Nat, ∃ o : Op, startsNow s sq idx 0x03 o) ∧
    (∃ s : State, ∃ sq : Nat, ∃ idx : Nat, ∃ o : Op, startsNow s sq idx 0x10 o) ∧
    (∃ s : State, ∃ sq : Nat, ∃ idx : Nat, ∃ o : Op, startsNow s sq idx 0x11 o) ∧
    (∃ s : State, ∃ sq : Nat, ∃ idx : Nat, ∃ o : Op, startsNow s sq idx 0x12 o) ∧
    (∃ s : State, ∃ sq : Nat, ∃ idx : Nat, ∃ o : Op, startsNow s sq idx 0x18 o) ∧
    (∃ s : State, ∃ sq : Nat, ∃ idx : Nat, ∃ o : Op, startsNow s sq idx 0x19 o) ∧
    (∃ s : State, ∃ sq : Nat, ∃ idx : Nat, ∃ o : Op, startsNow s sq idx 0x30 o ∧ earlierDone s sq idx = true ∧
        dWindow (o.w 5) = 0) ∧
    (∃ s : State, ∃ sq : Nat, ∃ idx : Nat, ∃ o : Op, startsNow s sq idx 0x30 o ∧ earlierDone s sq idx = true ∧
        dWindow (o.w 5) ≠ 0) ∧
    (∃ s : State, ∃ sq : Nat, schedTurn s sq = false) ∧
    (∃ s : State, ∀ x ∈ runnableSlices s, (s.slice x).credit = 0) :=
  ⟨⟨withOp (desc 0x00), 0, 0, desc 0x00,
      starts_now rfl rfl (by decide +kernel) (by decide +kernel) (by decide +kernel) rfl (by decide +kernel)⟩,
   ⟨withOp (desc 0x01), 0, 0, desc 0x01,
       starts_now rfl rfl (by decide +kernel) (by decide +kernel) (by decide +kernel) rfl (by decide +kernel)⟩,
   ⟨withOp (desc 0x02), 0, 0, desc 0x02,
       starts_now rfl rfl (by decide +kernel) (by decide +kernel) (by decide +kernel) rfl (by decide +kernel)⟩,
   ⟨withOp (desc 0x03), 0, 0, desc 0x03,
       starts_now rfl rfl (by decide +kernel) (by decide +kernel) (by decide +kernel) rfl (by decide +kernel)⟩,
   ⟨withOp (desc 0x10), 0, 0, desc 0x10,
       starts_now rfl rfl (by decide +kernel) (by decide +kernel) (by decide +kernel) rfl (by decide +kernel)⟩,
   ⟨withOp (desc 0x11), 0, 0, desc 0x11,
       starts_now rfl rfl (by decide +kernel) (by decide +kernel) (by decide +kernel) rfl (by decide +kernel)⟩,
   ⟨withOp (desc 0x12), 0, 0, desc 0x12,
       starts_now rfl rfl (by decide +kernel) (by decide +kernel) (by decide +kernel) rfl (by decide +kernel)⟩,
   ⟨withOp (desc 0x18), 0, 0, desc 0x18,
       starts_now rfl rfl (by decide +kernel) (by decide +kernel) (by decide +kernel) rfl (by decide +kernel)⟩,
   ⟨withOp (desc 0x19), 0, 0, desc 0x19,
       starts_now rfl rfl (by decide +kernel) (by decide +kernel) (by decide +kernel) rfl (by decide +kernel)⟩,
   ⟨withOp (desc 0x30), 0, 0, desc 0x30,
       starts_now rfl rfl (by decide +kernel) (by decide +kernel) (by decide +kernel) rfl (by decide +kernel), by decide +kernel⟩,
   ⟨withOp (desc 0x30 [0, 0, 0, 0, 0x100000000]), 0, 0, desc 0x30 [0, 0, 0, 0, 0x100000000],
       starts_now rfl rfl (by decide +kernel) (by decide +kernel) (by decide +kernel) rfl (by decide +kernel), by decide +kernel⟩,
   ⟨twoQueues, 0, by decide +kernel⟩, ⟨withOp (desc 0x00), by decide +kernel⟩⟩

/-- What meets the hypotheses of each clause of `Obligations.InvalidateStartsAndDrains`. -/
theorem wit_InvalidateStartsAndDrains :
    (∃ s : State, ∃ sq : Nat, ∃ idx : Nat, ∃ o : Op, startsNow s sq idx 0x40 o ∧ invKind o ≠ 2 ∧
        canInvalidate s o.ctx (invScope s o).1 = true) ∧
    (∃ s : State, ∃ sq : Nat, ∃ idx : Nat, ∃ o : Op, s.op sq idx = some o ∧ o.opcode = 0x40 ∧ o.done = false ∧
        o.stage = .running ∧ o.stop = none ∧ s.fc.dstate = .normal ∧ invDrained s o = true) :=
  ⟨⟨withOp (desc 0x40), 0, 0, desc 0x40,
      starts_now rfl rfl (by decide +kernel) (by decide +kernel) (by decide +kernel) rfl (by decide +kernel), by decide +kernel⟩,
   ⟨withOp ({ desc 0x40 with stage := .running, invAt := some (0, 1) }), 0, 0, { desc 0x40 with stage := .running, invAt := some (0, 1) },
       by decide +kernel⟩⟩

/-- What meets the hypotheses of each clause of `Obligations.MarkerWaitFollowsItsMarker`. -/
theorem wit_MarkerWaitFollowsItsMarker :
    (∃ s : State, ∃ sq : Nat, ∃ idx : Nat, ∃ o : Op, ∃ r : MarkRef, startsNow s sq idx 0x31 o ∧ o.woke = none ∧ o.wait = some r ∧
        o.stage ≠ .waiting ∧ markLive s r = true ∧ (let m := markerAt s r.key; waitState m (o.w 3).toNat = .satisfied)) ∧
    (∃ s : State, ∃ sq : Nat, ∃ idx : Nat, ∃ o : Op, ∃ r : MarkRef, startsNow s sq idx 0x31 o ∧ o.woke = none ∧ o.wait = some r ∧
        o.stage ≠ .waiting ∧ markLive s r = true ∧ (let m := markerAt s r.key; waitState m (o.w 3).toNat = .failed)) ∧
    (∃ s : State, ∃ sq : Nat, ∃ idx : Nat, ∃ o : Op, ∃ r : MarkRef, startsNow s sq idx 0x31 o ∧ o.woke = none ∧ o.wait = some r ∧
        o.stage ≠ .waiting ∧ markLive s r = true ∧ (let m := markerAt s r.key; waitState m (o.w 3).toNat = .pending ∧
        mwaitFree s (s.ctx o.ctx).slice ≠ 0 ∧ skeinsWaiting s = [])) :=
  ⟨⟨{ withOp ({ desc 0x31 [0, 0, 5] with wait := some { mo := 0, off := 0, key := 7 } }) with markers := [(7, { value := 5 })] },
      0, 0, { desc 0x31 [0, 0, 5] with wait := some { mo := 0, off := 0, key := 7 } }, { mo := 0, off := 0, key := 7 },
      starts_now rfl rfl (by decide +kernel) (by decide +kernel) (by decide +kernel) rfl (by decide +kernel), by decide +kernel⟩,
   ⟨{ withOp ({ desc 0x31 [0, 0, 6] with wait := some { mo := 0, off := 0, key := 7 } }) with markers := [(7, { value := 5, code := 1 })] },
       0, 0, { desc 0x31 [0, 0, 6] with wait := some { mo := 0, off := 0, key := 7 } }, { mo := 0, off := 0, key := 7 },
       starts_now rfl rfl (by decide +kernel) (by decide +kernel) (by decide +kernel) rfl (by decide +kernel), by decide +kernel⟩,
   ⟨{ withOp ({ desc 0x31 [0, 0, 6] with wait := some { mo := 0, off := 0, key := 7 } }) with markers := [(7, { value := 5 })] },
       0, 0, { desc 0x31 [0, 0, 6] with wait := some { mo := 0, off := 0, key := 7 } }, { mo := 0, off := 0, key := 7 },
       starts_now rfl rfl (by decide +kernel) (by decide +kernel) (by decide +kernel) rfl (by decide +kernel), by decide +kernel⟩⟩

/-- What meets the hypotheses of each clause of `Obligations.TriggersArmAndFire`. -/
theorem wit_TriggersArmAndFire :
    (∃ s : State, ∃ s' : State, ∃ sq : Nat, ∃ idx : Nat, ∃ o : Op, ∃ b : Op, ∃ r : MarkRef, startsNow s sq idx 0x38 o ∧
        trgMarker o = true ∧ o.wait = some r ∧ markLive s r = true ∧ mwaitFree s (s.ctx o.ctx).slice ≠ 0 ∧
        skeinsWaiting s = [] ∧ checkArmed (.accept (sq + 65536) idx) sq (armedHalf o s.ticks) s = (.ok b,
        s')) ∧
    (∃ s : State, ∃ sq : Nat, ∃ idx : Nat, ∃ o : Op, s.op (sq + 65536) idx = some o ∧ o.done = false ∧ o.stage = .armed ∧
        s.fc.dstate = .normal ∧ (∃ v : Word, o.woke = some (true, v))) ∧
    (∃ s : State, ∃ sq : Nat, ∃ idx : Nat, ∃ o : Op, s.op (sq + 65536) idx = some o ∧ o.done = false ∧ o.stage = .armed ∧
        s.fc.dstate = .normal ∧ (∃ v : Word, o.woke = some (false, v))) :=
  ⟨⟨withOp ({ desc 0x38 ([0, 1] ++ List.replicate 13 0) with wait := some { mo := 0, off := 0, key := 7 } }),
      (checkArmed (.accept (0 + 65536) 0) 0 (armedHalf ({ desc 0x38 ([0, 1] ++ List.replicate 13 0) with wait := some { mo := 0, off := 0, key := 7 } }) (withOp ({ desc 0x38 ([0, 1] ++ List.replicate 13 0) with wait := some { mo := 0, off := 0, key := 7 } })).ticks) (withOp ({ desc 0x38 ([0, 1] ++ List.replicate 13 0) with wait := some { mo := 0, off := 0, key := 7 } }))).2,
      0, 0, { desc 0x38 ([0, 1] ++ List.replicate 13 0) with wait := some { mo := 0, off := 0, key := 7 } },
      okOp (checkArmed (.accept (0 + 65536) 0) 0 (armedHalf ({ desc 0x38 ([0, 1] ++ List.replicate 13 0) with wait := some { mo := 0, off := 0, key := 7 } }) (withOp ({ desc 0x38 ([0, 1] ++ List.replicate 13 0) with wait := some { mo := 0, off := 0, key := 7 } })).ticks) (withOp ({ desc 0x38 ([0, 1] ++ List.replicate 13 0) with wait := some { mo := 0, off := 0, key := 7 } }))),
      { mo := 0, off := 0, key := 7 },
      starts_now rfl rfl (by decide +kernel) (by decide +kernel) (by decide +kernel) rfl (by decide +kernel), by decide +kernel,
      by decide +kernel, by decide +kernel, by decide +kernel, by decide +kernel, okOp_ok (by decide +kernel)⟩,
   ⟨{ withOp (desc 0x38) with ops := [(65536 * 16777216, { desc 0x00 with stage := .armed, woke := some (true, 5) })] }, 0, 0,
       { desc 0x00 with stage := .armed, woke := some (true, 5) }, by decide +kernel, by decide +kernel, by decide +kernel,
       by decide +kernel, 5, by decide +kernel⟩,
   ⟨{ withOp (desc 0x38) with ops := [(65536 * 16777216, { desc 0x00 with stage := .armed, woke := some (false, 5) })] }, 0, 0,
       { desc 0x00 with stage := .armed, woke := some (false, 5) }, by decide +kernel, by decide +kernel, by decide +kernel,
       by decide +kernel, 5, by decide +kernel⟩⟩

/-- What meets the hypotheses of each clause of `Obligations.SkeinsAndCollectivesBegin`. -/
theorem wit_SkeinsAndCollectivesBegin :
    (∃ s : State, ∃ sq : Nat, ∃ idx : Nat, ∃ o : Op, ∃ l : List Word, ∃ m : List Word, ∃ slot : Nat, startsNow s sq idx 0x20 o ∧
        skeinSlot s = some slot ∧ skTrigMo o = 0 ∧ l.length = skNBlk o ∧ m.length = skNBlk o ∧
        skEntryFail s o (l.map dCva) (m.map dOff) = none) ∧
    (∃ s : State, ∃ sq : Nat, ∃ idx : Nat, ∃ o : Op, ∃ l : List Word, ∃ m : List Word, ∃ slot : Nat, startsNow s sq idx 0x20 o ∧
        skeinSlot s = some slot ∧ skTrigMo o = 0 ∧ l.length = skNBlk o ∧ m.length = skNBlk o ∧ (∃ d : Nat,
        skEntryFail s o (l.map dCva) (m.map dOff) = some d)) ∧
    (∃ s : State, ∃ sq : Nat, ∃ idx : Nat, ∃ o : Op, startsNow s sq idx 0x21 o ∧ (s.group (pcGroup o)).st = .active ∧
        (s.group (pcGroup o)).slice = (s.ctx o.ctx).slice ∧
        (pcSeq o + 2 ^ 20 - (s.group (pcGroup o)).nextSeq.toNat) % 2 ^ 20 = 0 ∧ (s.group (pcGroup o)).colls.length < 16) ∧
    (∃ s : State, ∃ sq : Nat, ∃ idx : Nat, ∃ o : Op, startsNow s sq idx 0x21 o ∧ (s.group (pcGroup o)).st = .active ∧
        (s.group (pcGroup o)).slice = (s.ctx o.ctx).slice ∧
        2 ^ 19 ≤ (pcSeq o + 2 ^ 20 - (s.group (pcGroup o)).nextSeq.toNat) % 2 ^ 20) :=
  ⟨⟨{ netUp with sqs := [(0, { st := .active, size := 16, pi := 1, fi := 1 })], ops := [(0, { desc 0x20 [0, 0, 0, (moHandle 1 1).setWidth 64, 0, 0, 0, 0, 0, 0, 0, 0, 0, 0, 0] with stage := .ready })] },
      0, 0, { desc 0x20 [0, 0, 0, (moHandle 1 1).setWidth 64, 0, 0, 0, 0, 0, 0, 0, 0, 0, 0, 0] with stage := .ready }, [0], [0], 0,
      starts_now rfl rfl (by decide +kernel) (by decide +kernel) (by decide +kernel) rfl (by decide +kernel), by decide +kernel⟩,
   ⟨withOp ({ desc 0x20 [0, 0, 0, 0, 0, 0, 0, 0, 0, 0, 0, 0, 0, 0, 0] with stage := .ready }), 0, 0,
       { desc 0x20 [0, 0, 0, 0, 0, 0, 0, 0, 0, 0, 0, 0, 0, 0, 0] with stage := .ready }, [8], [0], 0,
       starts_now rfl rfl (by decide +kernel) (by decide +kernel) (by decide +kernel) rfl (by decide +kernel), by decide +kernel,
       by decide +kernel, by decide +kernel, by decide +kernel, 0, by decide +kernel⟩,
   ⟨{ withOp ({ desc 0x21 [0, 0, 0, 0, 0, 0, 0, 0, 0, 0, 0, 0, 0, 0, 0] with stage := .ready }) with groups := [(0, { st := .active, nextSeq := 0 })] },
       0, 0, { desc 0x21 [0, 0, 0, 0, 0, 0, 0, 0, 0, 0, 0, 0, 0, 0, 0] with stage := .ready },
       starts_now rfl rfl (by decide +kernel) (by decide +kernel) (by decide +kernel) rfl (by decide +kernel), by decide +kernel⟩,
   ⟨{ withOp ({ desc 0x21 [0, 0, 0, 0, 0, 0, 0, 0, 0, 0, 0, 0, 0, 0, 0] with stage := .ready }) with groups := [(0, { st := .active, nextSeq := 1 })] },
       0, 0, { desc 0x21 [0, 0, 0, 0, 0, 0, 0, 0, 0, 0, 0, 0, 0, 0, 0] with stage := .ready },
       starts_now rfl rfl (by decide +kernel) (by decide +kernel) (by decide +kernel) rfl (by decide +kernel), by decide +kernel⟩⟩

/-- What meets the hypotheses of each clause of `Obligations.EndedOperationCompletes`. -/
theorem wit_EndedOperationCompletes :
    (∃ s : State, ∃ sq : Nat, ∃ idx : Nat, ∃ o : Op, s.op sq idx = some o ∧ o.done = false ∧ o.stage = .running ∧
        s.fc.dstate = .normal ∧ allEnded o = true ∧ o.fence ≠ 1 ∧ o.opcode ≠ 0x21 ∧ (o.opcode = 0x20 → skEnd sq idx s = s) ∧ (∃ st : Nat, ∃ d : Nat, o.stop = some (st,
        d))) ∧
    (∃ s : State, ∃ sq : Nat, ∃ idx : Nat, ∃ o : Op, s.op sq idx = some o ∧ o.done = false ∧ o.stage = .running ∧
        s.fc.dstate = .normal ∧ allEnded o = true ∧ o.fence ≠ 1 ∧ o.opcode ≠ 0x21 ∧ (o.opcode = 0x20 → skEnd sq idx s = s) ∧ o.stop = none ∧ ((∀ e ∈ o.work,
        e.st = .landed))) ∧
    (∃ s : State, ∃ sq : Nat, ∃ idx : Nat, ∃ o : Op, s.op sq idx = some o ∧ o.done = false ∧ o.stage = .running ∧
        s.fc.dstate = .normal ∧ allEnded o = true ∧ o.fence ≠ 1 ∧ o.opcode ≠ 0x21 ∧ (o.opcode = 0x20 → skEnd sq idx s = s) ∧ o.stop = none ∧ ((∃ e ∈ o.work,
        e.st ≠ .landed))) :=
  ⟨⟨withOp ({ desc 0x01 [0, 0, 0, 0, 0, 0, 0, 0, 0, 0, 0, 0, 0, 0, 0] with stage := .running, stop := some (5, 7) }), 0, 0,
      { desc 0x01 [0, 0, 0, 0, 0, 0, 0, 0, 0, 0, 0, 0, 0, 0, 0] with stage := .running, stop := some (5, 7) }, by decide +kernel,
      by decide +kernel, by decide +kernel, by decide +kernel, by decide +kernel, by decide +kernel, by decide +kernel,
      fun h => absurd h (by decide), 5, 7, by decide +kernel⟩,
   ⟨withOp ({ desc 0x01 [0, 0, 0, 0, 0, 0, 0, 0, 0, 0, 0, 0, 0, 0, 0] with stage := .running, work := [{ off := 0, len := 64, st := .landed }] }),
       0, 0, { desc 0x01 [0, 0, 0, 0, 0, 0, 0, 0, 0, 0, 0, 0, 0, 0, 0] with stage := .running, work := [{ off := 0, len := 64, st := .landed }] },
       by decide +kernel, by decide +kernel, by decide +kernel, by decide +kernel, by decide +kernel, by decide +kernel,
       by decide +kernel, fun h => absurd h (by decide), by decide +kernel⟩,
   ⟨withOp ({ desc 0x01 [0, 0, 0, 0, 0, 0, 0, 0, 0, 0, 0, 0, 0, 0, 0] with stage := .running, work := [{ off := 0, len := 64, st := .failed }] }),
       0, 0, { desc 0x01 [0, 0, 0, 0, 0, 0, 0, 0, 0, 0, 0, 0, 0, 0, 0] with stage := .running, work := [{ off := 0, len := 64, st := .failed }] },
       by decide +kernel, by decide +kernel, by decide +kernel, by decide +kernel, by decide +kernel, by decide +kernel,
       by decide +kernel, fun h => absurd h (by decide), by decide +kernel⟩⟩

/-- What meets the hypotheses of each clause of `Obligations.CompletionQueueTimers`. -/
theorem wit_CompletionQueueTimers :
    (∃ s : State, ∃ n : Nat, s.fc.dstate = .normal ∧ (let q := s.cq n; q.active = true ∧ q.waiting ≠ [] ∧
        ((cqRoom q = false ∨ q.unwritable = true)) ∧ q.notice = false)) ∧
    (∃ s : State, ∃ n : Nat, s.fc.dstate = .normal ∧ (let q := s.cq n; ∃ r : CqRec, q.active = true ∧
        (s.ctx q.ctx).st = .draining ∧ cqRoom q = false ∧ q.unwritable = false ∧ q.waiting.find? recEnded = some r)) ∧
    (∃ s : State, ∃ n : Nat, s.fc.dstate = .normal ∧ (let q := s.cq n; q.active = true ∧ q.unwritable = true ∧ q.waiting ≠ [])) ∧
    (∃ s : State, ∃ n : Nat, s.fc.dstate = .normal ∧ (let q := s.cq n; ∃ w : DbWrite, n = fld w.value 15 0 ∧ w.aligned8 = true ∧
        pageActive s w.link w.slice = true ∧ q.active = true ∧ (s.ctx q.ctx).slice = w.slice)) ∧
    (∃ s : State, ∃ n : Nat, s.fc.dstate = .normal ∧ sqIdle s n = true) :=
  ⟨⟨withCq { active := true, size := 16, w := 16, waiting := [{ image := 0, qp := false, num := 0, ticks := 0, epoch := 0, gen := 0 }] }, 0,
      by decide +kernel⟩,
   ⟨{ withCq { active := true, size := 16, w := 16, waiting := [{ image := stAborted, qp := false, num := 0, ticks := 0, epoch := 0, gen := 0 }] } with ctxs := [(0, { st := .draining })] },
       0, by decide +kernel, { image := stAborted, qp := false, num := 0, ticks := 0, epoch := 0, gen := 0 }, by decide +kernel⟩,
   ⟨withCq { active := true, size := 16, unwritable := true, waiting := [{ image := 0, qp := false, num := 0, ticks := 0, epoch := 0, gen := 0 }] }, 0,
       by decide +kernel⟩,
   ⟨withCq { active := true, size := 16, notice := true }, 0, by decide +kernel, db 0, by decide +kernel⟩,
   ⟨withSq { st := .closed, size := 16 }, 0, by decide +kernel⟩⟩

/-- What meets the hypotheses of each clause of `Obligations.WalkReturnsToItsRequester`. -/
theorem wit_WalkReturnsToItsRequester :
    (∃ s : State, ∃ w : Nat, ∃ k : Walk, s.fc.dstate = .normal ∧ Tab.get s.xlt.walks w = some k) :=
  ⟨{ up with xlt := { walks := [(0, { ctx := 0, panel := 0, page := 0, tgen := 0, stream := .sq 0, purp := .prefetch, kind := .read })] } },
      0, { ctx := 0, panel := 0, page := 0, tgen := 0, stream := .sq 0, purp := .prefetch, kind := .read }, by decide +kernel⟩

/-- What meets the hypotheses of each clause of `Obligations.FaultRingRegisters`. -/
theorem wit_FaultRingRegisters :
    (∃ w : RegWrite, ∃ s : State, s.fc.dstate = .normal ∧ w.link = mgrLink s ∧ w.aligned = true ∧ w.size = 8 ∧
        s.xlt.enable = true) ∧
    (∃ w : RegWrite, ∃ s : State, s.fc.dstate = .normal ∧ w.link = mgrLink s ∧ w.aligned = true ∧ w.size = 8 ∧
        s.xlt.enable = false ∧ w.value.getLsbD 0 = false) :=
  ⟨⟨wr 0, { up with xlt := { enable := true } }, by decide +kernel⟩,
   ⟨wr 0x80, up, by decide +kernel⟩⟩

/-- What meets the hypotheses of each clause of `Obligations.FaultResolutions`. -/
theorem wit_FaultResolutions :
    (∃ w : RegWrite, ∃ s : State, s.fc.dstate = .normal ∧ w.link = mgrLink s ∧ w.aligned = true ∧ w.size = 8 ∧ (∃ e : Nat,
        ∃ f : PFault, ∃ x : Word, fld w.value 53 52 = 0 ∧ resolveEntry s w.value = some (e, f) ∧ 
        inHbm s (entryAt s f.ctx f.panel f.page) 8 = true ∧ cePresent x = true)) ∧
    (∃ w : RegWrite, ∃ s : State, s.fc.dstate = .normal ∧ w.link = mgrLink s ∧ w.aligned = true ∧ w.size = 8 ∧ (∃ e : Nat,
        ∃ f : PFault, ∃ x : Word, fld w.value 53 52 = 0 ∧ resolveEntry s w.value = some (e, f) ∧ 
        inHbm s (entryAt s f.ctx f.panel f.page) 8 = true ∧ cePresent x = false)) ∧
    (∃ w : RegWrite, ∃ s : State, s.fc.dstate = .normal ∧ w.link = mgrLink s ∧ w.aligned = true ∧ w.size = 8 ∧ (∃ e : Nat,
        ∃ f : PFault, fld w.value 53 52 = 1 ∧ resolveEntry s w.value = some (e, f))) ∧
    (∃ w : RegWrite, ∃ s : State, s.fc.dstate = .normal ∧ w.link = mgrLink s ∧ w.aligned = true ∧ w.size = 8 ∧
        fld w.value 53 52 = 1 ∧ resolveEntry s w.value = none) ∧
    (∃ s : State, ∃ n : Nat, ∃ f : PFault, s.fc.dstate = .normal ∧ Tab.get s.xlt.faults n = some f ∧ f.reported = true) :=
  ⟨⟨wr 17592186634242,
      { up with xlt := { faults := [(2, { ctx := 0, panel := 0, page := 3, token := 9, joinCount := 1, joiners := [], rd := true, wr := false, at_ := false, first := .sq 0, reported := true })] } },
      by decide +kernel, by decide +kernel, by decide +kernel, by decide +kernel, 2,
      { ctx := 0, panel := 0, page := 3, token := 9, joinCount := 1, joiners := [], rd := true, wr := false, at_ := false, first := .sq 0, reported := true },
      1, by decide +kernel⟩,
   ⟨wr 17592186634242,
       { up with xlt := { faults := [(2, { ctx := 0, panel := 0, page := 3, token := 9, joinCount := 1, joiners := [], rd := true, wr := false, at_ := false, first := .sq 0, reported := true })] } },
       by decide +kernel, by decide +kernel, by decide +kernel, by decide +kernel, 2,
       { ctx := 0, panel := 0, page := 3, token := 9, joinCount := 1, joiners := [], rd := true, wr := false, at_ := false, first := .sq 0, reported := true },
       0, by decide +kernel⟩,
   ⟨wr 4521191814004738,
       { up with xlt := { faults := [(2, { ctx := 0, panel := 0, page := 3, token := 9, joinCount := 1, joiners := [], rd := true, wr := false, at_ := false, first := .sq 0, reported := true })] } },
       by decide +kernel, by decide +kernel, by decide +kernel, by decide +kernel, 2,
       { ctx := 0, panel := 0, page := 3, token := 9, joinCount := 1, joiners := [], rd := true, wr := false, at_ := false, first := .sq 0, reported := true },
       by decide +kernel⟩,
   ⟨wr 4538784000049154,
       { up with xlt := { faults := [(2, { ctx := 0, panel := 0, page := 3, token := 9, joinCount := 1, joiners := [], rd := true, wr := false, at_ := false, first := .sq 0, reported := true })] } },
       by decide +kernel⟩,
   ⟨{ up with xlt := { faults := [(2, { ctx := 0, panel := 0, page := 3, token := 9, joinCount := 1, joiners := [], rd := true, wr := false, at_ := false, first := .sq 0, reported := true })] } },
       2, { ctx := 0, panel := 0, page := 3, token := 9, joinCount := 1, joiners := [], rd := true, wr := false, at_ := false, first := .sq 0, reported := true },
       by decide +kernel⟩⟩

/-- What meets the hypotheses of each clause of `Obligations.LifecyclesEnd`. -/
theorem wit_LifecyclesEnd :
    (∃ s : State, ∃ c : Nat, ctxIdle s c = true ∧ s.fc.dstate = .normal ∧ ctxCqs s c = [] ∧ ctxWins s c = [] ∧ ctxMos s c = []) ∧
    (∃ s : State, ∃ c : Nat, s.fc.dstate = .normal ∧ (s.ctx c).st = .draining ∧ (s.ctx c).abort = false) ∧
    (∃ s : State, ∃ i : Nat, s.fc.dstate = .normal ∧ (s.mo i).st = .retiring ∧ moUnused s i = true ∧ s.fnd.sealTab = [] ∧
        (s.mo i).drain = none) ∧
    (∃ s : State, ∃ i : Nat, s.fc.dstate = .normal ∧ (s.win i).st = .retiring ∧ (s.win i).trackers = 0 ∧
        (s.win i).drain = none) :=
  ⟨⟨{ up with ctxs := [(0, { st := .draining })] }, 0, by decide +kernel⟩,
   ⟨{ up with ctxs := [(0, { st := .draining })] }, 0, by decide +kernel⟩,
   ⟨{ up with mos := [(3, { gen := 4, st := .retiring })] }, 3, by decide +kernel⟩,
   ⟨{ up with wins := [(3, { gen := 4, st := .retiring })] }, 3, by decide +kernel⟩⟩

/-- What meets the hypotheses of each clause of `Obligations.ErrorBindingServesTheOldestJob`. -/
theorem wit_ErrorBindingServesTheOldestJob :
    (∃ s : State, ∃ j : BindJob, ∃ rest : List BindJob, s.bindJobs = j :: rest ∧ s.fc.dstate = .normal ∧
        j.code.toNat ≠ meSliceBoundOff) :=
  ⟨{ up with bindJobs := [{ marks := [{ mo := 0, off := 0, key := 7 }], code := meContextLost, detail := 1 }] },
      { marks := [{ mo := 0, off := 0, key := 7 }], code := meContextLost, detail := 1 }, [], by decide +kernel⟩

/-- What meets the hypotheses of each clause of `Obligations.TagFenceAnswers`. -/
theorem wit_TagFenceAnswers :
    (∃ s : State, ∃ p : Nat, ∃ c : Nat, ∃ q : BitVec 8, s.fc.dstate ≠ .halted ∧
        (s.die p).updates.find? (fun u => u.1 == q) = some (q, c) ∧ (s.ctx c).tagWait = [p] ∧ (s.ctx c).rejecting = true ∧
        (s.ctx c).st = .draining) ∧
    (∃ s : State, ∃ p : Nat, ∃ c : Nat, ∃ q : BitVec 8, ∃ r : Nat, ∃ rs : List Nat, s.fc.dstate ≠ .halted ∧
        (s.die p).updates.find? (fun u => u.1 == q) = some (q, c) ∧ (s.ctx c).tagWait.filter (· ≠ p) = r :: rs) ∧
    (∃ s : State, ∃ tag : BitVec 24, s.fc.dstate ≠ .halted ∧ (let c := fld tag 14 3; accessTag s c = tag ∧ (s.ctx c).st ≠ .free ∧
        (s.ctx c).rejecting = false)) ∧
    (∃ s : State, ∃ tag : BitVec 24, s.fc.dstate ≠ .halted ∧ (let c := fld tag 14 3; (s.ctx c).rejecting = true)) :=
  ⟨⟨{ up with ctxs := [(7, { epoch := 1, slice := 0, st := .draining, rejecting := true, tagWait := [2] })], dies := [(2, { updates := [(6, 7)] })] },
      2, 7, 6, by decide +kernel⟩,
   ⟨{ up with ctxs := [(7, { epoch := 1, slice := 0, st := .active, tagWait := [2, 3] })], dies := [(2, { updates := [(6, 7)] })] },
       2, 7, 6, 3, [], by decide +kernel⟩,
   ⟨{ up with ctxs := [(7, { epoch := 1, slice := 0, st := .active })], dies := [(2, { updates := [(6, 7)] })] },
       accessTag ({ up with ctxs := [(7, { epoch := 1, slice := 0, st := .active })], dies := [(2, { updates := [(6, 7)] })] }) 7,
       by decide +kernel⟩,
   ⟨{ up with ctxs := [(7, { epoch := 1, slice := 0, st := .draining, rejecting := true })], dies := [(2, { updates := [(6, 7)] })] },
       0x38, by decide +kernel⟩⟩

/-- A READ_REQ of 64 bytes, and an ATOMIC fetch-and-add of 8, at offset 0 of window 1. -/
def readPk : ErtPkt := pk 2 0xC4 16 0x40001 0 (be [0, 64])
@[inherit_doc readPk] def atomPk : ErtPkt := pk 4 0xC4 16 0x40001 0 (be [2 ^ 48, 5])
/-- The translation of a request's range. -/
def reqXlate (p : ErtPkt) (k : ReqKind) (off len : Nat) : XRange × State :=
  let t := packetIn p (netQp ertQp)
  xlateRange (.place 5 p.hdr.psn) (.qp 5) (reqAcc t k (t.win (winIndex p.hdr.window)) off len) [] (xfuel len) 0 len t
/-- What that translation holds where it ended. -/
def xend : XRange × State → List (Nat × Ext × Nat) × List TUse
  | (.ok e b, _) => (e, b)
  | _ => ([], [])
/-- The state after each request's translation. -/
def readAt : State := forgetSeen (.place 5 0) (reqXlate readPk .read 0 64).2
@[inherit_doc readAt] def atomAt : State := forgetSeen (.place 5 0) (reqXlate atomPk .atomic 0 8).2

/-- What meets the hypotheses of each clause of `Obligations.DataPacketsThatPassTheirChecksAreTaken`. -/
theorem wit_DataPacketsThatPassTheirChecksAreTaken :
    (∃ p : ErtPkt, ∃ s : State, packetNew (arrived p s) p = true ∧
        (let n := p.hdr.dstQpn.toNat; let t := packetIn p s; ∃ data : List Byte, ∃ short : Bool, ∃ i : Nat, ∃ t' : State,
        p.hdr.op = 0 ∧ rxPayload p = some (data, short) ∧ flagsLegal p.hdr = true ∧ (short = true → fLast p.hdr.flags = true) ∧
        winCheck t n p.hdr.window .write (writeRanges p.hdr data.length) ((findTracker t n p.hdr.msgId false).map (·.2.window)) = none ∧
        trackerFor n p { newTracker n p 0 .window t with window := p.hdr.window } t = some (i, t'))) ∧
    (∃ p : ErtPkt, ∃ s : State, packetNew (arrived p s) p = true ∧
        (let n := p.hdr.dstQpn.toNat; let t := packetIn p s; ∃ data : List Byte, ∃ short : Bool, ∃ i : Nat, ∃ t' : State,
        p.hdr.op = 1 ∧ rxPayload p = some (data, short) ∧ flagsLegal p.hdr = true ∧ (short = true → fLast p.hdr.flags = true) ∧
        (fLast p.hdr.flags = true → data.length ≤ p.hdr.offsetLen.toNat) ∧ (s.qp n).rxMo ≠ 0 ∧
        (pktLen p.hdr).getD 0 ≤ (rxSlot t (s.qp n) p.hdr.window).2 ∧
        otherOff p.hdr data.length + data.length ≤ (rxSlot t (s.qp n) p.hdr.window).2 ∧
        rxSlotFree t (s.qp n) p.hdr.window = true ∧
        trackerFor n p { newTracker n p 1 .ring t with rxSeq := p.hdr.window } t = some (i, t'))) ∧
    (∃ p : ErtPkt, ∃ s : State, packetNew (arrived p s) p = true ∧ (let n := p.hdr.dstQpn.toNat; let t := packetIn p s; ∃ i : Nat,
        ∃ u t' : State, let r := (beWord p.payload 0, beWord p.payload 1); p.hdr.op = 2 ∧ readReqBad p = false ∧
        requestOk n p .read r t u ∧ rxTracker (requestTracker n p r u) u = some (i, t'))) ∧
    (∃ p : ErtPkt, ∃ s : State, packetNew (arrived p s) p = true ∧ (let n := p.hdr.dstQpn.toNat; let t := packetIn p s; ∃ i : Nat,
        ∃ u t' : State, let r := (pktAopOff p, aopBytes (pktAop p)); p.hdr.op = 4 ∧ atomicBad p = false ∧
        requestOk n p (if pktAop p = 4 then .signal else .atomic) r t u ∧
        rxTracker (requestTracker n p r u) u = some (i, t'))) :=
  ⟨⟨pk 0 0xC0 0 0x40001 0 [1, 2, 3, 4], netQp ertQp, by decide +kernel, [1, 2, 3, 4], false,
      (got (trackerFor 5 (pk 0 0xC0 0 0x40001 0 [1, 2, 3,
      4]) { newTracker 5 (pk 0 0xC0 0 0x40001 0 [1, 2, 3, 4]) 0 .window (packetIn (pk 0 0xC0 0 0x40001 0 [1, 2, 3, 4]) (netQp ertQp)) with window := (pk 0 0xC0 0 0x40001 0 [1, 2, 3, 4]).hdr.window } (packetIn (pk 0 0xC0 0 0x40001 0 [1,
      2, 3, 4]) (netQp ertQp))) 0).1, (got (trackerFor 5 (pk 0 0xC0 0 0x40001 0 [1, 2, 3,
      4]) { newTracker 5 (pk 0 0xC0 0 0x40001 0 [1, 2, 3, 4]) 0 .window (packetIn (pk 0 0xC0 0 0x40001 0 [1, 2, 3, 4]) (netQp ertQp)) with window := (pk 0 0xC0 0 0x40001 0 [1, 2, 3, 4]).hdr.window } (packetIn (pk 0 0xC0 0 0x40001 0 [1,
      2, 3, 4]) (netQp ertQp))) 0).2, by decide +kernel⟩,
   ⟨pk 1 0xC0 64 0 0 (zeros 64), netQp ertQp, by decide +kernel, zeros 64, false,
       (got (trackerFor 5 (pk 1 0xC0 64 0 0 (zeros 64)) { newTracker 5 (pk 1 0xC0 64 0 0 (zeros 64)) 1 .ring (packetIn (pk 1 0xC0 64 0 0 (zeros 64)) (netQp ertQp)) with rxSeq := (pk 1 0xC0 64 0 0 (zeros 64)).hdr.window } (packetIn (pk 1 0xC0 64 0 0 (zeros 64)) (netQp ertQp))) 0).1,
       (got (trackerFor 5 (pk 1 0xC0 64 0 0 (zeros 64)) { newTracker 5 (pk 1 0xC0 64 0 0 (zeros 64)) 1 .ring (packetIn (pk 1 0xC0 64 0 0 (zeros 64)) (netQp ertQp)) with rxSeq := (pk 1 0xC0 64 0 0 (zeros 64)).hdr.window } (packetIn (pk 1 0xC0 64 0 0 (zeros 64)) (netQp ertQp))) 0).2,
       by decide +kernel⟩,
   ⟨readPk, netQp ertQp, by decide +kernel, (got (rxTracker (requestTracker 5 readPk (0, 64) readAt) readAt) 0).1, readAt,
       (got (rxTracker (requestTracker 5 readPk (0, 64) readAt) readAt) 0).2, by decide +kernel, by decide +kernel,
       ⟨by decide +kernel, (xend (reqXlate readPk .read 0 64)).1, (xend (reqXlate readPk .read 0 64)).2, (reqXlate readPk .read 0 64).2,
        by decide +kernel, rfl⟩, by decide +kernel⟩,
   ⟨atomPk, netQp ertQp, by decide +kernel, (got (rxTracker (requestTracker 5 atomPk (0, 8) atomAt) atomAt) 0).1, atomAt,
       (got (rxTracker (requestTracker 5 atomPk (0, 8) atomAt) atomAt) 0).2, by decide +kernel, by decide +kernel,
       ⟨by decide +kernel, (xend (reqXlate atomPk .atomic 0 8)).1, (xend (reqXlate atomPk .atomic 0 8)).2, (reqXlate atomPk .atomic 0 8).2,
        by decide +kernel, rfl⟩, by decide +kernel⟩⟩

/-- What meets the hypotheses of each clause of `Obligations.ResponsesReachTheirOperations`. -/
theorem wit_ResponsesReachTheirOperations :
    (∃ p : ErtPkt, ∃ s : State, packetNew (arrived p s) p = true ∧ (let n := p.hdr.dstQpn.toNat; let t := packetIn p s; ∃ i : Nat,
        ∃ k : Tracker, ∃ sq : Nat, ∃ idx : Nat, ∃ ext : Nat, ∃ o : Op, ∃ data : List Byte, ∃ short : Bool, p.hdr.op = 3 ∧
        findTracker t n p.hdr.msgId true = some (i, k) ∧ k.use = .readResp sq idx ext ∧ rxPayload p = some (data, short) ∧
        t.op sq idx = some o ∧ flagsLegal p.hdr = true ∧ (short = true → fLast p.hdr.flags = true) ∧
        ((fFirst p.hdr.flags = true ∨ fLast p.hdr.flags = true → p.hdr.offsetLen.toNat = k.msgLen.getD 0)) ∧
        otherOff p.hdr data.length + data.length ≤ k.msgLen.getD 0)) ∧
    (∃ p : ErtPkt, ∃ s : State, packetNew (arrived p s) p = true ∧ (let n := p.hdr.dstQpn.toNat; let t := packetIn p s; ∃ i : Nat,
        ∃ k : Tracker, ∃ sq : Nat, ∃ idx : Nat, p.hdr.op = 5 ∧ findTracker t n p.hdr.msgId true = some (i, k) ∧
        k.use = .atomicResp sq idx)) ∧
    (∃ p : ErtPkt, ∃ s : State, packetNew (arrived p s) p = true ∧
        (let n := p.hdr.dstQpn.toNat; let t := packetIn p s; findTracker t n p.hdr.msgId true = none ∧ p.hdr.op = 3)) ∧
    (∃ p : ErtPkt, ∃ s : State, packetNew (arrived p s) p = true ∧
        (let n := p.hdr.dstQpn.toNat; let t := packetIn p s; findTracker t n p.hdr.msgId true = none ∧ p.hdr.op = 5)) :=
  ⟨⟨pk 3 0xC0 4 0 0 [1, 2, 3, 4],
      { netQp ertQp with trackers := [(8, { qpn := 5, msgId := 1, op := 3, use := .readResp 0 0 0, shared := false, slice := 0, tc := 0, msgLen := some 4 })], ops := [(0, { desc 0x11 [0, 0, 0, 0, 0, 0, 0, 0, 0, 0, 0, 0, 0, 0, 0] with stage := .ready })] },
      by decide +kernel, 8,
      { qpn := 5, msgId := 1, op := 3, use := .readResp 0 0 0, shared := false, slice := 0, tc := 0, msgLen := some 4 }, 0, 0, 0,
      { desc 0x11 [0, 0, 0, 0, 0, 0, 0, 0, 0, 0, 0, 0, 0, 0, 0] with stage := .ready }, [1, 2, 3, 4], false, by decide +kernel⟩,
   ⟨pk 5 0xC0 8 0 0 (zeros 8),
       { netQp ertQp with trackers := [(8, { qpn := 5, msgId := 1, op := 3, use := .atomicResp 0 0, shared := false, slice := 0, tc := 0, msgLen := none })] },
       by decide +kernel, 8,
       { qpn := 5, msgId := 1, op := 3, use := .atomicResp 0 0, shared := false, slice := 0, tc := 0, msgLen := none }, 0, 0,
       by decide +kernel⟩,
   ⟨pk 3 0xC0 4 0 0 [1, 2, 3, 4], netQp ertQp, by decide +kernel⟩,
   ⟨pk 5 0xC0 8 0 0 (zeros 8), netQp ertQp, by decide +kernel⟩⟩

/-- What meets the hypotheses of each clause of `Obligations.AcknowledgementsAndRefusalsReachTheSender`. -/
theorem wit_AcknowledgementsAndRefusalsReachTheSender :
    (∃ p : ErtPkt, ∃ s : State, packetTaken (arrived p s) p = true ∧ p.hdr.op = 6 ∧ p.payload.length = 40) ∧
    (∃ p : ErtPkt, ∃ s : State, packetTaken (arrived p s) p = true ∧
        (let n := p.hdr.dstQpn.toNat; let code := bits (beWord p.payload 0) 7 0; ∃ f : Flight, p.hdr.op = 7 ∧
        (s.qp n).flight.find? (fun f => f.psn == p.hdr.psn) = some f ∧ ((code = 2 ∨ code = 3)))) ∧
    (∃ p : ErtPkt, ∃ s : State, packetTaken (arrived p s) p = true ∧
        (let n := p.hdr.dstQpn.toNat; let code := bits (beWord p.payload 0) 7 0; ∃ f : Flight, p.hdr.op = 7 ∧
        (s.qp n).flight.find? (fun f => f.psn == p.hdr.psn) = some f ∧ code = 16)) ∧
    (∃ p : ErtPkt, ∃ s : State, packetTaken (arrived p s) p = true ∧
        (let code := bits (beWord p.payload 0) 7 0; p.hdr.op = 7 ∧ code = 39)) ∧
    (∃ p : ErtPkt, ∃ s : State, packetTaken (arrived p s) p = true ∧
        (let n := p.hdr.dstQpn.toNat; let code := bits (beWord p.payload 0) 7 0; ∃ f : Flight, p.hdr.op = 7 ∧
        (s.qp n).flight.find? (fun f => f.psn == p.hdr.psn) = some f ∧ code = 32)) ∧
    (∃ p : ErtPkt, ∃ s : State, packetTaken (arrived p s) p = true ∧ (let n := p.hdr.dstQpn.toNat; p.hdr.op = 8 ∧
        (s.qp n).msgs.any (fun m => m.id == p.hdr.msgId && m.resp == (bits (beWord p.payload 0) 48 48 == 1)) = true)) ∧
    (∃ p : ErtPkt, ∃ s : State, packetTaken (arrived p s) p = true ∧
        (let n := p.hdr.dstQpn.toNat; let code := bits (beWord p.payload 0) 7 0; p.hdr.op = 9 ∧ code = 1 ∧
        qpMaySend s (s.qp n) = true)) :=
  ⟨⟨pk 6 0 0 0 0 (zeros 40), netQp ertQp, by decide +kernel⟩,
   ⟨pk 7 0 0 0 0 (be [2, 0]),
       netQp { ertQp with flight := [{ psn := 0, msgId := 1, resp := false, hdr := (pk 0 0 0 0 0 []).hdr, payload := [] }] },
       by decide +kernel, { psn := 0, msgId := 1, resp := false, hdr := (pk 0 0 0 0 0 []).hdr, payload := [] }, by decide +kernel⟩,
   ⟨pk 7 0 0 0 0 (be [16, 0]),
       netQp { ertQp with flight := [{ psn := 0, msgId := 1, resp := false, hdr := (pk 0 0 0 0 0 []).hdr, payload := [] }] },
       by decide +kernel, { psn := 0, msgId := 1, resp := false, hdr := (pk 0 0 0 0 0 []).hdr, payload := [] }, by decide +kernel⟩,
   ⟨pk 7 0 0 0 0 (be [39, 0]), netQp ertQp, by decide +kernel⟩,
   ⟨pk 7 0 0 0 0 (be [32, 0]),
       netQp { ertQp with flight := [{ psn := 0, msgId := 1, resp := false, hdr := (pk 0 0 0 0 0 []).hdr, payload := [] }] },
       by decide +kernel, { psn := 0, msgId := 1, resp := false, hdr := (pk 0 0 0 0 0 []).hdr, payload := [] }, by decide +kernel⟩,
   ⟨pk 8 0 0 0 0 (be [0, 0]),
       netQp { ertQp with msgs := [{ id := 1, op := 0, tc := 0, len := 0, pkts := [], owner := .extent 0 0 0 }] },
       by decide +kernel⟩,
   ⟨pk 9 0 0 0 0 (be [1]), netQp ertQp, by decide +kernel⟩⟩

/-- What meets the hypotheses of each clause of `Obligations.SkeinAndCollectivePacketsAreTaken`. -/
theorem wit_SkeinAndCollectivePacketsAreTaken :
    (∃ p : ErtPkt, ∃ s : State, packetNew (arrived p s) p = true ∧
        (let n := p.hdr.dstQpn.toNat; let t := packetIn p s; let ft := findTracker t n p.hdr.msgId false; ∃ i : Nat, ∃ t' : State,
        p.hdr.op = 10 ∧ skBad p = false ∧ skHdrPkt p.hdr = true ∧
        skHdrCheck t n p.hdr.window (ft.bind (fun e => if e.2.req.isEmpty then none else some e.2.req)) p.payload (ft.map (fun e => e.2.window)) = none ∧
        trackerFor n p (skTracker n p t) t = some (i, t'))) ∧
    (∃ p : ErtPkt, ∃ s : State, packetNew (arrived p s) p = true ∧
        (let n := p.hdr.dstQpn.toNat; let t := packetIn p s; let ft := findTracker t n p.hdr.msgId false; ∃ i : Nat, ∃ t' : State,
        ∃ data : List Byte, ∃ short : Bool, p.hdr.op = 10 ∧ skBad p = false ∧ skHdrPkt p.hdr = false ∧ rxPayload p = some (data,
        short) ∧ winCheck t n p.hdr.window .write [(p.hdr.offsetLen.toNat, data.length)] (ft.map (fun e => e.2.window)) = none ∧
        trackerFor n p (skTracker n p t) t = some (i, t'))) ∧
    (∃ p : ErtPkt, ∃ s : State, packetNew (arrived p s) p = true ∧ (let n := p.hdr.dstQpn.toNat; let t := packetIn p s; ∃ i : Nat,
        ∃ t' : State, ∃ data : List Byte, ∃ k : Coll, ∃ o : Op, purlJudge t n p = .take data ∧
        t.coll (fld p.hdr.window 31 20) (fld p.hdr.window 19 0) = some (k, o) ∧ trackerFor n p (purlTracker n p t) t = some (i,
        t') ∧ p.hdr.op = 11)) ∧
    (∃ p : ErtPkt, ∃ s : State, packetNew (arrived p s) p = true ∧ (let n := p.hdr.dstQpn.toNat; let t := packetIn p s; ∃ i : Nat,
        ∃ t' : State, ∃ data : List Byte, ∃ k : Coll, ∃ o : Op, purlJudge t n p = .take data ∧
        t.coll (fld p.hdr.window 31 20) (fld p.hdr.window 19 0) = some (k, o) ∧ trackerFor n p (purlTracker n p t) t = some (i,
        t') ∧ p.hdr.op = 12)) ∧
    (∃ p : ErtPkt, ∃ s : State, packetNew (arrived p s) p = true ∧
        (let n := p.hdr.dstQpn.toNat; let t := packetIn p s; purlJudge t n p = .stale ∧ p.hdr.op = 11)) ∧
    (∃ p : ErtPkt, ∃ s : State, packetNew (arrived p s) p = true ∧
        (let n := p.hdr.dstQpn.toNat; let t := packetIn p s; purlJudge t n p = .stale ∧ p.hdr.op = 12)) :=
  ⟨⟨pk 10 0x84 0 0x40001 0 (zeros 32), netQp ertQp, by decide +kernel,
      (got (trackerFor 5 (pk 10 0x84 0 0x40001 0 (zeros 32)) (skTracker 5 (pk 10 0x84 0 0x40001 0 (zeros 32)) (packetIn (pk 10 0x84 0 0x40001 0 (zeros 32)) (netQp ertQp))) (packetIn (pk 10 0x84 0 0x40001 0 (zeros 32)) (netQp ertQp))) 0).1,
      (got (trackerFor 5 (pk 10 0x84 0 0x40001 0 (zeros 32)) (skTracker 5 (pk 10 0x84 0 0x40001 0 (zeros 32)) (packetIn (pk 10 0x84 0 0x40001 0 (zeros 32)) (netQp ertQp))) (packetIn (pk 10 0x84 0 0x40001 0 (zeros 32)) (netQp ertQp))) 0).2,
      by decide +kernel⟩,
   ⟨pk 10 0x04 0 0x40001 0 (zeros 64), netQp ertQp, by decide +kernel,
       (got (trackerFor 5 (pk 10 0x04 0 0x40001 0 (zeros 64)) (skTracker 5 (pk 10 0x04 0 0x40001 0 (zeros 64)) (packetIn (pk 10 0x04 0 0x40001 0 (zeros 64)) (netQp ertQp))) (packetIn (pk 10 0x04 0 0x40001 0 (zeros 64)) (netQp ertQp))) 0).1,
       (got (trackerFor 5 (pk 10 0x04 0 0x40001 0 (zeros 64)) (skTracker 5 (pk 10 0x04 0 0x40001 0 (zeros 64)) (packetIn (pk 10 0x04 0 0x40001 0 (zeros 64)) (netQp ertQp))) (packetIn (pk 10 0x04 0 0x40001 0 (zeros 64)) (netQp ertQp))) 0).2,
       zeros 64, false, by decide +kernel⟩,
   ⟨pk 11 0xC0 4 0 0 (zeros 4),
       { netQp ertQp with groups := [(0, { st := .active, members := [some 4, some 5], rank := 0, colls := [(0, { sq := 0, idx := 0, chunks := [(0, { credited := true })] })] })], ops := [(0, { desc 0x21 [262144] with stage := .running })] },
       by decide +kernel,
       (got (trackerFor 5 (pk 11 0xC0 4 0 0 (zeros 4)) (purlTracker 5 (pk 11 0xC0 4 0 0 (zeros 4)) (packetIn (pk 11 0xC0 4 0 0 (zeros 4)) ({ netQp ertQp with groups := [(0, { st := .active, members := [some 4, some 5], rank := 0, colls := [(0, { sq := 0, idx := 0, chunks := [(0, { credited := true })] })] })], ops := [(0, { desc 0x21 [262144] with stage := .running })] }))) (packetIn (pk 11 0xC0 4 0 0 (zeros 4)) ({ netQp ertQp with groups := [(0, { st := .active, members := [some 4, some 5], rank := 0, colls := [(0, { sq := 0, idx := 0, chunks := [(0, { credited := true })] })] })], ops := [(0, { desc 0x21 [262144] with stage := .running })] }))) 0).1,
       (got (trackerFor 5 (pk 11 0xC0 4 0 0 (zeros 4)) (purlTracker 5 (pk 11 0xC0 4 0 0 (zeros 4)) (packetIn (pk 11 0xC0 4 0 0 (zeros 4)) ({ netQp ertQp with groups := [(0, { st := .active, members := [some 4, some 5], rank := 0, colls := [(0, { sq := 0, idx := 0, chunks := [(0, { credited := true })] })] })], ops := [(0, { desc 0x21 [262144] with stage := .running })] }))) (packetIn (pk 11 0xC0 4 0 0 (zeros 4)) ({ netQp ertQp with groups := [(0, { st := .active, members := [some 4, some 5], rank := 0, colls := [(0, { sq := 0, idx := 0, chunks := [(0, { credited := true })] })] })], ops := [(0, { desc 0x21 [262144] with stage := .running })] }))) 0).2,
       zeros 4, { sq := 0, idx := 0, chunks := [(0, { credited := true })] }, { desc 0x21 [262144] with stage := .running },
       by decide +kernel⟩,
   ⟨pk 12 0xC0 4 0 0 (zeros 4),
       { netQp ertQp with groups := [(0, { st := .active, members := [some 5, some 4], rank := 1, colls := [(0, { sq := 0, idx := 0, chunks := [(0, { sentUp := true })] })] })], ops := [(0, { desc 0x21 [262144] with stage := .running })] },
       by decide +kernel,
       (got (trackerFor 5 (pk 12 0xC0 4 0 0 (zeros 4)) (purlTracker 5 (pk 12 0xC0 4 0 0 (zeros 4)) (packetIn (pk 12 0xC0 4 0 0 (zeros 4)) ({ netQp ertQp with groups := [(0, { st := .active, members := [some 5, some 4], rank := 1, colls := [(0, { sq := 0, idx := 0, chunks := [(0, { sentUp := true })] })] })], ops := [(0, { desc 0x21 [262144] with stage := .running })] }))) (packetIn (pk 12 0xC0 4 0 0 (zeros 4)) ({ netQp ertQp with groups := [(0, { st := .active, members := [some 5, some 4], rank := 1, colls := [(0, { sq := 0, idx := 0, chunks := [(0, { sentUp := true })] })] })], ops := [(0, { desc 0x21 [262144] with stage := .running })] }))) 0).1,
       (got (trackerFor 5 (pk 12 0xC0 4 0 0 (zeros 4)) (purlTracker 5 (pk 12 0xC0 4 0 0 (zeros 4)) (packetIn (pk 12 0xC0 4 0 0 (zeros 4)) ({ netQp ertQp with groups := [(0, { st := .active, members := [some 5, some 4], rank := 1, colls := [(0, { sq := 0, idx := 0, chunks := [(0, { sentUp := true })] })] })], ops := [(0, { desc 0x21 [262144] with stage := .running })] }))) (packetIn (pk 12 0xC0 4 0 0 (zeros 4)) ({ netQp ertQp with groups := [(0, { st := .active, members := [some 5, some 4], rank := 1, colls := [(0, { sq := 0, idx := 0, chunks := [(0, { sentUp := true })] })] })], ops := [(0, { desc 0x21 [262144] with stage := .running })] }))) 0).2,
       zeros 4, { sq := 0, idx := 0, chunks := [(0, { sentUp := true })] }, { desc 0x21 [262144] with stage := .running },
       by decide +kernel⟩,
   ⟨pk 11 0xC0 16 0 0 (zeros 16), netQp ertQp, by decide +kernel⟩,
   ⟨pk 12 0xC0 16 0 0 (zeros 16), netQp ertQp, by decide +kernel⟩⟩

/-- What meets the hypotheses of each clause of `Obligations.GroupControlMessagesHaveTheirEffect`. -/
theorem wit_GroupControlMessagesHaveTheirEffect :
    (∃ p : ErtPkt, ∃ s : State, packetNew (arrived p s) p = true ∧ p.hdr.op = 13 ∧
        (let n := p.hdr.dstQpn.toNat; let t := packetIn p s; let grp := fld p.hdr.window 31 20; let kind := fld p.hdr.imm 26 24; groupOver (t.group grp) = false ∧
        ctlBad p = false ∧ (rankOf (t.group grp) n).isSome = true ∧ kind = 0)) ∧
    (∃ p : ErtPkt, ∃ s : State, packetNew (arrived p s) p = true ∧ p.hdr.op = 13 ∧
        (let n := p.hdr.dstQpn.toNat; let t := packetIn p s; let grp := fld p.hdr.window 31 20; let kind := fld p.hdr.imm 26 24; groupOver (t.group grp) = false ∧
        ctlBad p = false ∧ (rankOf (t.group grp) n).isSome = true ∧ kind = 1)) ∧
    (∃ p : ErtPkt, ∃ s : State, packetNew (arrived p s) p = true ∧ p.hdr.op = 13 ∧
        (let n := p.hdr.dstQpn.toNat; let t := packetIn p s; let grp := fld p.hdr.window 31 20; let kind := fld p.hdr.imm 26 24; groupOver (t.group grp) = false ∧
        ctlBad p = false ∧ (rankOf (t.group grp) n).isSome = true ∧ kind = 2)) ∧
    (∃ p : ErtPkt, ∃ s : State, packetNew (arrived p s) p = true ∧ p.hdr.op = 13 ∧
        (let n := p.hdr.dstQpn.toNat; let t := packetIn p s; let grp := fld p.hdr.window 31 20; let kind := fld p.hdr.imm 26 24; groupOver (t.group grp) = false ∧
        ctlBad p = false ∧ (rankOf (t.group grp) n).isSome = true ∧ kind = 3)) :=
  ⟨⟨pk 13 0xC0 16 0 0 (zeros 16), { netQp ertQp with groups := [(0, { st := .active, members := [some 4, some 5] })] },
      by decide +kernel⟩,
   ⟨pk 13 0xC0 0 0 0x1000000 [], { netQp ertQp with groups := [(0, { st := .active, members := [some 4, some 5] })] },
       by decide +kernel⟩,
   ⟨pk 13 0xC0 0 0 0x2000000 [], { netQp ertQp with groups := [(0, { st := .active, members := [some 4, some 5] })] },
       by decide +kernel⟩,
   ⟨pk 13 0xC0 8 0 0x3000000 (zeros 8), { netQp ertQp with groups := [(0, { st := .active, members := [some 4, some 5] })] },
       by decide +kernel⟩⟩

/-- What meets the hypotheses of each clause of `Obligations.RoceTrafficIsTaken`. -/
theorem wit_RoceTrafficIsTaken :
    (∃ p : RocePkt, ∃ s : State, roceTaken s p ∧ (let n := p.dstQp.toNat - 0x20000; ((∀ k,
        (s.qp n).roce.lastCnpIn = some k → k + 31250 ≤ s.ticks)))) ∧
    (∃ src : BitVec 128, ∃ s : State, s.fc.dstate = .normal ∧
        (let k := match s.qps.find? (fun e => e.2.mode == .roce && e.2.remoteAddrs.contains src) with | some e => (s.ctx e.2.ctx).slice | none => 512; let l := Tab.getD s.cm k []; l.length < 64)) ∧
    (∃ src : BitVec 128, ∃ s : State, s.fc.dstate = .normal ∧
        (let k := match s.qps.find? (fun e => e.2.mode == .roce && e.2.remoteAddrs.contains src) with | some e => (s.ctx e.2.ctx).slice | none => 512; let l := Tab.getD s.cm k []; 64 ≤ l.length)) ∧
    (∃ lp : Nat, ∃ s : State, pfcOn s (lpPort lp) = true) :=
  ⟨⟨{ lport := 0, src := 9, dscp := 0, icrcOk := true, ce := false, kind := .ack, psn := 0, dstQp := 0x20005, va := 0, rkey := 0, dmaLen := 0, imm := 0, swapAdd := 0, compare := 0, payload := [] },
      netQp { mode := .roce, st := .active, remoteAddrs := [9] },
      taken_roce rfl (by decide +kernel) rfl rfl rfl (by decide +kernel) (by decide +kernel), never (by decide +kernel)⟩,
   ⟨1, up, by decide +kernel⟩,
   ⟨1, { up with cm := [(512, List.replicate 64 { lport := 0, src := 1, data := [] })] }, by decide +kernel⟩,
   ⟨8, { up with pfcEn := 2, portCfg := [(1, BitVec.ofNat 34 16)] }, by decide +kernel⟩⟩

/-- What meets the hypotheses of each clause of `Obligations.TransportTimersActOnTheirQp`. -/
theorem wit_TransportTimersActOnTheirQp :
    (∃ s : State, ∃ n : Nat, s.fc.dstate = .normal ∧ (s.qp n).st = .active ∧ (s.qp n).mode = .ert ∧
        (let q := s.qp n; ∃ d : DoneMsg, q.complete.find? (fun d => d.id == q.delivered + 1) = some d ∧ d.tracker = none ∧
        d.imm = none ∧ d.op = 0)) ∧
    (∃ s : State, ∃ n : Nat, s.fc.dstate = .normal ∧ (s.qp n).st = .active ∧ (s.qp n).mode = .ert ∧
        (let q := s.qp n; ∃ d : DoneMsg, q.complete.find? (fun d => d.id == q.delivered + 1) = some d ∧ d.tracker = none ∧
        d.imm = none ∧ d.op = 1)) ∧
    (∃ s : State, ∃ n : Nat, s.fc.dstate = .normal ∧ (s.qp n).st = .active ∧ (s.qp n).mode = .ert ∧
        (let q := s.qp n; 0 < q.sinceAck)) ∧
    (∃ s : State, ∃ n : Nat, s.fc.dstate = .normal ∧ (s.qp n).st = .active ∧ (s.qp n).mode = .ert ∧
        (let q := s.qp n; ∃ psn : BitVec 32, ∃ f : Flight, q.flight.find? (fun f => f.psn == psn) = some f ∧ f.retryWait = false ∧
        f.otherAcked = false)) ∧
    (∃ s : State, ∃ n : Nat, s.fc.dstate = .normal ∧ (s.qp n).st = .active ∧ (s.qp n).mode = .ert ∧
        (let q := s.qp n; ∃ psn : BitVec 32, ∃ f : Flight, q.flight.find? (fun f => f.psn == psn) = some f ∧ f.retryWait = false ∧
        f.otherAcked = true ∧ 15 ≤ f.tinks)) ∧
    (∃ s : State, ∃ n : Nat, s.fc.dstate = .normal ∧ (s.qp n).st = .active ∧ (s.qp n).mode = .ert ∧
        (let q := s.qp n; ∃ f : Flight, q.flight.find? (fun f => f.psn == oldestPsn q) = some f)) ∧
    (∃ s : State, ∃ n : Nat, s.fc.dstate = .normal ∧ (s.qp n).st = .active ∧ (s.qp n).mode = .ert ∧ (∃ i : Nat, ∃ t : Tracker,
        Tab.get s.trackers i = some t ∧ t.qpn = n ∧ t.use = .ring)) ∧
    (∃ s : State, ∃ n : Nat, s.fc.dstate = .normal ∧ (s.qp n).st = .active ∧ (s.qp n).mode = .ert ∧
        (let q := s.qp n; ∃ path : Nat, (q.path path).sick = true ∧ (q.path path).portDown = false)) ∧
    (∃ s : State, ∃ n : Nat, s.fc.dstate = .normal ∧ (s.qp n).st = .active ∧ (s.qp n).mode = .ert ∧
        (let q := s.qp n; ∃ psn : BitVec 32, q.flight.any (fun f => f.psn == psn && f.retryWait) = true)) ∧
    (∃ s : State, ∃ n : Nat, s.fc.dstate = .normal ∧ (s.qp n).st = .active ∧ (s.qp n).mode = .ert ∧
        (let q := s.qp n; ∃ psn : BitVec 32, q.flight.any (fun f => f.psn == psn && f.retryWait) = false)) ∧
    (∃ s : State, ∃ n : Nat, s.fc.dstate = .normal ∧ (s.qp n).st = .active ∧ (s.qp n).mode = .ert ∧
        (let q := s.qp n; ∃ psn : BitVec 32, ∃ h : ErtPkt × Nat, q.held.find? (fun h => h.1.hdr.psn == psn) = some h ∧
        faulted s (.place n psn) = true)) :=
  ⟨⟨netQp { ertQp with complete := [{ id := 1, op := 0 }] }, 5, by decide +kernel, by decide +kernel, by decide +kernel,
      { id := 1, op := 0 }, by decide +kernel⟩,
   ⟨netQp { ertQp with complete := [{ id := 1, op := 1 }] }, 5, by decide +kernel, by decide +kernel, by decide +kernel,
       { id := 1, op := 1 }, by decide +kernel⟩,
   ⟨netQp { ertQp with sinceAck := 1 }, 5, by decide +kernel⟩,
   ⟨netQp { ertQp with flight := [{ psn := 0, msgId := 1, resp := false, hdr := (pk 0 0 0 0 0 []).hdr, payload := []  }] }, 5,
       by decide +kernel, by decide +kernel, by decide +kernel, 0,
       { psn := 0, msgId := 1, resp := false, hdr := (pk 0 0 0 0 0 []).hdr, payload := []  }, by decide +kernel⟩,
   ⟨netQp { ertQp with flight := [{ psn := 0, msgId := 1, resp := false, hdr := (pk 0 0 0 0 0 []).hdr, payload := [] , otherAcked := true, tinks := 15 }] },
       5, by decide +kernel, by decide +kernel, by decide +kernel, 0,
       { psn := 0, msgId := 1, resp := false, hdr := (pk 0 0 0 0 0 []).hdr, payload := [] , otherAcked := true, tinks := 15 },
       by decide +kernel⟩,
   ⟨netQp { ertQp with flight := [{ psn := 0, msgId := 1, resp := false, hdr := (pk 0 0 0 0 0 []).hdr, payload := []  }] }, 5,
       by decide +kernel, by decide +kernel, by decide +kernel,
       { psn := 0, msgId := 1, resp := false, hdr := (pk 0 0 0 0 0 []).hdr, payload := []  }, by decide +kernel⟩,
   ⟨{ netQp ertQp with trackers := [(8, { qpn := 5, msgId := 1, op := 1, use := .ring, shared := false, slice := 0, tc := 0 })] },
       5, by decide +kernel, by decide +kernel, by decide +kernel, 8,
       { qpn := 5, msgId := 1, op := 1, use := .ring, shared := false, slice := 0, tc := 0 }, by decide +kernel⟩,
   ⟨netQp { ertQp with paths := [(2, { sick := true })] }, 5, by decide +kernel, by decide +kernel, by decide +kernel, 2,
       by decide +kernel⟩,
   ⟨netQp { ertQp with flight := [{ psn := 0, msgId := 1, resp := false, hdr := (pk 0 0 0 0 0 []).hdr, payload := [] , retryWait := true }] },
       5, by decide +kernel, by decide +kernel, by decide +kernel, 0, by decide +kernel⟩,
   ⟨netQp ertQp, 5, by decide +kernel, by decide +kernel, by decide +kernel, 0, by decide +kernel⟩,
   ⟨{ netQp { ertQp with held := [(pk 0 0 0 0 0 [], 0)] } with xlt := { faults := [(0, { ctx := 0, panel := 0, page := 0, token := 1, joinCount := 1, joiners := [{ stream := .qp 5, purp := .place 5 0, kind := .write }], rd := false, wr := true, at_ := false, first := .qp 5 })] } },
       5, by decide +kernel, by decide +kernel, by decide +kernel, 0, (pk 0 0 0 0 0 [], 0), by decide +kernel⟩⟩

/-- What meets the hypotheses of each clause of `Obligations.GrantsAndEgress`. -/
theorem wit_GrantsAndEgress :
    (∃ s : State, ∃ i : Nat, ∃ t : Tracker, s.fc.dstate = .normal ∧ Tab.get s.trackers i = some t ∧ 0 < grantedAhead s t ∧
        grantPaced t.op = true ∧ t.use ≠ .roce) ∧
    (∃ s : State, s.fc.dstate = .normal) ∧
    (∃ s : State, ∃ lp : Nat, ∃ refill : Nat, portReady s lp = true ∧
        (let t := s.updLport lp (fun l => { l with tokens := min 16384 (l.tokens + refill) }); let l := t.lport lp; ∃ c : TxEntry,
        ∃ rest : List TxEntry, l.control = c :: rest ∧ c.bytes ≤ l.tokens)) ∧
    (∃ s : State, ∃ lp : Nat, ∃ refill : Nat, portReady s lp = true ∧
        (let t := s.updLport lp (fun l => { l with tokens := min 16384 (l.tokens + refill) }); let l := t.lport lp; ∃ c : TxEntry,
        ∃ rest : List TxEntry, l.control = c :: rest ∧ l.tokens < c.bytes)) ∧
    (∃ s : State, ∃ lp : Nat, ∃ refill : Nat, portReady s lp = true ∧
        (let t := s.updLport lp (fun l => { l with tokens := min 16384 (l.tokens + refill) }); let l := t.lport lp; ∃ tc : Nat,
        ∃ e : TxEntry, ∃ d : Tab Nat, l.control = [] ∧ egressPick t l 8192 l.nextTc l.deficit = some (tc, e, d))) :=
  ⟨⟨{ netQp ertQp with trackers := [(8, { qpn := 5, msgId := 1, op := 0, use := .ring, shared := false, slice := 0, tc := 0, msgLen := some 100000000, granted := 100000000 })] },
      8, { qpn := 5, msgId := 1, op := 0, use := .ring, shared := false, slice := 0, tc := 0, msgLen := some 100000000, granted := 100000000 },
      by decide +kernel⟩,
   ⟨up, by decide +kernel⟩,
   ⟨{ up with portCfg := [(0, 1)], nextHop := [(0, 1)], lports := [(0, { train := .up, width := 8, mask := 0xFF, control := [{ kind := .data, tc := 0, bytes := 100, frame := .pfc 0 false }], tokens := 100 })] },
       0, 0, by decide +kernel, { kind := .data, tc := 0, bytes := 100, frame := .pfc 0 false }, [], by decide +kernel⟩,
   ⟨{ up with portCfg := [(0, 1)], nextHop := [(0, 1)], lports := [(0, { train := .up, width := 8, mask := 0xFF, control := [{ kind := .data, tc := 0, bytes := 100, frame := .pfc 0 false }], tokens := 99 })] },
       0, 0, by decide +kernel, { kind := .data, tc := 0, bytes := 100, frame := .pfc 0 false }, [], by decide +kernel⟩,
   ⟨{ up with portCfg := [(0, 1)], nextHop := [(0, 1)], lports := [(0, { train := .up, width := 8, mask := 0xFF, egress := [(0, [{ kind := .data, tc := 0, bytes := 100, frame := .pfc 0 false }])] })] },
       0, 0, by decide +kernel,
       (gotEg (egressPick ({ up with portCfg := [(0, 1)], nextHop := [(0, 1)], lports := [(0, { train := .up, width := 8, mask := 0xFF, egress := [(0, [{ kind := .data, tc := 0, bytes := 100, frame := .pfc 0 false }])] })] }) (({ up with portCfg := [(0, 1)], nextHop := [(0, 1)], lports := [(0, { train := .up, width := 8, mask := 0xFF, egress := [(0, [{ kind := .data, tc := 0, bytes := 100, frame := .pfc 0 false }])] })] }).lport 0) 8192 0 [])).1,
       (gotEg (egressPick ({ up with portCfg := [(0, 1)], nextHop := [(0, 1)], lports := [(0, { train := .up, width := 8, mask := 0xFF, egress := [(0, [{ kind := .data, tc := 0, bytes := 100, frame := .pfc 0 false }])] })] }) (({ up with portCfg := [(0, 1)], nextHop := [(0, 1)], lports := [(0, { train := .up, width := 8, mask := 0xFF, egress := [(0, [{ kind := .data, tc := 0, bytes := 100, frame := .pfc 0 false }])] })] }).lport 0) 8192 0 [])).2.1,
       (gotEg (egressPick ({ up with portCfg := [(0, 1)], nextHop := [(0, 1)], lports := [(0, { train := .up, width := 8, mask := 0xFF, egress := [(0, [{ kind := .data, tc := 0, bytes := 100, frame := .pfc 0 false }])] })] }) (({ up with portCfg := [(0, 1)], nextHop := [(0, 1)], lports := [(0, { train := .up, width := 8, mask := 0xFF, egress := [(0, [{ kind := .data, tc := 0, bytes := 100, frame := .pfc 0 false }])] })] }).lport 0) 8192 0 [])).2.2,
       by decide +kernel⟩⟩

/-- What meets the hypotheses of each clause of `Obligations.RoceTimersAndTheEndOfAQp`. -/
theorem wit_RoceTimersAndTheEndOfAQp :
    (∃ s : State, ∃ n : Nat, s.fc.dstate = .normal ∧ (s.qp n).mode = .roce ∧ 10485760 ≤ (s.qp n).roce.bytes) ∧
    (∃ s : State, ∃ n : Nat, s.fc.dstate = .normal ∧ (s.qp n).mode = .roce ∧ (s.qp n).roce.bytes < 10485760) ∧
    (∃ s : State, ∃ n : Nat, s.fc.dstate = .normal ∧ (s.qp n).mode = .roce ∧ (s.qp n).st = .active ∧ (s.qp n).roce.unacked ≠ [] ∧
        (s.qp n).roce.rnrWait = false) ∧
    (∃ s : State, ∃ n : Nat, s.fc.dstate = .normal ∧ (s.qp n).mode = .roce ∧ (s.qp n).st = .active ∧
        (s.qp n).roce.rnrWait = true ∧ (((s.qp n).roce.maxRnr = 7 ∨ (s.qp n).roce.rnrRetries < (s.qp n).roce.maxRnr))) ∧
    (∃ s : State, ∃ n : Nat, s.fc.dstate = .normal ∧ (s.qp n).mode = .roce ∧ (s.qp n).st = .active ∧
        (s.qp n).roce.rnrWait = true ∧ (s.qp n).roce.maxRnr ≠ 7 ∧ (s.qp n).roce.maxRnr ≤ (s.qp n).roce.rnrRetries) ∧
    (∃ s : State, ∃ n : Nat, s.fc.dstate = .normal ∧ (s.qp n).st = .draining ∧ (s.qp n).abort = false) ∧
    (∃ s : State, ∃ n : Nat, s.fc.dstate = .normal ∧ (s.qp n).st = .draining ∧ qpIdle s n = true) :=
  ⟨⟨netQp { mode := .roce, st := .active, roce := { bytes := 10485760 } }, 5, by decide +kernel⟩,
   ⟨netQp { mode := .roce, st := .active, roce := { bytes := 10485759 } }, 5, by decide +kernel⟩,
   ⟨netQp { mode := .roce, st := .active, roce := { unacked := [{ pkt := { lport := 0, src := 9, dscp := 0, icrcOk := true, ce := false, kind := .ack, psn := 0, dstQp := 0x20005, va := 0, rkey := 0, dmaLen := 0, imm := 0, swapAdd := 0, compare := 0, payload := [] }, tc := 0 }] } },
       5, by decide +kernel⟩,
   ⟨netQp { mode := .roce, st := .active, roce := { rnrWait := true } }, 5, by decide +kernel⟩,
   ⟨netQp { mode := .roce, st := .active, roce := { rnrWait := true, maxRnr := 2, rnrRetries := 2 } }, 5, by decide +kernel⟩,
   ⟨netQp { mode := .roce, st := .draining, roce := {  } }, 5, by decide +kernel⟩,
   ⟨netQp { mode := .roce, st := .draining, roce := {  } }, 5, by decide +kernel⟩⟩

/-- What meets the hypotheses of each clause of `Obligations.LayersAndGroupsMoveOn`. -/
theorem wit_LayersAndGroupsMoveOn :
    (∃ s : State, ∃ sq : Nat, ∃ idx : Nat, ∃ o : Op, ∃ qpn : Nat, ∃ l : Nat, ∃ y : Layer, s.fc.dstate = .normal ∧
        s.op sq idx = some o ∧ o.qpn = some qpn ∧ o.skein.layers.find? (fun e => e.2.st == .triggered) = some (l, y) ∧
        o.done = false ∧ o.stage = .running ∧ o.stop = none ∧ o.skein.trigFail = none ∧
        (o.skein.layers.filter (fun e => layerOpen e.2)).length < 4 ∧ (s.qp qpn).st = .active) ∧
    (∃ s : State, ∃ g : Nat, s.fc.dstate = .normal ∧ (s.group g).st = .forming) ∧
    (∃ s : State, ∃ g : Nat, s.fc.dstate = .normal ∧ (s.group g).st = .active) ∧
    (∃ s : State, ∃ g : Nat, s.fc.dstate = .normal ∧ (∃ seq : Nat, ∃ k : Coll, ∃ o : Op, (s.group g).st = .active ∧
        (s.group g).timeout ≠ 15 ∧ s.coll g seq = some (k, o) ∧ o.finished = false)) ∧
    (∃ s : State, ∃ g : Nat, s.fc.dstate = .normal ∧ (s.group g).st = .draining ∧ (s.group g).colls = [] ∧
        s.trackers.any (fun t => t.2.use == .purl && t.2.aux.getD 0 4096 == g) = false) :=
  ⟨⟨{ netQp ertQp with ops := [(0, { desc 0x20 with stage := .running, qpn := some 5, skein := { layers := [(0, { st := .triggered })] } })] },
      0, 0, { desc 0x20 with stage := .running, qpn := some 5, skein := { layers := [(0, { st := .triggered })] } }, 5, 0,
      { st := .triggered }, by decide +kernel⟩,
   ⟨{ up with groups := [(3, { st := .forming })] }, 3, by decide +kernel⟩,
   ⟨{ up with groups := [(3, { st := .active })] }, 3, by decide +kernel⟩,
   ⟨{ up with groups := [(3, { st := .active, timeout := 0, colls := [(7, { sq := 0, idx := 0 })] })], ops := [(0, { desc 0x21 with stage := .running })] },
       3, by decide +kernel, 7, { sq := 0, idx := 0 }, { desc 0x21 with stage := .running }, by decide +kernel⟩,
   ⟨{ up with groups := [(3, { st := .draining })] }, 3, by decide +kernel⟩⟩

/-- What meets the hypotheses of each clause of `Obligations.DieLinkRequestsAndResponses`. -/
theorem wit_DieLinkRequestsAndResponses :
    (∃ s : State, ∃ m : Nat, ∃ txn : Nat, ∃ data : List Byte, ∃ r : DlReq, s.fc.dstate ≠ .halted ∧ answeredLater r.purp = false ∧
        (let t := flitIn m true (ceilDiv data.length 256) s; Tab.get (t.mod m).reqs txn = some r ∧ r.cmd.cmd ≠ 2)) ∧
    (∃ s : State, ∃ m : Nat, ∃ txn : Nat, ∃ data : List Byte, ∃ r : DlReq, s.fc.dstate ≠ .halted ∧ answeredLater r.purp = false ∧
        (let t := flitIn m true (ceilDiv data.length 256) s; Tab.get (t.mod m).reqs txn = some r ∧ r.cmd.cmd = 2 ∧ data = [])) ∧
    (∃ s : State, ∃ m : Nat, ∃ tag : BitVec 24, ∃ cva : BitVec 56, ∃ c : Nat, ∃ len : Nat, s.fc.dstate = .normal ∧ 0 < len ∧
        len ≤ 256 ∧ cva.toNat % 4096 + len ≤ 4096 ∧ tagCtx (flitIn m false 0 s) tag = some c) ∧
    (∃ s : State, ∃ m : Nat, ∃ tag : BitVec 24, ∃ cva : BitVec 56, ∃ c : Nat, ∃ len : Nat, s.fc.dstate = .normal ∧ 0 < len ∧
        len ≤ 256 ∧ cva.toNat % 4096 + len ≤ 4096 ∧ (∃ data : List Byte, data.length = len ∧
        tagCtx (flitIn m false (ceilDiv len 256) s) tag = some c)) ∧
    (∃ s : State, ∃ m : Nat, ∃ tag : BitVec 24, s.fc.dstate = .normal ∧ (∃ c : Nat, tagCtx (flitIn m false 1 s) tag = some c)) ∧
    (∃ s : State, ∃ m : Nat, ∃ tag : BitVec 24, s.fc.dstate = .normal ∧ tagCtx (flitIn m false 1 s) tag = none) :=
  ⟨⟨{ up with mods := [(0, { up := true, active := true, reqs := [(4, { purp := .cxlRead 0 1, cmd := { cmd := 1, txn := 4, atag := 0, cls := 0, len := 64, addr := 0 } })] })] },
      0, 4, zeros 64, { purp := .cxlRead 0 1, cmd := { cmd := 1, txn := 4, atag := 0, cls := 0, len := 64, addr := 0 } },
      by decide +kernel⟩,
   ⟨{ up with mods := [(0, { up := true, active := true, reqs := [(4, { purp := .cxlRead 0 1, cmd := { cmd := 2, txn := 4, atag := 0, cls := 0, len := 64, addr := 0 } })] })] },
       0, 4, [], { purp := .cxlRead 0 1, cmd := { cmd := 2, txn := 4, atag := 0, cls := 0, len := 64, addr := 0 } },
       by decide +kernel⟩,
   ⟨up, 0, accessTag up 0, 0xF00, 0, 256, by decide +kernel⟩,
   ⟨up, 0, accessTag up 0, 0xFFF, 0, 1, by decide +kernel, by decide +kernel, by decide +kernel, by decide +kernel, [7],
       by decide +kernel⟩,
   ⟨up, 0, accessTag up 0, by decide +kernel, 0, by decide +kernel⟩,
   ⟨up, 0, 9, by decide +kernel⟩⟩

/-- What meets the hypotheses of each clause of `Obligations.FlitsAndModules`. -/
theorem wit_FlitsAndModules :
    (∃ s : State, ∃ m : Nat, moduleLive s m = true) ∧
    (∃ s : State, ∃ m : Nat, moduleLive s m = true) ∧
    (∃ s : State, ∃ m : Nat, s.fc.dstate ≠ .halted ∧ (s.mod m).up = false ∧ (s.mod m).active = true) ∧
    (∃ s : State, ∃ m : Nat, s.fc.dstate ≠ .halted ∧ (s.mod m).up = false ∧ (s.mod m).active = true) ∧
    (∃ s : State, ∃ m : Nat, s.fc.dstate ≠ .halted ∧ (s.mod m).up = false ∧ (s.mod m).active = false ∧
        (s.die (m / 6)).attached = true) :=
  ⟨⟨{ up with mods := [(0, { up := true, active := true })], dies := [(0, { attached := true })] }, 0, by decide +kernel⟩,
   ⟨{ up with mods := [(0, { up := true, active := true })], dies := [(0, { attached := true })] }, 0, by decide +kernel⟩,
   ⟨{ up with mods := [(0, { active := true })], dies := [(0, { attached := true })] }, 0, by decide +kernel⟩,
   ⟨{ up with mods := [(0, { active := true })], dies := [(0, { attached := true })] }, 0, by decide +kernel⟩,
   ⟨{ up with mods := [(0, {  })], dies := [(0, { attached := true })] }, 0, by decide +kernel⟩⟩

/-- What meets the hypotheses of each clause of `Obligations.GovernorActs`. -/
theorem wit_GovernorActs :
    (∃ s : State, s.fc.dstate ≠ .halted ∧ (∃ p : Nat, (s.die p).attached = true ∧ (s.die p).heard = false)) ∧
    (∃ s : State, s.fc.dstate ≠ .halted ∧ (∃ p : Nat, (s.die p).attached = true ∧ (s.die p).stale = false)) ∧
    (∃ s : State, s.fc.dstate ≠ .halted ∧ (∃ p : Nat, (s.die p).attached = true ∧ (s.die p).stale = true)) ∧
    (∃ s : State, s.fc.dstate ≠ .halted ∧ oneUnit s 52 0 = .inService ∧ (∃ p : Nat, (s.die p).attached = true)) ∧
    (∃ s : State, s.fc.dstate ≠ .halted ∧ oneUnit s 52 0 = .inService) ∧
    (∃ s : State, s.fc.dstate ≠ .halted ∧ oneUnit s 52 0 ≠ .inService) ∧
    (∃ s : State, s.fc.dstate ≠ .halted ∧ (∃ n : Nat, ∃ r : Nat, s.gov.hot = [n] ∧ s.gov.throttle = true ∧ r ≤ 400)) ∧
    (∃ s : State, s.fc.dstate ≠ .halted ∧ (∃ r : Nat, s.gov.hot = [] ∧ s.gov.throttle = false ∧ 420 ≤ r ∧ r < 500)) :=
  ⟨⟨{ up with dies := [(1, { attached := true })] }, by decide +kernel, 1, by decide +kernel⟩,
   ⟨{ up with dies := [(1, { attached := true })] }, by decide +kernel, 1, by decide +kernel⟩,
   ⟨{ up with dies := [(1, { attached := true, stale := true })] }, by decide +kernel, 1, by decide +kernel⟩,
   ⟨{ up with dies := [(1, { attached := true })] }, by decide +kernel, by decide +kernel, 1, by decide +kernel⟩,
   ⟨up, by decide +kernel⟩,
   ⟨{ up with fc := { units := [(52 * 64, .fenced)] } }, by decide +kernel⟩,
   ⟨{ up with gov := { hot := [3], throttle := true } }, by decide +kernel, 3, 400, by decide +kernel⟩,
   ⟨up, by decide +kernel, 420, by decide +kernel⟩⟩

/-- What meets the hypotheses of each clause of `Obligations.BlocksAndTraining`. -/
theorem wit_BlocksAndTraining :
    (∃ s : State, ∃ b : NativeBlk, nativeUp s b.lport = true ∧ b.bad = true) ∧
    (∃ s : State, ∃ b : NativeBlk, nativeUp s b.lport = true ∧ (let lp := b.lport; b.bad = false ∧ b.ack = none ∧
        b.seq = (s.lport lp).rxSeq)) ∧
    (∃ s : State, ∃ b : NativeBlk, nativeUp s b.lport = true ∧ (let lp := b.lport; b.bad = false ∧ b.ack = none ∧
        b.seq ≠ (s.lport lp).rxSeq ∧ ((s.lport lp).rxSeq - b.seq).toNat ≤ 64)) ∧
    (∃ s : State, ∃ b : NativeBlk, nativeUp s b.lport = true ∧ (let lp := b.lport; b.bad = false ∧ b.ack = none ∧
        b.seq ≠ (s.lport lp).rxSeq ∧ 64 < ((s.lport lp).rxSeq - b.seq).toNat)) ∧
    (∃ s : State, ∃ lp : Nat, nativeUp s lp = true ∧ (∃ b : NBlock,
        ∃ rest : List NBlock, (s.lport lp).replay = b :: rest)) ∧
    (∃ s : State, ∃ lp : Nat, lpMayRun s lp = true ∧ (∃ lane : Nat, portMode s (lpPort lp) = 0 ∧ (s.lport lp).train = .equalise ∧
        lane < lpWidth s lp)) ∧
    (∃ s : State, ∃ lp : Nat, lpMayRun s lp = true ∧ (∃ mask : BitVec 8, ∃ offer : Nat, ∃ g : Nat × Nat,
        portMode s (lpPort lp) = 0 ∧ (s.lport lp).train = .align ∧
        bestGroup (lpWidth s lp) (min (lpWidth s lp) offer) (fun i => ((s.lport lp).lane i).localReady && ((s.lport lp).lane i).peerReady && !((s.lport lp).lane i).failed && mask.getLsbD i) = some g)) ∧
    (∃ s : State, ∃ lp : Nat, lpMayRun s lp = true ∧ (∃ w : Nat, ∃ k : Nat, portMode s (lpPort lp) ≠ 0 ∧ lportUp s lp = false ∧
        ((w = 1 ∨ w = 2 ∨ w = 4 ∨ w = 8)) ∧ bestGroup (lpWidth s lp) w (fun i => !((s.lport lp).lane i).failed) = some (w, k))) :=
  ⟨⟨{ up with portCfg := [(0, 1)], nextHop := [(0, 1)], lports := [(0, { train := .up, width := 8, mask := 0xFF })] },
      { lport := 0, bad := true, seq := 0, ack := none, frames := [] }, by decide +kernel⟩,
   ⟨{ up with portCfg := [(0, 1)], nextHop := [(0, 1)], lports := [(0, { train := .up, width := 8, mask := 0xFF })] },
       { lport := 0, bad := false, seq := 0, ack := none, frames := [] }, by decide +kernel⟩,
   ⟨{ up with portCfg := [(0, 1)], nextHop := [(0, 1)], lports := [(0, { train := .up, width := 8, mask := 0xFF })] },
       { lport := 0, bad := false, seq := 255, ack := none, frames := [] }, by decide +kernel⟩,
   ⟨{ up with portCfg := [(0, 1)], nextHop := [(0, 1)], lports := [(0, { train := .up, width := 8, mask := 0xFF })] },
       { lport := 0, bad := false, seq := 64, ack := none, frames := [] }, by decide +kernel⟩,
   ⟨{ up with portCfg := [(0, 1)], nextHop := [(0, 1)], lports := [(0, { train := .up, width := 8, mask := 0xFF, replay := [{ seq := 0, ptr := 0, body := [] }] })] },
       0, by decide +kernel, { seq := 0, ptr := 0, body := [] }, [], by decide +kernel⟩,
   ⟨{ up with portCfg := [(0, 1)], nextHop := [(0, 1)], lports := [(0, { train := .equalise })] }, 0, by decide +kernel, 3,
       by decide +kernel⟩,
   ⟨{ up with portCfg := [(0, 1)], nextHop := [(0, 1)], lports := [(0, { train := .align, lanes := [(2, { localReady := true, peerReady := true }), (3, { localReady := true, peerReady := true })] })] },
       0, by decide +kernel, 0xFF, 2, (2, 2), by decide +kernel⟩,
   ⟨{ up with portCfg := [(0, BitVec.ofNat 34 17)], nextHop := [(0, 1)], lports := [(0, {})] }, 0, by decide +kernel, 8, 0,
       by decide +kernel⟩⟩

/-- What meets the hypotheses of each clause of `Obligations.LanesWidthsAndSubports`. -/
theorem wit_LanesWidthsAndSubports :
    (∃ s : State, ∃ lp : Nat, ∃ lane : Nat, s.fc.dstate ≠ .halted ∧ lpMayRun s lp = true ∧ lane < lpWidth s lp) ∧
    (∃ s : State, ∃ lp : Nat, nativeUp s lp = true ∧ (∃ m : BitVec 8, ∃ g : Nat × Nat,
        maskGroup (lpWidth s lp) m.toNat = some g)) ∧
    (∃ s : State, ∃ lp : Nat, nativeUp s lp = true ∧ (∃ a : BitVec 8, ∃ m : BitVec 8, ∃ g : Nat × Nat,
        (s.lport lp).pending = some (m, a) ∧ maskGroup (lpWidth s lp) m.toNat = some g)) ∧
    (∃ s : State, ∃ lp : Nat, nativeUp s lp = true ∧ (∃ lane : Nat, ((s.lport lp).lane lane).failed = true ∧ lane < lpWidth s lp ∧
        oneUnit s (fabricSource lp) (laneUnit s lp lane) = .testing)) ∧
    (∃ s : State, ∃ lp : Nat, lportUp s lp = true ∧ s.fc.dstate ≠ .halted) :=
  ⟨⟨{ up with portCfg := [(0, 1)], nextHop := [(0, 1)], lports := [(0, {})] }, 0, 7, by decide +kernel⟩,
   ⟨{ up with portCfg := [(0, 1)], nextHop := [(0, 1)], lports := [(0, { train := .up, width := 8, mask := 0xFF })] }, 0,
       by decide +kernel, 0x0C, (2, 2), by decide +kernel⟩,
   ⟨{ up with portCfg := [(0, 1)], nextHop := [(0, 1)], lports := [(0, { train := .up, width := 8, mask := 0xFF, pending := some (0x0C, 1) })] },
       0, by decide +kernel, 1, 0x0C, (2, 2), by decide +kernel⟩,
   ⟨{ { up with portCfg := [(0, 1)], nextHop := [(0, 1)], lports := [(0, { train := .up, width := 8, mask := 0xFF, lanes := [(3, { failed := true })] })] } with fc := { units := [(42 * 64 + 3, .testing)] } },
       0, by decide +kernel, 3, by decide +kernel⟩,
   ⟨{ up with portCfg := [(0, 1)], nextHop := [(0, 1)], lports := [(0, { train := .up, width := 8, mask := 0xFF })] }, 0,
       by decide +kernel⟩⟩

/-- What meets the hypotheses of each clause of `Obligations.HostWindowsReachHbm`. -/
theorem wit_HostWindowsReachHbm :
    (∃ r : Bar2Req, ∃ s : State, s.fc.dstate ≠ .halted ∧ (let a := barDpa s r.link r.offset; ∃ len : Nat,
        barAdmits s r .read = true ∧ inStash s a len = false ∧ inHbm s a len = true ∧ isSealed s a len = true)) ∧
    (∃ r : Bar2Req, ∃ s : State, s.fc.dstate ≠ .halted ∧ (let a := barDpa s r.link r.offset; ∃ len : Nat,
        barAdmits s r .read = true ∧ inStash s a len = false ∧ inHbm s a len = true ∧ isSealed s a len = false)) ∧
    (∃ r : Bar2Req, ∃ s : State, s.fc.dstate ≠ .halted ∧ (let a := barDpa s r.link r.offset; ∃ data : List Byte,
        barAdmits s r .write = true ∧ inStash s a data.length = false ∧ inHbm s a data.length = true)) ∧
    (∃ r : Bar2Req, ∃ s : State, s.fc.dstate ≠ .halted ∧ (let a := barDpa s r.link r.offset; ∃ op : HostAtomic, ∃ aop : Nat,
        ∃ n : Nat, hostAop op = some (aop, n) ∧ barAdmits s r .atomic = true ∧ inStash s a n = false ∧ inHbm s a n = true ∧
        a % n = 0 ∧ isSealed s a n = false)) ∧
    (∃ r : Bar2Req, ∃ s : State, s.fc.dstate ≠ .halted ∧ barAdmits s r .read = false) ∧
    (∃ link : Nat, ∃ hpa : Nat, ∃ s : State, s.fc.dstate ≠ .halted ∧ (s.link link).hdmBase ≤ hpa ∧
        (let a := (hpa - (s.link link).hdmBase) / 64 * 64; inStash s a 64 = false ∧ inHbm s a 64 = true ∧
        isSealed s a 64 = true)) ∧
    (∃ link : Nat, ∃ hpa : Nat, ∃ s : State, s.fc.dstate ≠ .halted ∧ (s.link link).hdmBase ≤ hpa ∧
        (let a := (hpa - (s.link link).hdmBase) / 64 * 64; inStash s a 64 = false ∧ inHbm s a 64 = true ∧
        isSealed s a 64 = false)) ∧
    (∃ link : Nat, ∃ hpa : Nat, ∃ s : State, s.fc.dstate ≠ .halted ∧ (s.link link).hdmBase ≤ hpa ∧
        (let a := (hpa - (s.link link).hdmBase) / 64 * 64; inStash s a 64 = false ∧ inHbm s a 64 = true)) :=
  ⟨⟨{ link := 0, rid := 0, tag := 1, offset := 0 },
      { up with ridFilter := [(0, BitVec.ofNat 38 (15 * 2 ^ 34))], fnd := { ready := true, accepted := true, sealTab := [{ base := 0, len := 64, mo := 0, load := 0 }] } },
      by decide +kernel, 64, by decide +kernel⟩,
   ⟨{ link := 0, rid := 0, tag := 1, offset := 0 }, { up with ridFilter := [(0, BitVec.ofNat 38 (15 * 2 ^ 34))] },
       by decide +kernel, 64, by decide +kernel⟩,
   ⟨{ link := 0, rid := 0, tag := 1, offset := 0 }, { up with ridFilter := [(0, BitVec.ofNat 38 (15 * 2 ^ 34))] },
       by decide +kernel, [7], by decide +kernel⟩,
   ⟨{ link := 0, rid := 0, tag := 1, offset := 0 }, { up with ridFilter := [(0, BitVec.ofNat 38 (15 * 2 ^ 34))] },
       by decide +kernel, .fetchAdd 8, 1, 8, by decide +kernel⟩,
   ⟨{ link := 0, rid := 0, tag := 1, offset := 0 }, up, by decide +kernel⟩,
   ⟨0, 0, { up with fnd := { ready := true, accepted := true, sealTab := [{ base := 0, len := 64, mo := 0, load := 0 }] } },
       by decide +kernel⟩,
   ⟨0, 0, up, by decide +kernel⟩,
   ⟨0, 0, up, by decide +kernel⟩⟩

/-- What meets the hypotheses of each clause of `Obligations.HostAnswersAndSnoops`. -/
theorem wit_HostAnswersAndSnoops :
    (∃ s : State, ∃ link : Nat, ∃ line : Nat, Tab.get s.cwc (cwcKey link line) = none) ∧
    (∃ s : State, ∃ link : Nat, ∃ line : Nat, ∃ v : CwcLine, Tab.get s.cwc (cwcKey link line) = some v) ∧
    (∃ s : State, ∃ link : Nat, ∃ line : Nat, ∃ w : Nat × DirectReq × Nat, ∃ ws : List (Nat × DirectReq × Nat),
        s.fc.dstate ≠ .halted ∧ s.directWait.filter (fun d => d.2.2 == cwcKey link line) = w :: ws) ∧
    (∃ s : State, ∃ link : Nat, ∃ line : Nat, ∃ h : HdmLine, s.fc.dstate ≠ .halted ∧ Tab.get s.hdm line = some h ∧ h.link = link ∧
        s.biWait.filter (fun w => w.link == link && w.line == line) = []) ∧
    (∃ s : State, ∃ link : Nat, ∃ tag : Nat, ∃ r : HostReq, s.fc.dstate ≠ .halted ∧ Tab.get (s.link link).reqs tag = some r ∧
        tag < 8192 ∧ answeredLater r.purp = false) :=
  ⟨⟨up, 0, 7, by decide +kernel⟩,
   ⟨{ up with cwc := [(cwcKey 0 7, { ctx := 0, owned := true, modified := true, data := [], lru := 0 })] }, 0, 7,
       { ctx := 0, owned := true, modified := true, data := [], lru := 0 }, by decide +kernel⟩,
   ⟨{ up with directWait := [(0, { module := 0, txn := 0, store := false, cva := 0, len := 1, data := [] }, cwcKey 0 7)] }, 0, 7,
       (0, { module := 0, txn := 0, store := false, cva := 0, len := 1, data := [] }, cwcKey 0 7), [], by decide +kernel⟩,
   ⟨{ up with hdm := [(7, { link := 0, modified := false, lru := 0 })] }, 0, 7, { link := 0, modified := false, lru := 0 },
       by decide +kernel⟩,
   ⟨{ up with links := [(0, { up := true, reqs := [(8191, { purp := .cxlRead 0 1, addr := 0, len := 64, slice := some 0 })] })] },
       0, 8191, { purp := .cxlRead 0 1, addr := 0, len := 64, slice := some 0 }, by decide +kernel⟩⟩

/-- What meets the hypotheses of each clause of `Obligations.HostLinksComeAndGo`. -/
theorem wit_HostLinksComeAndGo :
    (∃ s : State, ∃ link : Nat, (s.link link).up = false ∧ (s.link link).lostAt ≠ none) ∧
    (∃ s : State, ∃ link : Nat, linkPresent s link = true ∧ (s.link link).fixed = true ∧ (s.link link).cxl = false) ∧
    (∃ s : State, ∃ link : Nat, cfgAnswers s = true ∧ linkPresent s link = true) ∧
    (∃ s : State, ∃ link : Nat, cfgAnswers s = true ∧ linkPresent s link = true) ∧
    (∃ s : State, ∃ link : Nat, cfgAnswers s = true ∧ linkPresent s link = true) :=
  ⟨⟨{ up with links := [(0, { lostAt := some 0 })] }, 0, by decide +kernel⟩,
   ⟨{ up with links := [(0, { fixed := true })] }, 0, by decide +kernel⟩,
   ⟨{ up with castOn := { perst := false, rails := 5 } }, 2, by decide +kernel⟩,
   ⟨{ up with castOn := { perst := false, rails := 5 } }, 0, by decide +kernel⟩,
   ⟨{ up with castOn := { perst := false, rails := 5 } }, 0, by decide +kernel⟩⟩

/-- What meets the hypotheses of each clause of `Obligations.FaultCollectorCommands`. -/
theorem wit_FaultCollectorCommands :
    (∃ s : State, s.fc.dstate = .normal ∧ (∃ f : FaultEv, f.ctx = none ∧ f.source ≠ 36 ∧ f.source ≠ 37)) ∧
    (∃ s : State, s.fc.dstate = .normal ∧ (∃ n : Nat, s.fc.timers.contains n = true ∧ statusBit s n = true ∧
        (fcSrc s n).escalated = false)) ∧
    (∃ s : State, s.fc.dstate = .normal ∧ (∃ n : Nat, autoOn s n = true)) ∧
    (∃ s : State, s.fc.dstate = .normal ∧ (∃ w : RegWrite, w.link = mgrLink s ∧ w.aligned = true)) :=
  ⟨⟨up, by decide +kernel,
      { source := 50, cls := 2, detail := 1, unit := 0, ctx := none, slice := none, causeActive := false, unitStamp := 0, twoRecent := false },
      by decide +kernel⟩,
   ⟨{ up with fc := { timers := [50], status := 2 ^ 50 } }, by decide +kernel, 50, by decide +kernel⟩,
   ⟨up, by decide +kernel, 50, by decide +kernel⟩,
   ⟨up, by decide +kernel, wr 1, by decide +kernel⟩⟩

/-- What meets the hypotheses of each clause of `Obligations.ReinitStepsInOrder`. -/
theorem wit_ReinitStepsInOrder :
    (∃ s : State, reinitAt s .quiesce = true) ∧
    (∃ s : State, ∃ cool : Bool, reinitAt s .reset = true ∧ (s.fc.cause = 0x1A → cool = true)) ∧
    (∃ s : State, reinitAt s .verify = true) ∧
    (∃ s : State, reinitAt s .restart = true) ∧
    (∃ s : State, reinitAt s .resume = true ∧ s.fc.intPending = false) ∧
    (∃ s : State, s.fc.dstate = .reinit) :=
  ⟨⟨{ up with fc := { dstate := .reinit, step := some .quiesce } }, by decide +kernel⟩,
   ⟨{ up with fc := { dstate := .reinit, step := some .reset } }, true, by decide +kernel⟩,
   ⟨{ up with fc := { dstate := .reinit, step := some .verify } }, by decide +kernel⟩,
   ⟨{ up with fc := { dstate := .reinit, step := some .restart } }, by decide +kernel⟩,
   ⟨{ up with fc := { dstate := .reinit, step := some .resume } }, by decide +kernel⟩,
   ⟨{ up with fc := { dstate := .reinit, step := some .quiesce } }, by decide +kernel⟩⟩

/-- What meets the hypotheses of each clause of `Obligations.StateCacheCommands`. -/
theorem wit_StateCacheCommands :
    (∃ s : State, s.fc.dstate = .normal ∧ s.sc.scrubOn = true) ∧
    (∃ s : State, s.fc.dstate = .normal ∧ (∃ half : Nat, ∃ way : Nat, wayDue s half way = true)) ∧
    (∃ s : State, s.fc.dstate = .normal ∧ (∃ w : RegWrite, regTaken s w ∧ s.sc.busy = false ∧
        (let t := updSc (fun c => { c with cmd := BitVec.ofNat 20 (freshReg w).toNat, linesDone := 0, result := 0 }) s; ∃ x : List Nat × Nat,
        scNamed t = .inr x ∧ fld (freshReg w) 1 0 = 1))) ∧
    (∃ s : State, s.fc.dstate = .normal ∧ (∃ w : RegWrite, regTaken s w ∧ s.sc.busy = false ∧
        (let t := updSc (fun c => { c with cmd := BitVec.ofNat 20 (freshReg w).toNat, linesDone := 0, result := 0 }) s; ∃ x : List Nat × Nat,
        scNamed t = .inr x ∧ fld (freshReg w) 1 0 = 2))) ∧
    (∃ s : State, s.fc.dstate = .normal ∧ (∃ w : RegWrite, regTaken s w ∧ s.sc.busy = false ∧
        (let t := updSc (fun c => { c with cmd := BitVec.ofNat 20 (freshReg w).toNat, linesDone := 0, result := 0 }) s; ∃ x : List Nat × Nat,
        scNamed t = .inr x ∧ fld (freshReg w) 1 0 = 3))) ∧
    (∃ s : State, s.fc.dstate = .normal ∧ (∃ w : RegWrite, regTaken s w ∧ s.sc.busy = true ∧ fld (freshReg w) 1 0 = 1)) ∧
    (∃ s : State, s.fc.dstate = .normal ∧ (∃ ks : List Nat, ∃ n : Nat, s.sc.busy = true ∧ scNamed s = .inr (ks, n))) :=
  ⟨⟨up, by decide +kernel⟩,
   ⟨{ up with sc := { errs := [(3, 8)] } }, by decide +kernel, 0, 3, by decide +kernel⟩,
   ⟨{ up with sc := { count := 1 } }, by decide +kernel, wr 1, taken_reg rfl rfl rfl, by decide +kernel, ([], 1),
       by decide +kernel⟩,
   ⟨{ up with sc := { count := 1 } }, by decide +kernel, wr 2, taken_reg rfl rfl rfl, by decide +kernel, ([], 1),
       by decide +kernel⟩,
   ⟨{ up with sc := { count := 1 } }, by decide +kernel, wr 3, taken_reg rfl rfl rfl, by decide +kernel, ([], 1),
       by decide +kernel⟩,
   ⟨{ up with sc := { count := 1, busy := true } }, by decide +kernel, wr 1, taken_reg rfl rfl rfl, by decide +kernel⟩,
   ⟨{ up with sc := { count := 1, busy := true } }, by decide +kernel, [], 1, by decide +kernel⟩⟩

/-- What meets the hypotheses of each clause of `Obligations.RegisterWritesFollowTheirRules`. -/
theorem wit_RegisterWritesFollowTheirRules :
    (∃ s : State, ∃ w : RegWrite, regTaken s w ∧ (∃ n : Nat, n < 12)) ∧
    (∃ s : State, ∃ w : RegWrite, regTaken s w ∧
        (let v := BitVec.ofNat 16 (mergeReg w (s.ertPort.setWidth 64)).toNat; s.qps = [] ∧ v ≠ 4791)) ∧
    (∃ s : State, ∃ w : RegWrite, regTaken s w ∧ (∃ n : Nat, ∃ q : Qp, s.qps = [(n, q)] ∧ q.mode = .ert ∧ q.st = .active)) ∧
    (∃ s : State, ∃ w : RegWrite, regTaken s w ∧ rsvSum (mergeReg w s.trkRsv) ≤ 128) ∧
    (∃ s : State, ∃ w : RegWrite, regTaken s w ∧ 128 < rsvSum (mergeReg w s.trkRsv)) ∧
    (∃ s : State, ∃ w : RegWrite, regTaken s w ∧ (let v := mergeReg w (pfcReg s); fld v 25 16 ≠ 0 ∧ fld v 41 32 < fld v 25 16)) ∧
    (∃ s : State, ∃ w : RegWrite, regTaken s w ∧ ((∀ c ∈ s.ctxs, c.2.st ≠ .active))) ∧
    (∃ s : State, ∃ w : RegWrite, regTaken s w ∧ ((∃ c ∈ s.ctxs, c.2.st = .active))) ∧
    (∃ s : State, ∃ w : RegWrite, s.fc.dstate = .reinit ∧ w.link = mgrLink s ∧ w.aligned = true ∧ s.heldWrites.length < 1024) ∧
    (∃ s : State, ∃ w : RegWrite, ((s.fc.dstate = .halted ∨ w.link ≠ mgrLink s ∨ w.aligned = false))) :=
  ⟨⟨up, wr 1, taken_reg rfl rfl rfl, 11, by decide +kernel⟩,
   ⟨up, wr 4790, taken_reg rfl rfl rfl, by decide +kernel⟩,
   ⟨{ up with qps := [(5, ertQp)] }, wr 4790, taken_reg rfl rfl rfl, 5, ertQp, by decide +kernel⟩,
   ⟨up, wr 128, taken_reg rfl rfl rfl, by decide +kernel⟩,
   ⟨up, wr 129, taken_reg rfl rfl rfl, by decide +kernel⟩,
   ⟨up, wr 4295098368, taken_reg rfl rfl rfl, by decide +kernel⟩,
   ⟨{ up with ctxs := [(0, { st := .draining })] }, wr 1, taken_reg rfl rfl rfl, by decide +kernel⟩,
   ⟨up, wr 1, taken_reg rfl rfl rfl, by decide +kernel⟩,
   ⟨{ up with fc := { dstate := .reinit } }, wr 1, by decide +kernel⟩,
   ⟨up, { wr 1 with aligned := false }, by decide +kernel⟩⟩

/-- What meets the hypotheses of each clause of `Obligations.MailboxDoorbell`. -/
theorem wit_MailboxDoorbell :
    (∃ s : State, ∃ mb : Mbox, ∃ link : Nat, ∃ v : Word, mbLive s (mbNum mb) = true ∧ link = mbLink s (mbNum mb) ∧
        (let n := mbNum mb; let m := s.mbox n; let seq := BitVec.ofNat 16 (fld v 15 0); let h := Tab.getD m.page 0 0; s.fc.dstate = .normal ∧
        m.running = false ∧ seq = m.lastSeq + 1 ∧ mbOpcodes.contains (fld h 15 0) = true)) ∧
    (∃ s : State, ∃ mb : Mbox, ∃ link : Nat, ∃ v : Word, mbLive s (mbNum mb) = true ∧ link = mbLink s (mbNum mb) ∧
        (let n := mbNum mb; let m := s.mbox n; let seq := BitVec.ofNat 16 (fld v 15 0); ∃ ws : List Word, s.fc.dstate = .normal ∧
        m.running = false ∧ seq = m.lastSeq ∧ m.kept = some ws)) ∧
    (∃ s : State, ∃ mb : Mbox, ∃ link : Nat, ∃ v : Word, mbLive s (mbNum mb) = true ∧ link = mbLink s (mbNum mb) ∧
        (let n := mbNum mb; let m := s.mbox n; let seq := BitVec.ofNat 16 (fld v 15 0); s.fc.dstate = .normal ∧
        m.running = false ∧ seq ≠ m.lastSeq ∧ seq ≠ m.lastSeq + 1)) ∧
    (∃ s : State, ∃ mb : Mbox, ∃ link : Nat, ∃ v : Word, mbLive s (mbNum mb) = true ∧ link = mbLink s (mbNum mb) ∧
        (let n := mbNum mb; let m := s.mbox n; let seq := BitVec.ofNat 16 (fld v 15 0); s.fc.dstate = .normal ∧ m.running = true ∧
        seq = m.lastSeq)) ∧
    (∃ s : State, ∃ mb : Mbox, ∃ link : Nat, mbLive s (mbNum mb) = true ∧ link = mbLink s (mbNum mb) ∧ s.fc.dstate = .halted) ∧
    (∃ s : State, ∃ mb : Mbox, ∃ link : Nat, mbLive s (mbNum mb) = true ∧ link = mbLink s (mbNum mb) ∧
        (let n := mbNum mb; s.fc.dstate = .reinit ∧ Tab.get s.heldMb n = none)) :=
  ⟨⟨{ up with mailboxes := [(512, { lastSeq := 65535, page := [(0, 0x0101)] })] }, .manager, 0, 0x10000, by decide +kernel⟩,
   ⟨{ up with mailboxes := [(512, { lastSeq := 4, kept := some [1] })] }, .manager, 0, 4, by decide +kernel, by decide +kernel,
       [1], by decide +kernel⟩,
   ⟨{ up with mailboxes := [(512, { lastSeq := 4 })] }, .manager, 0, 6, by decide +kernel⟩,
   ⟨{ up with mailboxes := [(512, { lastSeq := 4, running := true })] }, .manager, 0, 4, by decide +kernel⟩,
   ⟨{ up with fc := { dstate := .halted } }, .manager, 0, by decide +kernel⟩,
   ⟨{ up with fc := { dstate := .reinit } }, .manager, 0, by decide +kernel⟩⟩

/-- What meets the hypotheses of each clause of `Obligations.DeviceAndSliceCommands`. -/
theorem wit_DeviceAndSliceCommands :
    (∃ s : State, ∃ mb : Mbox, ∃ c : Caller, ∃ a : List Word, cmdAdmitted s mb cmdDevInfo c a) ∧
    (∃ s : State, ∃ mb : Mbox, ∃ c : Caller, ∃ a : List Word, cmdAdmitted s mb cmdDevPortAddr c a ∧ argN a 0 < 96 ∧
        argN a 3 ≤ 128 ∧ argN a 6 ≤ 32 ∧
        s.qps.find? (fun q => q.2.localPorts.contains (argN a 0) && (q.2.st == .active || q.2.st == .held || q.2.st == .draining)) = none) ∧
    (∃ s : State, ∃ mb : Mbox, ∃ c : Caller, ∃ a : List Word, ∃ n : Nat, cmdAdmitted s mb cmdSliceCreate c a ∧
        ((argN a 0 < 512 ∨ argN a 0 = 0x3FF)) ∧ sliceSlot s (argN a 0) = some n ∧ argN a 1 < 4 ∧ linkPresent s (argN a 1) = true ∧
        (s.link (argN a 1)).up = true ∧ 0 < argN a 2 ∧ argN a 2 < 1048576 ∧ 16 ≤ argN a 3 ∧ 0 < argN a 4 ∧ argN a 4 ≤ 1024 ∧
        (let q := (List.range 11).map (fun i => argN a (5 + i)); (List.range 11).find? (fun i => !quotaOk i (q.getD i 0)) = none ∧
        sliceClash s (argN a 1) (argN a 2) (argN a 3) (argN a 4) = none ∧ quotaBreaks s n q = none)) ∧
    (∃ s : State, ∃ mb : Mbox, ∃ c : Caller, ∃ a : List Word, cmdAdmitted s mb cmdSliceDestroy c a ∧ argN a 0 < 512 ∧
        argN a 1 ≤ 1 ∧ (s.slice (argN a 0)).st = .active) ∧
    (∃ s : State, ∃ mb : Mbox, ∃ c : Caller, ∃ a : List Word, cmdAdmitted s mb cmdSliceSetQuota c a ∧ argN a 0 < 512 ∧
        (s.slice (argN a 0)).st = .active ∧ argN a 1 < 2 ^ 11 ∧
        (let q := (List.range 11).map (fun i => if (arg a 1).getLsbD i then argN a (2 + i) else (s.slice (argN a 0)).quota.getD i 0); (List.range 11).find? (fun i => (arg a 1).getLsbD i && !quotaOk i (q.getD i 0)) = none ∧
        (List.range 10).find? (fun i => decide ((s.slice (argN a 0)).quota.getD i 0 < q.getD i 0) && decide (quotaTotals.getD i 0 < quotaSum s (argN a 0) i + q.getD i 0)) = none)) ∧
    (∃ s : State, ∃ mb : Mbox, ∃ c : Caller, ∃ a : List Word, cmdAdmitted s mb cmdSliceSetRights c a ∧ argN a 0 < 512 ∧
        (s.slice (argN a 0)).st = .active ∧ argN a 1 < 256 ∧ argN a 2 < 16) ∧
    (∃ s : State, ∃ mb : Mbox, ∃ c : Caller, ∃ a : List Word, cmdAdmitted s mb cmdSliceQuery c a ∧ argN a 0 < 512) ∧
    (∃ s : State, ∃ n : Nat, s.fc.dstate = .normal ∧ (s.slice n).st = .draining ∧ (s.slice n).step3 = true ∧
        (s.slice n).step4 = true ∧ sliceCtxs s n = []) ∧
    (∃ s : State, ∃ n : Nat, s.fc.dstate = .normal ∧ (s.slice n).st = .draining ∧ (s.slice n).abort = false) :=
  ⟨⟨ask 512 cmdDevInfo [] (up), .manager, { mb := 512, slice := none }, [],
      admitted_cmd rfl rfl rfl rfl rfl rfl rfl (by decide +kernel)⟩,
   ⟨ask 512 cmdDevPortAddr [95, 0, 0, 128, 0, 0, 32] (up), .manager, { mb := 512, slice := none }, [95, 0, 0, 128, 0, 0, 32],
       admitted_cmd rfl rfl rfl rfl rfl rfl rfl (by decide +kernel), by decide +kernel⟩,
   ⟨ask 512 cmdSliceCreate [1023, 0, 7, 32, 16, 0, 0, 0, 0, 0, 0, 0, 0, 0, 0, 1] ({ up with links := [(0, { up := true })] }),
       .manager, { mb := 512, slice := none }, [1023, 0, 7, 32, 16, 0, 0, 0, 0, 0, 0, 0, 0, 0, 0, 1], 1,
       admitted_cmd rfl rfl rfl rfl rfl rfl rfl (by decide +kernel), by decide +kernel⟩,
   ⟨ask 512 cmdSliceDestroy [0, 1] (up), .manager, { mb := 512, slice := none }, [0, 1],
       admitted_cmd rfl rfl rfl rfl rfl rfl rfl (by decide +kernel), by decide +kernel⟩,
   ⟨ask 512 cmdSliceSetQuota [0, 2047, 1, 1, 1, 1, 1, 1, 1, 1, 1, 1, 1] (up), .manager, { mb := 512, slice := none }, [0, 2047, 1,
       1, 1, 1, 1, 1, 1, 1, 1, 1, 1], admitted_cmd rfl rfl rfl rfl rfl rfl rfl (by decide +kernel), by decide +kernel⟩,
   ⟨ask 512 cmdSliceSetRights [0, 255, 15] (up), .manager, { mb := 512, slice := none }, [0, 255, 15],
       admitted_cmd rfl rfl rfl rfl rfl rfl rfl (by decide +kernel), by decide +kernel⟩,
   ⟨ask 512 cmdSliceQuery [511] (up), .manager, { mb := 512, slice := none }, [511],
       admitted_cmd rfl rfl rfl rfl rfl rfl rfl (by decide +kernel), by decide +kernel⟩,
   ⟨{ up with ctxs := [], slices := [(0, { st := .draining, step3 := true, step4 := true })] }, 0, by decide +kernel⟩,
   ⟨{ up with slices := [(0, { st := .draining })] }, 0, by decide +kernel⟩⟩

/-- What meets the hypotheses of each clause of `Obligations.ContextCommands`. -/
theorem wit_ContextCommands :
    (∃ s : State, ∃ mb : Mbox, ∃ c : Caller, ∃ a : List Word, cmdAdmitted s mb cmdCtxCreate c a ∧ argN a 0 < 0x1000 ∧
        argN a 2 ≤ 15 ∧ argN a 3 = 0 ∧ (s.ctx (argN a 0)).st = .free ∧ quotaFull s c.sl 0 = false) ∧
    (∃ s : State, ∃ mb : Mbox, ∃ c : Caller, ∃ a : List Word, cmdAdmitted s mb cmdCtxSetPanel c a ∧ (s.mbox c.mb).started = true ∧
        drained s (argN a 0) (s.mbox c.mb).inv.1 (s.mbox c.mb).inv.2 = true) ∧
    (∃ s : State, ∃ mb : Mbox, ∃ c : Caller, ∃ a : List Word, cmdAdmitted s mb cmdCtxSetPanel c a ∧
        (s.mbox c.mb).started = false ∧ ctxNamed s c (argN a 0) = true ∧ (s.ctx (argN a 0)).st = .active ∧ argN a 1 < 8 ∧
        panelHeld s (argN a 0) (argN a 1) = false ∧
        panelBad s c.sl (((s.ctx (argN a 0)).panels.filter (fun e => e.1 != argN a 1)).map (·.2)) (panelArg a 2) = none ∧
        canInvalidate s (argN a 0) (argN a 1) = true) ∧
    (∃ s : State, ∃ mb : Mbox, ∃ c : Caller, ∃ a : List Word, cmdAdmitted s mb cmdCtxQuery c a ∧ ownCtx s c (argN a 0) = true) ∧
    (∃ s : State, ∃ mb : Mbox, ∃ c : Caller, ∃ a : List Word, cmdAdmitted s mb cmdCtxDestroy c a ∧
        ctxNamed s c (argN a 0) = true ∧ (((s.ctx (argN a 0)).st = .active ∨ (s.ctx (argN a 0)).st = .lost)) ∧ argN a 1 ≤ 1 ∧
        arg a 2 = 0) ∧
    (∃ s : State, ∃ mb : Mbox, ∃ c : Caller, ∃ a : List Word, cmdAdmitted s mb cmdCtxInvalidate c a ∧
        (s.mbox c.mb).started = false ∧ argN a 0 < 4096 ∧ (s.ctx (argN a 0)).st ≠ .free ∧
        (s.slice (s.ctx (argN a 0)).slice).st ≠ .draining ∧ argN a 1 = 0 ∧ argN a 2 < 8 ∧
        canInvalidate s (argN a 0) (argN a 2) = true) ∧
    (∃ s : State, ∃ mb : Mbox, ∃ c : Caller, ∃ a : List Word, cmdAdmitted s mb cmdCtxLose c a ∧ argN a 0 < 4096 ∧
        (s.ctx (argN a 0)).st = .active ∧ (s.slice (s.ctx (argN a 0)).slice).st ≠ .draining) :=
  ⟨⟨ask 0 cmdCtxCreate [4095, 0, 15, 0] (up), (.slice 0), { mb := 0, slice := some 0 }, [4095, 0, 15, 0],
      admitted_cmd rfl rfl rfl rfl rfl rfl rfl (by decide +kernel), by decide +kernel⟩,
   ⟨{ up with mailboxes := [(0, { running := true, started := true, req := [BitVec.ofNat 64 (cmdCtxSetPanel.opcode + 48 * 2 ^ 16), 0, 0, 0, 0x13F01, 0, 0, 0] })] },
       (.slice 0), { mb := 0, slice := some 0 }, [0, 0, 0x13F01, 0, 0, 0],
       admitted_cmd rfl rfl rfl rfl rfl rfl rfl (by decide +kernel), by decide +kernel⟩,
   ⟨ask 0 cmdCtxSetPanel [0, 7, 0x13F01, 0, 0, 0] (up), (.slice 0), { mb := 0, slice := some 0 }, [0, 7, 0x13F01, 0, 0, 0],
       admitted_cmd rfl rfl rfl rfl rfl rfl rfl (by decide +kernel), by decide +kernel⟩,
   ⟨ask 0 cmdCtxQuery [0] (up), (.slice 0), { mb := 0, slice := some 0 }, [0],
       admitted_cmd rfl rfl rfl rfl rfl rfl rfl (by decide +kernel), by decide +kernel⟩,
   ⟨ask 0 cmdCtxDestroy [0, 1, 0] (up), (.slice 0), { mb := 0, slice := some 0 }, [0, 1, 0],
       admitted_cmd rfl rfl rfl rfl rfl rfl rfl (by decide +kernel), by decide +kernel⟩,
   ⟨ask 512 cmdCtxInvalidate [0, 0, 7] (up), .manager, { mb := 512, slice := none }, [0, 0, 7],
       admitted_cmd rfl rfl rfl rfl rfl rfl rfl (by decide +kernel), by decide +kernel⟩,
   ⟨ask 512 cmdCtxLose [0] (up), .manager, { mb := 512, slice := none }, [0],
       admitted_cmd rfl rfl rfl rfl rfl rfl rfl (by decide +kernel), by decide +kernel⟩⟩

/-- What meets the hypotheses of each clause of `Obligations.QueueCommands`. -/
theorem wit_QueueCommands :
    (∃ s : State, ∃ mb : Mbox, ∃ c : Caller, ∃ a : List Word, ∃ n : Nat, cmdAdmitted s mb cmdQueueCreate c a ∧
        queueBad s c a = none ∧ queueSlot s (argN a 1 == 0) = some n ∧ argN a 1 = 0 ∧ quotaFull s c.sl 2 = false) ∧
    (∃ s : State, ∃ mb : Mbox, ∃ c : Caller, ∃ a : List Word, ∃ n : Nat, cmdAdmitted s mb cmdQueueCreate c a ∧
        queueBad s c a = none ∧ queueSlot s (argN a 1 == 0) = some n ∧ argN a 1 ≠ 0 ∧ quotaFull s c.sl 3 = false) ∧
    (∃ s : State, ∃ mb : Mbox, ∃ c : Caller, ∃ a : List Word, cmdAdmitted s mb cmdQueueDestroy c a ∧
        sqNamed s c (argN a 0) = true ∧ (s.sq (argN a 0)).st ≠ .closed ∧ argN a 1 = 0) ∧
    (∃ s : State, ∃ mb : Mbox, ∃ c : Caller, ∃ a : List Word, cmdAdmitted s mb cmdQueueDestroy c a ∧
        sqNamed s c (argN a 0) = true ∧ (s.sq (argN a 0)).st ≠ .closed ∧ argN a 1 = 1) ∧
    (∃ s : State, ∃ mb : Mbox, ∃ c : Caller, ∃ a : List Word, cmdAdmitted s mb cmdQueueDestroy c a ∧
        sqNamed s c (argN a 0) = false ∧ cqNamed s c (argN a 0) = true ∧ argN a 1 = 0 ∧
        s.sqs.any (fun e => e.2.st != .free && e.2.cq == argN a 0) = false ∧
        s.qps.any (fun e => e.2.rxMo != 0 && e.2.rxCq == argN a 0) = false) ∧
    (∃ s : State, ∃ mb : Mbox, ∃ c : Caller, ∃ a : List Word, cmdAdmitted s mb cmdQueueHold c a ∧ sqNamed s c (argN a 0) = true ∧
        (s.sq (argN a 0)).st = .active) ∧
    (∃ s : State, ∃ mb : Mbox, ∃ c : Caller, ∃ a : List Word, cmdAdmitted s mb cmdQueueResume c a ∧
        sqNamed s c (argN a 0) = true ∧ (s.sq (argN a 0)).st = .held ∧ argN a 1 = 0) :=
  ⟨⟨ask 0 cmdQueueCreate [0, 0, 63, 6, (moHandle 1 1).setWidth 64, 0, (moHandle 1 1).setWidth 64, 0, 9,
      0] ({ netUp with cqs := [(9, { active := true, size := 64 })] }), (.slice 0), { mb := 0, slice := some 0 }, [0, 0, 63, 6,
      (moHandle 1 1).setWidth 64, 0, (moHandle 1 1).setWidth 64, 0, 9, 0], 0,
      admitted_cmd rfl rfl rfl rfl rfl rfl rfl (by decide +kernel), by decide +kernel⟩,
   ⟨ask 0 cmdQueueCreate [0, 1, 63, 6, (moHandle 1 1).setWidth 64, 0, 0, 0, 0,
       15] ({ netUp with cqs := [(9, { active := true, size := 64 })] }), (.slice 0), { mb := 0, slice := some 0 }, [0, 1, 63, 6,
       (moHandle 1 1).setWidth 64, 0, 0, 0, 0, 15], 0, admitted_cmd rfl rfl rfl rfl rfl rfl rfl (by decide +kernel),
       by decide +kernel⟩,
   ⟨ask 0 cmdQueueDestroy [0, 0] ({ netUp with sqs := [(0, { st := .active, size := 64 })] }), (.slice 0),
       { mb := 0, slice := some 0 }, [0, 0], admitted_cmd rfl rfl rfl rfl rfl rfl rfl (by decide +kernel), by decide +kernel⟩,
   ⟨ask 0 cmdQueueDestroy [0, 1] ({ netUp with sqs := [(0, { st := .held, size := 64 })] }), (.slice 0),
       { mb := 0, slice := some 0 }, [0, 1], admitted_cmd rfl rfl rfl rfl rfl rfl rfl (by decide +kernel), by decide +kernel⟩,
   ⟨ask 0 cmdQueueDestroy [9, 0] ({ netUp with cqs := [(9, { active := true, size := 64 })] }), (.slice 0),
       { mb := 0, slice := some 0 }, [9, 0], admitted_cmd rfl rfl rfl rfl rfl rfl rfl (by decide +kernel), by decide +kernel⟩,
   ⟨ask 0 cmdQueueHold [0] ({ netUp with sqs := [(0, { st := .active, size := 64 })] }), (.slice 0), { mb := 0, slice := some 0 },
       [0], admitted_cmd rfl rfl rfl rfl rfl rfl rfl (by decide +kernel), by decide +kernel⟩,
   ⟨ask 0 cmdQueueResume [0, 0] ({ netUp with sqs := [(0, { st := .held, size := 64 })] }), (.slice 0),
       { mb := 0, slice := some 0 }, [0, 0], admitted_cmd rfl rfl rfl rfl rfl rfl rfl (by decide +kernel), by decide +kernel⟩⟩

/-- What meets the hypotheses of each clause of `Obligations.QpCommands`. -/
theorem wit_QpCommands :
    (∃ s : State, ∃ mb : Mbox, ∃ c : Caller, ∃ a : List Word, ∃ n : Nat, cmdAdmitted s mb cmdQpCreate c a ∧
        ctxNamed s c (argN a 0) = true ∧ (s.ctx (argN a 0)).st = .active ∧ argN a 1 ≤ 1 ∧ qpSlot s = some n ∧
        quotaFull s c.sl 1 = false) ∧
    (∃ s : State, ∃ mb : Mbox, ∃ c : Caller, ∃ a : List Word, cmdAdmitted s mb cmdQpInit c a ∧ qpNamed s c (argN a 0) = true ∧
        (s.qp (argN a 0)).st = .reset ∧ qpInitBad s (argN a 0) a = none) ∧
    (∃ s : State, ∃ mb : Mbox, ∃ c : Caller, ∃ a : List Word, ∃ k : Nat, cmdAdmitted s mb cmdQpConnect c a ∧
        qpNamed s c (argN a 0) = true ∧ (s.qp (argN a 0)).st = .init ∧ (s.qp (argN a 0)).mode = .ert ∧
        qpConnectBad s (s.qp (argN a 0)) a = none ∧ needleFor s = some k) ∧
    (∃ s : State, ∃ mb : Mbox, ∃ c : Caller, ∃ a : List Word, cmdAdmitted s mb cmdQpHold c a ∧ qpNamed s c (argN a 0) = true ∧
        (s.qp (argN a 0)).st = .active) ∧
    (∃ s : State, ∃ mb : Mbox, ∃ c : Caller, ∃ a : List Word, cmdAdmitted s mb cmdQpResume c a ∧ qpNamed s c (argN a 0) = true ∧
        (s.qp (argN a 0)).st = .held ∧ (s.qp (argN a 0)).cmdHeld = true ∧ (s.qp (argN a 0)).mode = .ert) ∧
    (∃ s : State, ∃ mb : Mbox, ∃ c : Caller, ∃ a : List Word, cmdAdmitted s mb cmdQpDestroy c a ∧ qpNamed s c (argN a 0) = true ∧
        (s.qp (argN a 0)).st ≠ .draining ∧ argN a 1 ≤ 1) ∧
    (∃ s : State, ∃ mb : Mbox, ∃ c : Caller, ∃ a : List Word, ∃ k : Nat, cmdAdmitted s mb cmdQpReset c a ∧
        qpNamed s c (argN a 0) = true ∧ (s.qp (argN a 0)).st = .error ∧ qpIdle s (argN a 0) = true ∧
        (s.qp (argN a 0)).needle = some k) ∧
    (∃ s : State, ∃ mb : Mbox, ∃ c : Caller, ∃ a : List Word, cmdAdmitted s mb cmdQpQuery c a ∧ qpNamed s c (argN a 0) = true ∧
        (s.qp (argN a 0)).mode = .ert) ∧
    (∃ s : State, ∃ mb : Mbox, ∃ c : Caller, ∃ a : List Word, cmdAdmitted s mb cmdCmSend c a ∧ argN a 0 < 96 ∧ 0 < argN a 3 ∧
        argN a 3 ≤ 256) ∧
    (∃ s : State, ∃ mb : Mbox, ∃ c : Caller, ∃ a : List Word, ∃ d : Datagram, cmdAdmitted s mb cmdCmRecv c a ∧ argN a 0 < 96 ∧
        (Tab.getD s.cm (c.slice.getD 512) []).find? (fun d => d.lport == argN a 0) = some d) :=
  ⟨⟨ask 0 cmdQpCreate [0, 1] (up), (.slice 0), { mb := 0, slice := some 0 }, [0, 1], 1,
      admitted_cmd rfl rfl rfl rfl rfl rfl rfl (by decide +kernel), by decide +kernel⟩,
   ⟨ask 0 cmdQpInit [5, 0xFFFFFFFFFFFFFF00, 0xFFFFFFFFFFFFFFFF, 64, 49152, 8192, 0, 0, 0, 0, 0, 8,
       0] ({ { netUp with qps := [(5, {  })] , cqs := [(0, { active := true, size := 16 })] } with portCfg := [(0, BitVec.ofNat 34 (9000 * 2 ^ 20))] }),
       (.slice 0), { mb := 0, slice := some 0 }, [5, 0xFFFFFFFFFFFFFF00, 0xFFFFFFFFFFFFFFFF, 64, 49152, 8192, 0, 0, 0, 0, 0, 8,
       0], admitted_cmd rfl rfl rfl rfl rfl rfl rfl (by decide +kernel), by decide +kernel⟩,
   ⟨ask 0 cmdQpConnect [5, 12, 131071, 0xFFFFFFFF, 0, 0, 1, 0, 1, 0, 1, 0, 1, 0, 1, 0, 1, 0, 1, 0, 1, 0, 1, 0, 1, 0, 1, 0,
       1] ({ { netUp with qps := [(5, { st := .init })] , cqs := [(0, { active := true, size := 16 })] } with ertPort := 4790 }),
       (.slice 0), { mb := 0, slice := some 0 }, [5, 12, 131071, 0xFFFFFFFF, 0, 0, 1, 0, 1, 0, 1, 0, 1, 0, 1, 0, 1, 0, 1, 0, 1, 0,
       1, 0, 1, 0, 1, 0, 1], 0, admitted_cmd rfl rfl rfl rfl rfl rfl rfl (by decide +kernel), by decide +kernel⟩,
   ⟨ask 0 cmdQpHold [5] ({ netUp with qps := [(5, { st := .active })] , cqs := [(0, { active := true, size := 16 })] }),
       (.slice 0), { mb := 0, slice := some 0 }, [5], admitted_cmd rfl rfl rfl rfl rfl rfl rfl (by decide +kernel),
       by decide +kernel⟩,
   ⟨ask 0 cmdQpResume [5] ({ netUp with qps := [(5, { st := .held, cmdHeld := true })] , cqs := [(0, { active := true, size := 16 })] }),
       (.slice 0), { mb := 0, slice := some 0 }, [5], admitted_cmd rfl rfl rfl rfl rfl rfl rfl (by decide +kernel),
       by decide +kernel⟩,
   ⟨ask 0 cmdQpDestroy [5, 1] ({ netUp with qps := [(5, { st := .active })] , cqs := [(0, { active := true, size := 16 })] }),
       (.slice 0), { mb := 0, slice := some 0 }, [5, 1], admitted_cmd rfl rfl rfl rfl rfl rfl rfl (by decide +kernel),
       by decide +kernel⟩,
   ⟨ask 0 cmdQpReset [5] ({ netUp with qps := [(5, { st := .error, needle := some 15 })] , cqs := [(0, { active := true, size := 16 })] }),
       (.slice 0), { mb := 0, slice := some 0 }, [5], 15, admitted_cmd rfl rfl rfl rfl rfl rfl rfl (by decide +kernel),
       by decide +kernel⟩,
   ⟨ask 0 cmdQpQuery [5] ({ netUp with qps := [(5, {  })] , cqs := [(0, { active := true, size := 16 })] }), (.slice 0),
       { mb := 0, slice := some 0 }, [5], admitted_cmd rfl rfl rfl rfl rfl rfl rfl (by decide +kernel), by decide +kernel⟩,
   ⟨ask 0 cmdCmSend [95, 0, 0, 256, 0, 0, 0, 0, 0, 0, 0, 0, 0, 0, 0, 0, 0, 0, 0, 0, 0, 0, 0, 0, 0, 0, 0, 0, 0, 0, 0, 0, 0, 0, 0,
       0] (up), (.slice 0), { mb := 0, slice := some 0 }, [95, 0, 0, 256, 0, 0, 0, 0, 0, 0, 0, 0, 0, 0, 0, 0, 0, 0, 0, 0, 0, 0, 0,
       0, 0, 0, 0, 0, 0, 0, 0, 0, 0, 0, 0, 0],
       admitted_cmd rfl (by decide +kernel) rfl (by decide +kernel) rfl rfl (by decide +kernel) (by decide +kernel),
       by decide +kernel⟩,
   ⟨ask 512 cmdCmRecv [95] ({ up with cm := [(512, [{ lport := 95, src := 1, data := [7] }])] }), .manager,
       { mb := 512, slice := none }, [95], { lport := 95, src := 1, data := [7] },
       admitted_cmd rfl rfl rfl rfl rfl rfl rfl (by decide +kernel), by decide +kernel⟩⟩

/-- What meets the hypotheses of each clause of `Obligations.ObjectCommands`. -/
theorem wit_ObjectCommands :
    (∃ s : State, ∃ mb : Mbox, ∃ c : Caller, ∃ a : List Word, ∃ i : Nat, ∃ p : Panel, ∃ h' : BitVec 32, ∃ t : State,
        cmdAdmitted s mb cmdMemRegister c a ∧ ctxNamed s c (argN a 0) = true ∧ (s.ctx (argN a 0)).st = .active ∧
        argN a 1 % 64 = 0 ∧ argN a 2 % 64 = 0 ∧ argN a 2 ≠ 0 ∧ rangePanel (s.ctx (argN a 0)) (argN a 1) (argN a 2) = some (i, p) ∧
        argN a 3 < 64 ∧ BitVec.ofNat 6 (argN a 3) &&& ~~~p.rights = 0 ∧ argN a 4 = 0 ∧ quotaFull s c.sl 4 = false ∧
        moNew (fun o => { o with ctx := argN a 0, panel := i, base := argN a 1, len := argN a 2, rights := BitVec.ofNat 6 (argN a 3), coherent := false }) s = some (h',
        t)) ∧
    (∃ s : State, ∃ mb : Mbox, ∃ c : Caller, ∃ a : List Word, let h := dLo (arg a 0); cmdAdmitted s mb cmdMemFree c a ∧
        moNamed s c h = true ∧ liveRing s h = none ∧ arg a 1 = 0 ∧ (s.mo (moIndex h)).inv = false) ∧
    (∃ s : State, ∃ mb : Mbox, ∃ c : Caller, ∃ a : List Word, let h := dLo (arg a 0); cmdAdmitted s mb cmdMemQuery c a ∧
        moGen h ≠ 0 ∧ (s.moOf h).gen = moGen h ∧ (s.moOf h).st ≠ .free ∧ c.owns (s.ctx (s.moOf h).ctx).slice = true) ∧
    (∃ s : State, ∃ mb : Mbox, ∃ c : Caller, ∃ a : List Word, let h := dLo (arg a 0); ∃ i : Nat, ∃ t : State,
        cmdAdmitted s mb cmdWinRegister c a ∧ moNamed s c h = true ∧ argN a 1 % 64 = 0 ∧ argN a 2 % 64 = 0 ∧ argN a 2 ≠ 0 ∧
        argN a 1 + argN a 2 ≤ (s.moOf h).len ∧ argN a 3 &&& 0x5C = argN a 3 ∧
        winRightsOf (argN a 3) &&& ~~~(winGrant (s.moOf h)) = 0 ∧ argN a 4 < 131072 ∧ quotaFull s c.sl 5 = false ∧
        winSlot s = some (i, t)) ∧
    (∃ s : State, ∃ mb : Mbox, ∃ c : Caller, ∃ a : List Word, let h := dLo (arg a 0); cmdAdmitted s mb cmdWinRevoke c a ∧
        winGen h ≠ 0 ∧ (s.win (winIndex h)).gen = winGen h ∧ (s.win (winIndex h)).st = .valid ∧
        c.owns (s.ctx (winCtx s (s.win (winIndex h)))).slice = true ∧ arg a 1 = 0) ∧
    (∃ s : State, ∃ mb : Mbox, ∃ c : Caller, ∃ a : List Word, let h := dLo (arg a 0); ∃ r : MarkRef, ∃ t : State,
        (s.moOf h).imported = none ∧ cmdMark c (arg a 0) s = (.ok r, t) ∧ cmdAdmitted s mb cmdMarkerReset c a ∧
        (arg a 1).getLsbD 63 = false ∧ t.ops.any (fun e => e.2.waitsOn t r.key) = false) ∧
    (∃ s : State, ∃ mb : Mbox, ∃ c : Caller, ∃ a : List Word, let h := dLo (arg a 0); ∃ r : MarkRef, ∃ t : State,
        (s.moOf h).imported = none ∧ cmdMark c (arg a 0) s = (.ok r, t) ∧ cmdAdmitted s mb cmdMarkerExport c a ∧ argN a 1 < 512 ∧
        (t.slice (argN a 1)).st = .active ∧ c.slice ≠ some (argN a 1) ∧ t.cookies.length < 4096) ∧
    (∃ s : State, ∃ mb : Mbox, ∃ c : Caller, ∃ a : List Word, ∃ k : Cookie, ∃ h' : BitVec 32, ∃ t : State,
        cmdAdmitted s mb cmdMarkerImport c a ∧ cookieFor s c (arg a 0) = some k ∧ ownCtx s c (argN a 1) = true ∧
        (s.ctx (argN a 1)).st = .active ∧ quotaFull s c.sl 4 = false ∧
        moNew (fun o => { o with ctx := argN a 1, len := 16, rights := 0x20, imported := some k.mark }) s = some (h', t)) ∧
    (∃ s : State, ∃ mb : Mbox, ∃ c : Caller, ∃ a : List Word, ∃ r : MarkRef, ∃ t : State, cmdAdmitted s mb cmdMarkerBind c a ∧
        argN a 2 ≤ 1 ∧ bindNamed s c a = none ∧ cmdMark c (arg a 0) s = (.ok r, t) ∧
        (t.ctx (argN a 1)).bindings.contains { qp := bindQp a, mark := r } = false ∧ (t.ctx (argN a 1)).bindings.length < 4096) ∧
    (∃ s : State, ∃ mb : Mbox, ∃ c : Caller, ∃ a : List Word, let h := dLo (arg a 0); ∃ b : Binding,
        cmdAdmitted s mb cmdMarkerUnbind c a ∧ argN a 2 ≤ 1 ∧ ownCtx s c (argN a 1) = true ∧
        (s.ctx (argN a 1)).bindings.find? (fun b => b.qp == bindQp a && b.mark.mo == h && b.mark.off == fld (arg a 0) 63 32 * 16) = some b) :=
  ⟨⟨ask 0 cmdMemRegister [0, 0, 33554432, 63, 0] (netUp), (.slice 0), { mb := 0, slice := some 0 }, [0, 0, 33554432, 63, 0], 0,
      { p0 := 0x13F01 },
      (got (moNew (fun o => { o with ctx := 0, panel := 0, base := 0, len := 2 ^ 25, rights := BitVec.ofNat 6 63, coherent := false }) (ask 0 cmdMemRegister [0,
      0, 33554432, 63, 0] (netUp))) 0).1,
      (got (moNew (fun o => { o with ctx := 0, panel := 0, base := 0, len := 2 ^ 25, rights := BitVec.ofNat 6 63, coherent := false }) (ask 0 cmdMemRegister [0,
      0, 33554432, 63, 0] (netUp))) 0).2, admitted_cmd rfl rfl rfl rfl rfl rfl rfl (by decide +kernel), by decide +kernel⟩,
   ⟨ask 0 cmdMemFree [(moHandle 1 1).setWidth 64, 0] (netUp), (.slice 0), { mb := 0, slice := some 0 },
       [(moHandle 1 1).setWidth 64, 0], admitted_cmd rfl rfl rfl rfl rfl rfl rfl (by decide +kernel), by decide +kernel⟩,
   ⟨ask 0 cmdMemQuery [(moHandle 1 1).setWidth 64] (netUp), (.slice 0), { mb := 0, slice := some 0 },
       [(moHandle 1 1).setWidth 64], admitted_cmd rfl rfl rfl rfl rfl rfl rfl (by decide +kernel), by decide +kernel⟩,
   ⟨ask 0 cmdWinRegister [(moHandle 1 1).setWidth 64, 0, 4096, 0x5C, 131071] (netUp), (.slice 0), { mb := 0, slice := some 0 },
       [(moHandle 1 1).setWidth 64, 0, 4096, 0x5C, 131071], (got (winSlot (ask 0 cmdWinRegister [(moHandle 1 1).setWidth 64, 0,
       4096, 0x5C, 131071] (netUp))) 0).1, (got (winSlot (ask 0 cmdWinRegister [(moHandle 1 1).setWidth 64, 0, 4096, 0x5C,
       131071] (netUp))) 0).2, admitted_cmd rfl rfl rfl rfl rfl rfl rfl (by decide +kernel), by decide +kernel⟩,
   ⟨ask 0 cmdWinRevoke [(winHandle 1 1).setWidth 64, 0] (netUp), (.slice 0), { mb := 0, slice := some 0 },
       [(winHandle 1 1).setWidth 64, 0], admitted_cmd rfl rfl rfl rfl rfl rfl rfl (by decide +kernel), by decide +kernel⟩,
   ⟨ask 0 cmdMarkerReset [(moHandle 1 1).setWidth 64, 9223372036854775807] (netUp), (.slice 0), { mb := 0, slice := some 0 },
       [(moHandle 1 1).setWidth 64, 9223372036854775807],
       (markGot (cmdMark { mb := 0, slice := some 0 } ((moHandle 1 1).setWidth 64) (ask 0 cmdMarkerReset [(moHandle 1 1).setWidth 64,
       9223372036854775807] (netUp))).1),
       (cmdMark { mb := 0, slice := some 0 } ((moHandle 1 1).setWidth 64) (ask 0 cmdMarkerReset [(moHandle 1 1).setWidth 64,
       9223372036854775807] (netUp))).2, by decide +kernel, by decide +kernel,
       admitted_cmd rfl rfl rfl rfl rfl rfl rfl (by decide +kernel), by decide +kernel⟩,
   ⟨ask 0 cmdMarkerExport [(moHandle 1 1).setWidth 64,
       511] ({ netUp with slices := netUp.slices ++ [(511, { st := .active, link := 0 })] }), (.slice 0),
       { mb := 0, slice := some 0 }, [(moHandle 1 1).setWidth 64, 511],
       (markGot (cmdMark { mb := 0, slice := some 0 } ((moHandle 1 1).setWidth 64) (ask 0 cmdMarkerExport [(moHandle 1 1).setWidth 64,
       511] ({ netUp with slices := netUp.slices ++ [(511, { st := .active, link := 0 })] }))).1),
       (cmdMark { mb := 0, slice := some 0 } ((moHandle 1 1).setWidth 64) (ask 0 cmdMarkerExport [(moHandle 1 1).setWidth 64,
       511] ({ netUp with slices := netUp.slices ++ [(511, { st := .active, link := 0 })] }))).2, by decide +kernel,
       by decide +kernel, admitted_cmd rfl rfl rfl rfl rfl rfl rfl (by decide +kernel), by decide +kernel⟩,
   ⟨ask 0 cmdMarkerImport [77,
       0] ({ netUp with cookies := [{ value := 77, mark := { mo := moHandle 1 1, off := 0, key := 0 }, slice := 0, gen := 1 }] }),
       (.slice 0), { mb := 0, slice := some 0 }, [77, 0],
       { value := 77, mark := { mo := moHandle 1 1, off := 0, key := 0 }, slice := 0, gen := 1 },
       (got (moNew (fun o => { o with ctx := 0, len := 16, rights := 0x20, imported := some ({ value := 77, mark := { mo := moHandle 1 1, off := 0, key := 0 }, slice := 0, gen := 1 } : Cookie).mark }) (ask 0 cmdMarkerImport [77,
       0] ({ netUp with cookies := [{ value := 77, mark := { mo := moHandle 1 1, off := 0, key := 0 }, slice := 0, gen := 1 }] }))) 0).1,
       (got (moNew (fun o => { o with ctx := 0, len := 16, rights := 0x20, imported := some ({ value := 77, mark := { mo := moHandle 1 1, off := 0, key := 0 }, slice := 0, gen := 1 } : Cookie).mark }) (ask 0 cmdMarkerImport [77,
       0] ({ netUp with cookies := [{ value := 77, mark := { mo := moHandle 1 1, off := 0, key := 0 }, slice := 0, gen := 1 }] }))) 0).2,
       admitted_cmd rfl rfl rfl rfl rfl rfl rfl (by decide +kernel), by decide +kernel⟩,
   ⟨ask 0 cmdMarkerBind [(moHandle 1 1).setWidth 64, 0, 0, 0] (netUp), (.slice 0), { mb := 0, slice := some 0 },
       [(moHandle 1 1).setWidth 64, 0, 0, 0],
       (markGot (cmdMark { mb := 0, slice := some 0 } ((moHandle 1 1).setWidth 64) (ask 0 cmdMarkerBind [(moHandle 1 1).setWidth 64,
       0, 0, 0] (netUp))).1),
       (cmdMark { mb := 0, slice := some 0 } ((moHandle 1 1).setWidth 64) (ask 0 cmdMarkerBind [(moHandle 1 1).setWidth 64, 0, 0,
       0] (netUp))).2, admitted_cmd rfl rfl rfl rfl rfl rfl rfl (by decide +kernel), by decide +kernel⟩,
   ⟨ask 0 cmdMarkerUnbind [(moHandle 1 1).setWidth 64, 0, 0,
       0] ({ netUp with ctxs := [(0, { st := .active, slice := 0, bindings := [{ qp := none, mark := { mo := moHandle 1 1, off := 0, key := 0 } }] })] }),
       (.slice 0), { mb := 0, slice := some 0 }, [(moHandle 1 1).setWidth 64, 0, 0, 0],
       { qp := none, mark := { mo := moHandle 1 1, off := 0, key := 0 } },
       admitted_cmd rfl rfl rfl rfl rfl rfl rfl (by decide +kernel), by decide +kernel⟩⟩

/-- What meets the hypotheses of each clause of `Obligations.GroupFaultAndDebugCommands`. -/
theorem wit_GroupFaultAndDebugCommands :
    (∃ s : State, ∃ mb : Mbox, ∃ c : Caller, ∃ a : List Word, ∃ ws : List Word, cmdAdmitted s mb (cmdGroupCreate (some ws)) c a ∧
        groupBad s c a = none ∧ (let ms := (ws.take (argN a 2)).map memberOf; ms.length = argN a 2 ∧ membersDistinct ms = true ∧
        (ms.filterMap id).any (fun q => (Tab.get s.qps q).isSome && (s.qp q).mode == .roce) = false ∧
        (ms.filterMap id).any (fun q => !ertLive s c.sl q) = false ∧ ((argN a 1 = 1 ∨ exactFull s (argN a 7) = false)) ∧
        quotaFull s c.sl 7 = false)) ∧
    (∃ s : State, ∃ mb : Mbox, ∃ c : Caller, ∃ a : List Word, cmdAdmitted s mb cmdGroupDestroy c a ∧
        groupNamed s c (argN a 0) = true ∧ (s.group (argN a 0)).st ≠ .draining) ∧
    (∃ s : State, ∃ mb : Mbox, ∃ c : Caller, ∃ a : List Word, cmdAdmitted s mb cmdGroupQuery c a ∧
        groupNamed s c (argN a 0) = true) ∧
    (∃ s : State, ∃ mb : Mbox, ∃ c : Caller, ∃ a : List Word, ∃ o : Op, cmdAdmitted s mb cmdSkeinQuery c a ∧
        sqNamed s c (argN a 0) = true ∧ skeinAt s (argN a 0) (argN a 1) = some o) ∧
    (∃ s : State, ∃ mb : Mbox, ∃ c : Caller, ∃ a : List Word, cmdAdmitted s mb cmdGovQuery c a ∧ c.slice = none) ∧
    (∃ s : State, ∃ mb : Mbox, ∃ c : Caller, ∃ a : List Word, cmdAdmitted s mb cmdGovSetEnvelope c a ∧ 100 ≤ argN a 0 ∧
        argN a 0 ≤ 1600) ∧
    (∃ s : State, ∃ mb : Mbox, ∃ c : Caller, ∃ a : List Word, cmdAdmitted s mb cmdFaultQuery c a ∧ argN a 0 < 60) ∧
    (∃ s : State, ∃ mb : Mbox, ∃ c : Caller, ∃ a : List Word, cmdAdmitted s mb cmdFaultRestore c a ∧ argN a 0 < 60 ∧
        fencedUnits s (argN a 0) ≠ []) ∧
    (∃ s : State, ∃ mb : Mbox, ∃ c : Caller, ∃ a : List Word, ∃ two : Bool, cmdAdmitted s mb (cmdFaultInject two) c a ∧
        argN a 0 < 60 ∧ codeClass s (argN a 0) (argN a 2) (argN a 3) = some (argN a 1) ∧ unitNamed (argN a 0) (argN a 3) = true) ∧
    (∃ s : State, ∃ mb : Mbox, ∃ c : Caller, ∃ a : List Word, cmdAdmitted s mb cmdSecMeasure c a) ∧
    (∃ s : State, ∃ mb : Mbox, ∃ c : Caller, ∃ a : List Word, cmdAdmitted s mb cmdDbgCounters c a ∧ c.slice = none ∧
        argN a 0 < 640 ∧ argN a 1 < 8192 ∧ 0 < argN a 2 ∧ argN a 2 ≤ 500 ∧ argN a 1 + argN a 2 ≤ 8192) ∧
    (∃ s : State, ∃ mb : Mbox, ∃ c : Caller, ∃ a : List Word, cmdAdmitted s mb cmdDbgTrace c a ∧ argN a 0 ≤ 1) ∧
    (∃ s : State, ∃ mb : Mbox, ∃ c : Caller, ∃ a : List Word, cmdAdmitted s mb cmdDbgState c a ∧ argN a 0 ≤ 5 ∧
        dbgFound s (argN a 0) (argN a 1) = true) ∧
    (∃ s : State, ∃ mb : Mbox, ∃ c : Caller, ∃ a : List Word, ∃ b : List Byte, cmdAdmitted s mb (cmdSecBundleLoad (some b)) c a ∧
        (let sm := s.moOf (dLo (arg a 0)); moValid s (dLo (arg a 0)) = true ∧ c.owns (s.ctx sm.ctx).slice = true ∧
        moValid s (dLo (arg a 3)) = true ∧ c.owns (s.ctx (s.moOf (dLo (arg a 3))).ctx).slice = true ∧ arg a 5 = 0 ∧
        decryptOk s 0 = true ∧ sm.rights.getLsbD 0 = true ∧ inside (argN a 1) (argN a 2) sm.base sm.len = true ∧
        badBundle b (argN a 2) = false)) :=
  ⟨⟨ask 0 (cmdGroupCreate (some [5, 0x20000])) [4095, 0, 2, (moHandle 1 1).setWidth 64, 0, 2, 0, 8, 0, 0, 15, 0] (netQp ertQp),
      (.slice 0), { mb := 0, slice := some 0 }, [4095, 0, 2, (moHandle 1 1).setWidth 64, 0, 2, 0, 8, 0, 0, 15, 0], [5, 0x20000],
      admitted_cmd rfl rfl rfl rfl rfl rfl rfl (by decide +kernel), by decide +kernel⟩,
   ⟨ask 0 cmdGroupDestroy [9] ({ up with groups := [(9, { st := .active })] }), (.slice 0), { mb := 0, slice := some 0 }, [9],
       admitted_cmd rfl rfl rfl rfl rfl rfl rfl (by decide +kernel), by decide +kernel⟩,
   ⟨ask 0 cmdGroupQuery [9] ({ up with groups := [(9, { st := .active })] }), (.slice 0), { mb := 0, slice := some 0 }, [9],
       admitted_cmd rfl rfl rfl rfl rfl rfl rfl (by decide +kernel), by decide +kernel⟩,
   ⟨ask 0 cmdSkeinQuery [0, 0] (withOp ({ desc 0x20 with stage := .running })), (.slice 0), { mb := 0, slice := some 0 }, [0, 0],
       { desc 0x20 with stage := .running }, admitted_cmd rfl rfl rfl rfl rfl rfl rfl (by decide +kernel), by decide +kernel⟩,
   ⟨ask 512 cmdGovQuery [] (up), .manager, { mb := 512, slice := none }, [],
       admitted_cmd rfl rfl rfl rfl rfl rfl rfl (by decide +kernel), by decide +kernel⟩,
   ⟨ask 512 cmdGovSetEnvelope [1600] (up), .manager, { mb := 512, slice := none }, [1600],
       admitted_cmd rfl rfl rfl rfl rfl rfl rfl (by decide +kernel), by decide +kernel⟩,
   ⟨ask 512 cmdFaultQuery [59] (up), .manager, { mb := 512, slice := none }, [59],
       admitted_cmd rfl rfl rfl rfl rfl rfl rfl (by decide +kernel), by decide +kernel⟩,
   ⟨ask 512 cmdFaultRestore [52] ({ up with fc := { units := [(52 * 64, .fenced)] } }), .manager, { mb := 512, slice := none },
       [52], admitted_cmd rfl rfl rfl rfl rfl rfl rfl (by decide +kernel), by decide +kernel⟩,
   ⟨ask 512 (cmdFaultInject true) [59, 1, 1, 0] (up), .manager, { mb := 512, slice := none }, [59, 1, 1, 0], true,
       admitted_cmd rfl rfl rfl rfl rfl rfl rfl (by decide +kernel), by decide +kernel⟩,
   ⟨ask 512 cmdSecMeasure [] (up), .manager, { mb := 512, slice := none }, [],
       admitted_cmd rfl rfl rfl rfl rfl rfl rfl (by decide +kernel)⟩,
   ⟨ask 512 cmdDbgCounters [639, 7692, 500] (up), .manager, { mb := 512, slice := none }, [639, 7692, 500],
       admitted_cmd rfl rfl rfl rfl rfl rfl rfl (by decide +kernel), by decide +kernel⟩,
   ⟨ask 512 cmdDbgTrace [1, 0] (up), .manager, { mb := 512, slice := none }, [1, 0],
       admitted_cmd rfl rfl rfl rfl rfl rfl rfl (by decide +kernel), by decide +kernel⟩,
   ⟨ask 512 cmdDbgState [0, 0] (up), .manager, { mb := 512, slice := none }, [0, 0],
       admitted_cmd rfl rfl rfl rfl rfl rfl rfl (by decide +kernel), by decide +kernel⟩,
   ⟨ask 0 (cmdSecBundleLoad (some bundleHead)) [(moHandle 1 1).setWidth 64, 0, 337, (moHandle 1 1).setWidth 64, 0, 0, 0] (netUp),
       (.slice 0), { mb := 0, slice := some 0 }, [(moHandle 1 1).setWidth 64, 0, 337, (moHandle 1 1).setWidth 64, 0, 0, 0],
       bundleHead, admitted_cmd rfl rfl rfl rfl rfl rfl rfl (by decide +kernel), by decide +kernel⟩⟩

/-- What meets the hypotheses of each clause of `Obligations.FoundationCommands`. -/
theorem wit_FoundationCommands :
    (∃ s : State, ∃ load : Nat, ∃ l : Load, s.fc.dstate = .normal ∧ Tab.get s.fnd.loads load = some l ∧ l.running.isSome = true ∧
        l.doomed = false ∧ l.done = none) ∧
    (∃ s : State, ∃ load : Nat, ∃ l : Load, s.fc.dstate = .normal ∧ Tab.get s.fnd.loads load = some l ∧ l.running.isSome = true ∧
        l.doomed = false ∧ (∃ r : MarkRef, ∃ v : Word, l.done = some (r, v))) ∧
    (∃ s : State, ∃ t : Mctp, s.fnd.ready = true ∧ spdmAt s t = .version) ∧
    (∃ s : State, ∃ t : Mctp, s.fnd.ready = true ∧ spdmAt s t = .capabilities) ∧
    (∃ s : State, ∃ t : Mctp, s.fnd.ready = true ∧ spdmAt s t = .negotiated) ∧
    (∃ s : State, ∃ t : Mctp, s.fnd.ready = true ∧ spdmAt s t = .negotiated) ∧
    (∃ s : State, ∃ t : Mctp, s.fnd.ready = true ∧ spdmAt s t = .negotiated ∧ (∃ k : Nat, 1 ≤ k ∧ k ≤ 8)) ∧
    (∃ s : State, ∃ t : Mctp, s.fnd.ready = true ∧ spdmAt s t ≠ .negotiated) ∧
    (∃ s : State, s.fnd.ready = true ∧ (∃ n : BitVec 256, s.fnd.nonce = some n)) ∧
    (∃ s : State, s.fnd.ready = true) ∧
    (∃ s : State, s.fnd.ready = true ∧ s.fc.dstate ≠ .halted) :=
  ⟨⟨{ up with fnd := { ready := true, loads := [(0, aLoad)] } }, 0, aLoad, by decide +kernel⟩,
   ⟨{ up with fnd := { ready := true, loads := [(0, { aLoad with done := some ({ mo := 0, off := 0, key := 7 }, 5) })] } }, 0,
       { aLoad with done := some ({ mo := 0, off := 0, key := 7 }, 5) }, by decide +kernel, by decide +kernel, by decide +kernel,
       by decide +kernel, { mo := 0, off := 0, key := 7 }, 5, by decide +kernel⟩,
   ⟨{ up with fnd := { ready := true, spdm := [(mctpNum .vdm, .version)] } }, .vdm, by decide +kernel⟩,
   ⟨{ up with fnd := { ready := true, spdm := [(mctpNum .vdm, .capabilities)] } }, .vdm, by decide +kernel⟩,
   ⟨{ up with fnd := { ready := true, spdm := [(mctpNum .vdm, .negotiated)] } }, .vdm, by decide +kernel⟩,
   ⟨{ up with fnd := { ready := true, spdm := [(mctpNum .vdm, .negotiated)] } }, .vdm, by decide +kernel⟩,
   ⟨{ up with fnd := { ready := true, spdm := [(mctpNum .vdm, .negotiated)] } }, .vdm, by decide +kernel, by decide +kernel, 8,
       by decide +kernel⟩,
   ⟨{ up with fnd := { ready := true, spdm := [(mctpNum .vdm, .none)] } }, .vdm, by decide +kernel⟩,
   ⟨{ up with fnd := { ready := true, nonce := some 1 } }, by decide +kernel, 1, by decide +kernel⟩,
   ⟨up, by decide +kernel⟩,
   ⟨up, by decide +kernel⟩⟩

/-- What meets the hypotheses of each clause of `Obligations.CastOnStepsInOrder`. -/
theorem wit_CastOnStepsInOrder :
    (∃ s : State, s.castOn.powered = true ∧ s.castOn.rails < 5) ∧
    (∃ s : State, s.castOn.rails = 5 ∧ s.castOn.measured = false) ∧
    (∃ s : State, s.castOn.rails = 5 ∧ s.fnd.ready = false ∧ s.fc.dstate ≠ .halted) ∧
    (∃ s : State, s.castOn.rails = 5 ∧ s.fnd.ready = false ∧ s.fc.dstate ≠ .halted) ∧
    (∃ s : State, s.castOn.st = .verifying ∧ s.fc.dstate ≠ .halted) ∧
    (∃ s : State, s.castOn.st = .accepted ∧ s.fc.dstate ≠ .halted ∧ s.hooksUp = false) ∧
    (∃ s : State, s.castOn.st = .accepted ∧ s.fc.dstate ≠ .halted ∧ s.hooksUp = true) :=
  ⟨⟨{ castOn := { rails := 4 } }, by decide +kernel⟩,
   ⟨{ castOn := { rails := 5 } }, by decide +kernel⟩,
   ⟨{ castOn := { rails := 5 } }, by decide +kernel⟩,
   ⟨{ castOn := { rails := 5 } }, by decide +kernel⟩,
   ⟨{ castOn := { st := .verifying, goLen := 2 ^ 26 - 1, route := .bar4 } }, by decide +kernel⟩,
   ⟨{ castOn := { st := .accepted } }, by decide +kernel⟩,
   ⟨{ castOn := { st := .accepted }, hooksUp := true }, by decide +kernel⟩⟩

/-- What meets the hypotheses of each clause of `Obligations.ImageRoutes`. -/
theorem wit_ImageRoutes :
    (∃ s : State, s.fc.dstate ≠ .halted ∧ (∃ off : Nat, ∃ bs : List Byte, s.castOnFuse.getLsbD 13 = false ∧
        off + bs.length ≤ 0x03000000 ∧ ((imageWait s = true ∨ claimedBy s .bar4 = true)))) ∧
    (∃ s : State, s.fc.dstate ≠ .halted ∧ imageWait s = false ∧ claimedBy s .bar4 = false) ∧
    (∃ s : State, s.fc.dstate ≠ .halted ∧ (∃ off : Nat, ∃ bs : List Byte, s.castOnFuse.getLsbD 14 = false ∧
        off + bs.length ≤ 0x03000000 ∧ 0 < bs.length ∧ bs.length ≤ 240 ∧ ((imageWait s = true ∨ claimedBy s .i3c = true)))) ∧
    (∃ s : State, s.fc.dstate ≠ .halted ∧ imageWait s = false ∧ claimedBy s .i3c = false) ∧
    (∃ s : State, s.fc.dstate ≠ .halted ∧ (∃ off : Nat, ∃ bs : List Byte, s.castOnFuse.getLsbD 14 = false ∧ imageWait s = true ∧
        0x03000000 < off + bs.length)) ∧
    (∃ s : State, s.fc.dstate ≠ .halted ∧ (∃ n : Nat, s.castOn.st = .claimed ∧ s.castOn.route = .bar4 ∧ n < 2 ^ 26)) ∧
    (∃ s : State, s.fc.dstate ≠ .halted ∧ (∃ n : Nat, s.castOn.st = .claimed ∧ s.castOn.route ≠ .bar4 ∧ n < 2 ^ 26)) ∧
    (∃ s : State, s.fc.dstate ≠ .halted ∧ s.castOn.st = .claimed ∧ s.castOn.route = .i3c ∧ s.castOnFuse.getLsbD 14 = false) ∧
    (∃ s : State, s.fc.dstate ≠ .halted ∧ claimedBy s .bar4 = true) ∧
    (∃ s : State, s.fc.dstate ≠ .halted ∧ claimedBy s .i3c = true ∧ s.castOnFuse.getLsbD 14 = false) ∧
    (∃ s : State, s.fc.dstate ≠ .halted ∧ bootUp s = true ∧ s.castOn.st ≠ .verifying) ∧
    (∃ s : State, s.fc.dstate ≠ .halted ∧ (∃ off : Nat, ∃ total : Nat, ∃ bs : List Byte, bootUp s = true ∧
        ((imageWait s = true ∨ claimedBy s .native = true)) ∧ s.castOn.st ≠ .verifying ∧ 0 < bs.length ∧ bs.length ≤ 2048 ∧
        total ≤ 0x03000000 ∧ off + bs.length ≤ total ∧ ((s.castOn.total = none ∨ s.castOn.total = some total)) ∧
        off = s.castOn.held ∧ off + bs.length < total)) ∧
    (∃ s : State, s.fc.dstate ≠ .halted ∧ (∃ off : Nat, ∃ total : Nat, ∃ bs : List Byte, bootUp s = true ∧
        ((imageWait s = true ∨ claimedBy s .native = true)) ∧ s.castOn.st ≠ .verifying ∧ 0 < bs.length ∧ bs.length ≤ 2048 ∧
        total ≤ 0x03000000 ∧ off + bs.length ≤ total ∧ ((s.castOn.total = none ∨ s.castOn.total = some total)) ∧
        off = s.castOn.held ∧ off + bs.length = total)) ∧
    (∃ s : State, s.fc.dstate ≠ .halted ∧ (∃ off : Nat, ∃ total : Nat, ∃ bs : List Byte, bootUp s = true ∧
        ((imageWait s = true ∨ claimedBy s .native = true)) ∧ s.castOn.st ≠ .verifying ∧ 0 < bs.length ∧ bs.length ≤ 2048 ∧
        total ≤ 0x03000000 ∧ off + bs.length ≤ total ∧ ((s.castOn.total = none ∨ s.castOn.total = some total)) ∧
        s.castOn.held < off)) ∧
    (∃ s : State, s.fc.dstate ≠ .halted ∧ (∃ off : Nat, ∃ total : Nat, ∃ bs : List Byte, bootUp s = true ∧
        ((imageWait s = true ∨ claimedBy s .native = true)) ∧ s.castOn.st ≠ .verifying ∧ 0 < bs.length ∧ bs.length ≤ 2048 ∧
        total ≤ 0x03000000 ∧ off + bs.length ≤ total ∧ (∃ k : Nat, s.castOn.total = some k ∧ k ≠ total))) :=
  ⟨⟨{ fnd := { ready := true } }, by decide +kernel, 0x02FFFFFF, [1], by decide +kernel⟩,
   ⟨{ castOn := { st := .ready } }, by decide +kernel⟩,
   ⟨{ fnd := { ready := true } }, by decide +kernel, 0, zeros 240, by decide +kernel⟩,
   ⟨{ castOn := { st := .ready } }, by decide +kernel⟩,
   ⟨{ fnd := { ready := true } }, by decide +kernel, 0x03000000, [1], by decide +kernel⟩,
   ⟨{ castOn := { st := .claimed, route := .bar4 }, fnd := { ready := true } }, by decide +kernel, 2 ^ 26 - 1, by decide +kernel⟩,
   ⟨{ castOn := { st := .claimed, route := .i3c }, fnd := { ready := true } }, by decide +kernel, 2 ^ 26 - 1, by decide +kernel⟩,
   ⟨{ castOn := { st := .claimed, route := .i3c }, fnd := { ready := true } }, by decide +kernel⟩,
   ⟨{ castOn := { st := .claimed, route := .bar4 }, fnd := { ready := true } }, by decide +kernel⟩,
   ⟨{ castOn := { st := .claimed, route := .i3c }, fnd := { ready := true } }, by decide +kernel⟩,
   ⟨bootCard { st := .waiting, held := 0 }, by decide +kernel⟩,
   ⟨bootCard { st := .waiting, total := none, held := 0 }, by decide +kernel, 0, 2049, zeros 2048, by decide +kernel⟩,
   ⟨bootCard { st := .waiting, total := some 2048, held := 0 }, by decide +kernel, 0, 2048, zeros 2048, by decide +kernel⟩,
   ⟨bootCard { st := .waiting, total := none, held := 4 }, by decide +kernel, 5, 6, [1], by decide +kernel⟩,
   ⟨bootCard { st := .waiting, total := some 7 }, by decide +kernel, 0, 6, [1], by decide +kernel, by decide +kernel,
       by decide +kernel, by decide +kernel, by decide +kernel, by decide +kernel, by decide +kernel, 7, by decide +kernel⟩⟩

/-- What meets the hypotheses of each clause of `Obligations.HaltedEndsOnlyWithVin`. -/
theorem wit_HaltedEndsOnlyWithVin :
    (∃ s : State, ∃ t : State, s.fc.dstate = .halted ∧ step s = .next t) ∧
    (∃ s : State, ∃ t : State, ∃ c : Instr, ∃ rest : List Instr, s.pending = c :: rest ∧ vinChanges c = true ∧
        step s = .next t) :=
  ⟨⟨{ up with fc := { dstate := .halted } }, after (step { up with fc := { dstate := .halted } }), by decide +kernel, rfl⟩,
   ⟨{ up with fc := { dstate := .halted }, pending := [.vinLoss] },
       after (step { up with fc := { dstate := .halted }, pending := [.vinLoss] }), .vinLoss, [], by decide +kernel,
       by decide +kernel, rfl⟩⟩

/-- What meets the hypotheses of each clause of `Obligations.ErtHeaderRoundTrip`. -/
theorem wit_ErtHeaderRoundTrip :
    (∃ i : Nat, 144 ≤ i ∧ i ≤ 150) :=
  ⟨150, by decide +kernel⟩

/-- What meets the hypotheses of each clause of `Obligations.LongRowsAreExactAndOrderFree`. -/
theorem wit_LongRowsAreExactAndOrderFree :
    (∃ xs : List Sys2Proof.Machine.Num, ((∀ x ∈ xs, x.finite = true)) ∧ (xs.map (fun x => x.units.natAbs)).sum < 2 ^ 319) ∧
    (∃ xs : List Sys2Proof.Machine.Num, ∃ ys : List Sys2Proof.Machine.Num, xs.Perm ys ∧ ((∀ x ∈ xs, x.units.natAbs < 2 ^ 319))) :=
  ⟨⟨[.fin false 3 2, .fin true 1 4], by decide +kernel⟩,
   ⟨[.fin false 3 2, .fin true 1 4], [.fin true 1 4, .fin false 3 2], List.Perm.swap _ _ _, by decide +kernel⟩⟩

/-- What meets the hypotheses of each clause of `Obligations.MarkersTakeTheGreatestSignal`. -/
theorem wit_MarkersTakeTheGreatestSignal :
    (∃ m : Marker, ∃ vs : List Word, m.status = 0 ∧ ((∀ v ∈ vs, legalSignal v))) ∧
    (∃ m : Marker, ∃ vs : List Word, ∃ ws : List Word, m.status = 0 ∧ ((∀ v ∈ vs, legalSignal v)) ∧ vs.Perm ws) ∧
    (∃ m : Marker, m.status ≠ 0) ∧
    (∃ m : Marker, ∃ v : Word, m.status = 0 ∧ ¬legalSignal v) :=
  ⟨⟨{ value := 4 }, [3, 0x7FFFFFFFFFFFFFFF], by decide +kernel, legal_all (by decide +kernel)⟩,
   ⟨{ value := 4 }, [3, 5], [5, 3], by decide +kernel, legal_all (by decide +kernel), List.Perm.swap _ _ _⟩,
   ⟨{ value := 4, code := 1 }, by decide +kernel⟩,
   ⟨{}, 0x8000000000000000, by decide +kernel, by unfold legalSignal; decide +kernel⟩⟩

/-- What meets the hypotheses of each clause of `Obligations.ExhaustedMarkersStay`. -/
theorem wit_ExhaustedMarkersStay :
    (∃ m : Marker, m.value.toNat = 2 ^ 63 - 1 ∧ (∃ t : Nat, t ≤ 2 ^ 63 - 1)) ∧
    (∃ m : Marker, m.value.toNat < 2 ^ 63) :=
  ⟨⟨{ value := 0x7FFFFFFFFFFFFFFF }, by decide +kernel, 2 ^ 63 - 1, by decide +kernel⟩,
   ⟨{ value := 0x7FFFFFFFFFFFFFFF }, by decide +kernel⟩⟩

/-- What meets the hypotheses of each clause of `Obligations.MarkerResetStartsTheRecordAgain`. -/
theorem wit_MarkerResetStartsTheRecordAgain :
    (∃ s : State, ∃ mb : Mbox, ∃ c : Caller, ∃ a : List Word, cmdAdmitted s mb cmdMarkerReset c a ∧ (arg a 1).toNat < 2 ^ 63 ∧
        (let h := dLo (arg a 0); ∃ r : MarkRef, ∃ t : State, (s.moOf h).imported = none ∧ cmdMark c (arg a 0) s = (.ok r, t) ∧
        t.ops.any (fun e => e.2.waitsOn t r.key) = false)) ∧
    (∃ s : State, ∃ mb : Mbox, ∃ c : Caller, ∃ a : List Word, cmdAdmitted s mb cmdMarkerReset c a ∧ (arg a 1).toNat < 2 ^ 63 ∧
        (let h := dLo (arg a 0); ∃ r : MarkRef, ∃ t : State, (s.moOf h).imported = none ∧ cmdMark c (arg a 0) s = (.ok r, t) ∧
        t.ops.any (fun e => e.2.waitsOn t r.key) = true)) ∧
    (∃ s : State, ∃ mb : Mbox, ∃ c : Caller, ∃ a : List Word, cmdAdmitted s mb cmdMarkerReset c a ∧ (arg a 1).toNat < 2 ^ 63 ∧
        (let h := dLo (arg a 0); markNamed s c h = true ∧ (s.moOf h).imported.isSome = true)) ∧
    (∃ s : State, ∃ mb : Mbox, ∃ c : Caller, ∃ a : List Word, cmdAdmitted s mb cmdMarkerReset c a ∧ (arg a 1).toNat < 2 ^ 63 ∧
        (let h := dLo (arg a 0); c.owns (s.ctx (s.moOf h).ctx).slice = false)) :=
  ⟨⟨ask 0 cmdMarkerReset [(moHandle 1 1).setWidth 64, 9223372036854775807] (netUp), (.slice 0), { mb := 0, slice := some 0 },
      [(moHandle 1 1).setWidth 64, 9223372036854775807], admitted_cmd rfl rfl rfl rfl rfl rfl rfl (by decide +kernel),
      by decide +kernel,
      (markGot (cmdMark { mb := 0, slice := some 0 } ((moHandle 1 1).setWidth 64) (ask 0 cmdMarkerReset [(moHandle 1 1).setWidth 64,
      9223372036854775807] (netUp))).1),
      (cmdMark { mb := 0, slice := some 0 } ((moHandle 1 1).setWidth 64) (ask 0 cmdMarkerReset [(moHandle 1 1).setWidth 64,
      9223372036854775807] (netUp))).2, by decide +kernel⟩,
   ⟨ask 0 cmdMarkerReset [(moHandle 1 1).setWidth 64,
       9223372036854775807] ({ netUp with ops := [(0, { desc 0x31 with stage := .waiting, mwait := 1, wait := some { mo := moHandle 1 1, off := 0, key := 0 } })] }),
       (.slice 0), { mb := 0, slice := some 0 }, [(moHandle 1 1).setWidth 64, 9223372036854775807],
       admitted_cmd rfl rfl rfl rfl rfl rfl rfl (by decide +kernel), by decide +kernel,
       (markGot (cmdMark { mb := 0, slice := some 0 } ((moHandle 1 1).setWidth 64) (ask 0 cmdMarkerReset [(moHandle 1 1).setWidth 64,
       9223372036854775807] ({ netUp with ops := [(0, { desc 0x31 with stage := .waiting, mwait := 1, wait := some { mo := moHandle 1 1, off := 0, key := 0 } })] }))).1),
       (cmdMark { mb := 0, slice := some 0 } ((moHandle 1 1).setWidth 64) (ask 0 cmdMarkerReset [(moHandle 1 1).setWidth 64,
       9223372036854775807] ({ netUp with ops := [(0, { desc 0x31 with stage := .waiting, mwait := 1, wait := some { mo := moHandle 1 1, off := 0, key := 0 } })] }))).2,
       by decide +kernel⟩,
   ⟨ask 0 cmdMarkerReset [(moHandle 2 1).setWidth 64,
       9223372036854775807] ({ netUp with mos := netUp.mos ++ [(2, { gen := 1, st := .valid, len := 16, rights := 0x20, imported := some { mo := moHandle 1 1, off := 0, key := 0 } })] }),
       (.slice 0), { mb := 0, slice := some 0 }, [(moHandle 2 1).setWidth 64, 9223372036854775807],
       admitted_cmd rfl rfl rfl rfl rfl rfl rfl (by decide +kernel), by decide +kernel⟩,
   ⟨ask 0 cmdMarkerReset [(moHandle 2 1).setWidth 64,
       9223372036854775807] ({ netUp with ctxs := netUp.ctxs ++ [(1, { st := .active, epoch := 1, slice := 1 })], mos := netUp.mos ++ [(2, { gen := 1, st := .valid, ctx := 1, len := 16, rights := 0x20 })] }),
       (.slice 0), { mb := 0, slice := some 0 }, [(moHandle 2 1).setWidth 64, 9223372036854775807],
       admitted_cmd rfl rfl rfl rfl rfl rfl rfl (by decide +kernel), by decide +kernel⟩⟩

/-- What meets the hypotheses of each clause of `Obligations.ExtentsCoverTheOperation`. -/
theorem wit_ExtentsCoverTheOperation :
    (∃ o : Op, ((o.opcode = 0x01 ∨ o.opcode = 0x02 ∨ o.opcode = 0x03 ∨ o.opcode = 0x10 ∨ o.opcode = 0x11)) ∧ (∃ i : Nat,
        ∃ x : WorkExt, o.splits[i]? = some x)) ∧
    (∃ o : Op, ((o.opcode = 0x01 ∨ o.opcode = 0x02 ∨ o.opcode = 0x03 ∨ o.opcode = 0x10 ∨ o.opcode = 0x11)) ∧ o.length ≤ 262144) ∧
    (∃ o : Op, ((o.opcode = 0x12 ∨ o.opcode = 0x18 ∨ o.opcode = 0x19))) :=
  ⟨⟨desc 0x01 [BitVec.ofNat 64 (262145 * 2 ^ 16)], by decide +kernel, 1,
      ((desc 0x01 [BitVec.ofNat 64 (262145 * 2 ^ 16)]).splits.getD 1 { off := 0, len := 0 }), by decide +kernel⟩,
   ⟨desc 0x01 [BitVec.ofNat 64 (262144 * 2 ^ 16)], by decide +kernel⟩,
   ⟨desc 0x12, by decide +kernel⟩⟩

end Sys2Proof.Tests
end

section
/-! Markers (02 R51-R54): what a signal does to VALUE, and what marker.reset answers. -/

namespace Sys2Proof.Machine

/-! ### Signals and VALUE (R51, R53) -/

@[simp] theorem Marker.setFlag_value (m : Marker) (i : Nat) : (m.setFlag i).value = m.value := rfl

@[simp] theorem Marker.late_value (m : Marker) : m.late.value = m.value := by
  simp only [Marker.late, apply_ite Marker.value, Marker.setFlag_value, ite_self]

/-- Bit 63 of a word is 0 where the word lies below 2^63. -/
theorem getElem_63_eq_false_iff (v : Word) : v[63] = false ↔ v.toNat < 2 ^ 63 := by
  rw [show v[63] = v.msb from (BitVec.msb_eq_getLsbD_last v).symm, BitVec.msb_eq_false_iff_two_mul_lt]
  omega

/-- A signal gives VALUE its own value where it is legal, the record good and VALUE lower (R51); else VALUE stays. -/
theorem signalRecord_value (m : Marker) (v : Word) :
    (signalRecord m v).2.value = if v[63] = false ∧ m.status = 0 ∧ m.value.toNat < v.toNat then v else m.value := by
  cases hv : v[63] with
  | true => simp [signalRecord, hv, apply_ite Marker.value]
  | false =>
    by_cases hst : m.status = 0
    case neg => simp [signalRecord, hv, hst]
    by_cases hlt : m.value.toNat < v.toNat
    · simp [signalRecord, hv, hst, hlt, apply_ite Marker.value]
    · simp [signalRecord, hv, hst, hlt, apply_ite Prod.snd, apply_ite Marker.value]

/-- A signal never lowers VALUE. -/
theorem le_signalRecord_value (m : Marker) (v : Word) : m.value.toNat ≤ (signalRecord m v).2.value.toNat := by
  rw [signalRecord_value]
  split
  case isTrue h => exact h.2.2.le
  case isFalse => exact le_rfl

/-- A signal never takes VALUE to 2^63 or above. -/
theorem signalRecord_value_lt {m : Marker} (v : Word) (hm : m.value.toNat < 2 ^ 63) :
    (signalRecord m v).2.value.toNat < 2 ^ 63 := by
  rw [signalRecord_value]
  split
  case isTrue h => exact (getElem_63_eq_false_iff v).1 h.1
  case isFalse => exact hm

/-- Signals keep VALUE between where it was and 2^63: it does not wrap (R53). -/
theorem signals_value_bounds {m : Marker} (vs : List Word) (hm : m.value.toNat < 2 ^ 63) :
    m.value.toNat ≤ (signals m vs).value.toNat ∧ (signals m vs).value.toNat < 2 ^ 63 := by
  induction vs generalizing m with
  | nil => exact ⟨le_rfl, hm⟩
  | cons v vs ih =>
    obtain ⟨hle, hlt⟩ := ih (signalRecord_value_lt v hm)
    exact ⟨(le_signalRecord_value m v).trans hle, hlt⟩

/-- No signal changes VALUE of an exhausted record: 2^63 - 1 is the greatest it may hold. -/
theorem signals_value_of_exhausted {m : Marker} (vs : List Word) (hm : m.value.toNat = 2 ^ 63 - 1) :
    (signals m vs).value = m.value := by
  obtain ⟨hle, hlt⟩ := signals_value_bounds vs (m := m) (by omega)
  exact BitVec.eq_of_toNat_eq (by omega)

/-- An error leaves VALUE (R49). -/
@[simp] theorem errorRecord_value (m : Marker) (c d : Nat) : (errorRecord m c d).value = m.value := by
  unfold errorRecord; split <;> rfl

/-- marker.reset sets VALUE (R54). -/
@[simp] theorem resetRecord_value (m : Marker) (v : Word) : (resetRecord m v).value = v := rfl

/-- A wait whose target VALUE has reached is satisfied, whatever STATUS is (R52). -/
theorem waitState_of_le {m : Marker} {t : Nat} (h : t ≤ m.value.toNat) : waitState m t = .satisfied := if_pos h

/-- Settles O58: signals keep VALUE from its old value up to 2^63 - 1, so an exhausted record's VALUE has nowhere to go. -/
theorem exhaustedMarkersStay : Obligations.ExhaustedMarkersStay := by
  refine ⟨fun m vs hm => ?_, errorRecord_value, resetRecord_value, fun _ vs hm => signals_value_bounds vs hm⟩
  have hv := signals_value_of_exhausted vs hm
  exact ⟨hv, fun t ht => waitState_of_le (by rwa [hv, hm])⟩

/-! ### marker.reset (R54) -/

/-- An admitted command whose body refuses, for another reason than a quota, only answers: the state its body leaves is dropped. -/
theorem runCmd_err {s : State} {mb : Mbox} {k : Cmd} {c : Caller} {a : List Word} (h : cmdAdmitted s mb k c a) {st d : Nat} {t : State}
    (hq : st ≠ msQuota) (hb : k.body c a s = (.err st d, t)) :
    runCmd mb k s = .next (mbFinish (mbNum mb) st d [] (forgetSeen (.command (mbNum mb)) s)) := by
  rw [runCmd_of_admitted h, hb]
  simp only [if_neg hq]
  rfl

/-- A handle whose object's context is not the caller's slice's names no marker of the caller. -/
theorem markNamed_of_not_owns {s : State} {c : Caller} {h : BitVec 32} (ho : c.owns (s.ctx (s.moOf h).ctx).slice = false) :
    markNamed s c h = false := by
  simp [markNamed, ho]

/-- A marker argument whose handle names no marker of the caller comes to no record: 0 to none, another to a stale handle (R370). -/
theorem cmdMark_of_not_named {s : State} {c : Caller} {w : Word} (h : markNamed s c (dLo w) = false) :
    cmdMark c w s = (.none, s) ∨ cmdMark c w s = (.stale, s) := by
  by_cases hw : w = 0
  · exact .inl (if_pos hw)
  · exact .inr (by rw [cmdMark, if_neg hw, h]; rfl)

section
variable {s t : State} {c : Caller} {a : List Word} {r : MarkRef}

/-- With a VALUE below 2^63 and an object that is no import, marker.reset resets the record its argument is found to name, or answers
MARKER_BUSY where a hardware wait on it is pending. -/
theorem cmdMarkerReset_body_ok (hv : (arg a 1).toNat < 2 ^ 63) (hi : (s.moOf (dLo (arg a 0))).imported = none)
    (hr : cmdMark c (arg a 0) s = (.ok r, t)) :
    cmdMarkerReset.body c a s =
      if t.ops.any (fun e => e.2.waitsOn t r.key) then bad msMarkerBusy 0 t
      else okRes (storeMarker r (resetRecord (markerAt t r.key) (arg a 1)) t) := by
  simp [cmdMarkerReset, (getElem_63_eq_false_iff _).2 hv, hi, hr]

/-- marker.reset refuses an import. -/
theorem cmdMarkerReset_body_imported (hv : (arg a 1).toNat < 2 ^ 63) (hn : markNamed s c (dLo (arg a 0)) = true)
    (hi : (s.moOf (dLo (arg a 0))).imported.isSome = true) : cmdMarkerReset.body c a s = bad msProtection 0 s := by
  simp [cmdMarkerReset, (getElem_63_eq_false_iff _).2 hv, hn, hi]

/-- marker.reset refuses a handle that names no marker of the caller. -/
theorem cmdMarkerReset_body_not_named (hv : (arg a 1).toNat < 2 ^ 63) (hn : markNamed s c (dLo (arg a 0)) = false) :
    cmdMarkerReset.body c a s = bad msStale 0 s := by
  obtain hm | hm := cmdMark_of_not_named hn <;> simp [cmdMarkerReset, (getElem_63_eq_false_iff _).2 hv, hn, hm]

end

@[simp] theorem resetRecord_status (m : Marker) (v : Word) : (resetRecord m v).status = 0 := by
  simp [resetRecord, Marker.status]
@[simp] theorem resetRecord_ooo (m : Marker) (v : Word) : (resetRecord m v).ooo = 0 := rfl

/-- A reset record has FLAGS[3:0] 0 (R54). -/
theorem resetRecord_flags_low (m : Marker) (v : Word) : (resetRecord m v).flags &&& 0xF#16 = 0 := by
  rw [resetRecord, BitVec.and_assoc, show 0x0030#16 &&& 0xF#16 = 0#16 by decide, BitVec.and_zero]; rfl

/-- Settles O59, by what the body of marker.reset answers for a record, an import and a handle that is not the caller's. -/
theorem markerResetStartsTheRecordAgain : Obligations.MarkerResetStartsTheRecordAgain := by
  intro s mb c a hadm hv
  refine ⟨fun r t hi hr => ⟨fun hfree => ?_, fun hbusy => ?_,
    resetRecord_value _ _, resetRecord_status _ _, resetRecord_ooo _ _, resetRecord_flags_low _ _⟩,
    fun hn hi => ?_, fun ho => ?_⟩
  · exact runCmd_ok hadm (by rw [cmdMarkerReset_body_ok hv hi hr, hfree]; rfl)
  · exact runCmd_err hadm (by decide) (by rw [cmdMarkerReset_body_ok hv hi hr, hbusy]; rfl)
  · exact runCmd_err hadm (by decide) (cmdMarkerReset_body_imported hv hn hi)
  · exact runCmd_err hadm (by decide) (cmdMarkerReset_body_not_named hv (markNamed_of_not_owns ho))

end Sys2Proof.Machine
end

section
/-! CQ doorbells (03 R67, R68): what a running block does with one that it takes. -/

namespace Sys2Proof.Machine

theorem exec_ssuCqDb (w : DbWrite) (s : State) : exec (.ssuCqDb w) s = execSsuCqDb w s := rfl

/-- A running block takes a write to a page that is active, and records nothing (R299, R405, R409). -/
theorem dbGate_of_normal {s : State} {link slice : Nat} (hst : s.fc.dstate = .normal) (hp : pageActive s link slice = true)
    (k : Bool → State → State) : dbGate link slice s k = k false s := by
  rw [dbGate, hst, hp]; rfl

/-- An aligned CQ doorbell that R67 takes for an active queue comes to the test of R68. -/
theorem exec_ssuCqDb_of_taken {w : DbWrite} {s : State} (ha : w.aligned8 = true) (hq : (s.cq (fld w.value 15 0)).active = true)
    (ht : dbTaken s w.link w.slice (s.cq (fld w.value 15 0)).ctx) :
    exec (.ssuCqDb w) s =
      .next (cqDoorbell (fld w.value 15 0) (BitVec.ofNat 24 (fld w.value 39 16)) (w.value.getLsbD 40) w.slice s) := by
  obtain ⟨hst, hp, hctx⟩ := ht
  rw [exec_ssuCqDb, execSsuCqDb, dbGate_of_normal hst hp]
  simp [ha, hq, hctx, done]

section
variable {s : State} {n : Nat} {c : BitVec 24}

/-- An index between C and W becomes C, ARM is added, and what waits is written (R68). -/
theorem cqDoorbell_of_le (h : ringDiff c (s.cq n).c ≤ ringDiff (s.cq n).w (s.cq n).c) (arm : Bool) (slice : Nat) :
    cqDoorbell n c arm slice s = cqFlush n (s.updCq n (fun q => { q with c := c, arm := q.arm || arm })) := if_pos h

/-- An index outside drops the doorbell whole: the slice's drop counter alone moves (R68). -/
theorem cqDoorbell_of_lt (h : ringDiff (s.cq n).w (s.cq n).c < ringDiff c (s.cq n).c) (arm : Bool) (slice : Nat) :
    cqDoorbell n c arm slice s = count slice 0 s := if_neg h.not_ge

end

/-- Settles O5, by the two outcomes of R68's test once R67 has taken the doorbell. -/
theorem cqDoorbellMovesTheConsumerOrIsDropped : Obligations.CqDoorbellMovesTheConsumerOrIsDropped := by
  intro w s n c q ha hq ht
  have hexec := exec_ssuCqDb_of_taken ha hq ht
  refine ⟨fun hin => ?_, fun hout => ?_⟩
  · rw [hexec, cqDoorbell_of_le hin]
  · rw [hexec, cqDoorbell_of_lt hout]

end Sys2Proof.Machine
end

section
/-! A halted device (14 R405): what each command leaves it as. -/

namespace Sys2Proof.Machine

section
variable {s : State}

/-! ### What turns a command away on a halted device -/

theorem reinitAt_h (h : s.fc.dstate = .halted) (k) : reinitAt s k = false := by simp [reinitAt, h]
theorem moduleLive_h (h : s.fc.dstate = .halted) (m) : moduleLive s m = false := by simp [moduleLive, h]
theorem nativeUp_h (h : s.fc.dstate = .halted) (lp) : nativeUp s lp = false := by simp [nativeUp, h]
theorem lpMayRun_h (h : s.fc.dstate = .halted) (lp) : lpMayRun s lp = false := by simp [lpMayRun, h]
theorem qpMaySend_h (h : s.fc.dstate = .halted) (q) : qpMaySend s q = false := by simp [qpMaySend, running_h h]
theorem whenRunning_h (h : s.fc.dstate = .halted) (f) : whenRunning f s = s := by simp [whenRunning, running_h h]
theorem fastPath_h (h : s.fc.dstate = .halted) (b) : fastPath b s = s := by simp [fastPath, h]
theorem dlAnswer_h (h : s.fc.dstate = .halted) (m txn wr st d) : dlAnswer m txn wr st d s = s := by simp [dlAnswer, h]

theorem hostAnswer_h (h : s.fc.dstate = .halted) (link tag m) : hostAnswer link tag m s = s := by
  unfold hostAnswer; split
  · rfl
  · simp [h]

/-- An arriving packet is only counted. -/
theorem haltKept_rxNew (h : s.fc.dstate = .halted) (p k) : haltKept s (rxNew p k s) := by
  rw [rxNew, rxGate_h h]; exact haltKept_countUnnamed h

theorem haltKept_rowKind (h : s.fc.dstate = .halted) (p k) : haltKept s (rowKind p k s) :=
  haltKept_rowOp h p 13 (f := fun s => if fld p.hdr.imm 26 24 = k || (k = 0 && 3 < fld p.hdr.imm 26 24) then rxPurlCtl p s else s)
    (fun hu => haltKept_ite (haltKept_rxNew hu p _) (haltKept_refl hu))

/-! ### Timers of a QP -/

theorem deliverNext_h (h : s.fc.dstate = .halted) (n) : deliverNext n s = s := by
  unfold deliverNext; dsimp only; split
  · rfl
  · simp [running_h h]

theorem doTink_h (h : s.fc.dstate = .halted) (n psn) : doTink n psn s = s := by
  unfold doTink; dsimp only; split
  · rfl
  · simp [qpMaySend_h h]

theorem rxStall_h (h : s.fc.dstate = .halted) (i) : rxStall i s = s := by
  unfold rxStall; split
  · rfl
  · simp [running_h h]

theorem pageHeld_h (h : s.fc.dstate = .halted) (n psn) : pageHeld n psn s = s := by
  unfold pageHeld; dsimp only; split
  · rfl
  · simp [running_h h]

theorem rocePageHeld_h (h : s.fc.dstate = .halted) (n psn) : rocePageHeld n psn s = s := by
  unfold rocePageHeld; split
  · rfl
  · simp [running_h h]

theorem skOpen_h (h : s.fc.dstate = .halted) (sq idx) : skOpen sq idx s = s := by
  unfold skOpen; split
  · rfl
  · dsimp only; split
    · simp [running_h h]
    · rfl

/-! ### Requests of a host, Foundation and the image routes -/

theorem haltKept_barGate (h : s.fc.dstate = .halted) (r k len tag go) : haltKept s (barGate r k len tag go s) := by
  simp only [barGate, h, beq_self_eq_true, if_true]
  split
  · exact haltKept_emit _ rfl h
  · exact haltKept_refl h

theorem haltKept_barRefuse (h : s.fc.dstate = .halted) (l tag) : haltKept s (barRefuse l tag s) := by
  unfold barRefuse; dsimp only; split
  · exact haltKept_then (haltKept_count _ _ h) (haltKept_emit _ rfl)
  · exact haltKept_then (haltKept_count _ _ h) (haltKept_emit _ rfl)

theorem haltKept_spdmReply (h : s.fc.dstate = .halted) (t c b) : haltKept s (spdmReply t c b s) := haltKept_emit _ rfl h

theorem haltKept_spdmSet (h : s.fc.dstate = .halted) (t st) : haltKept s (spdmSet t st s) := haltKept_updFnd _ h

/-- An SPDM request is answered, or refused where it is out of order. -/
theorem haltKept_spdmNeeds (h : s.fc.dstate = .halted) (t ok) {f : State → State} (hf : haltKept s (f s)) :
    ∃ u, spdmNeeds t ok f s = .next u ∧ haltKept s u :=
  ⟨_, rfl, haltKept_ite (haltKept_refl h) (haltKept_ite hf (haltKept_emit _ rfl h))⟩

theorem haltKept_sendBoot (h : s.fc.dstate = .halted) (b r o) : haltKept s (sendBoot b r o s) := haltKept_dealBlock _ _ _ _ _ h

theorem haltKept_allPortsDown (h : s.fc.dstate = .halted) : haltKept s (allPortsDown s) :=
  haltKept_fold (fun lp hu => haltKept_portDown lp hu) _ h

theorem haltKept_scErr (h : s.fc.dstate = .halted) (a b) : haltKept s (scErr a b s) := haltKept_updSc _ h

/-- An event loses no context where the device is halted before its class is looked at. -/
theorem haltKept_onEventUnlost {u : State} (hu : haltKept s u) (two e) (v : State) :
    haltKept s (onEvent two e (if u.fc.dstate == .halted then u else v)) := by
  rw [hu.1]; exact haltKept_trans hu (haltKept_onEvent _ _ hu.1)

/-! ### The regions of BAR 0 -/

theorem haltKept_mgrRegion (h : s.fc.dstate = .halted) (off w) : haltKept s (mgrRegion off w s) := by
  unfold mgrRegion; dsimp only
  repeat' split
  all_goals first | exact haltKept_mgrReg h .. | exact haltKept_dropWrite h

theorem haltKept_fcRegion (h : s.fc.dstate = .halted) (off w) : haltKept s (fcRegion off w s) := by
  unfold fcRegion; dsimp only
  repeat' split
  all_goals first | exact haltKept_fcReg h .. | exact haltKept_dropWrite h

theorem haltKept_scRegion (h : s.fc.dstate = .halted) (off w) : haltKept s (scRegion off w s) := by
  unfold scRegion
  repeat' split
  all_goals first | exact haltKept_scReg h .. | exact haltKept_dropWrite h

theorem haltKept_mboxRegion (h : s.fc.dstate = .halted) (n o w) : haltKept s (mboxRegion n o w s) := by
  simp only [mboxRegion, pageWrite, h, beq_self_eq_true, Bool.true_or, if_true, ite_self]
  exact haltKept_dropWrite h

theorem haltKept_netPortCfg (h : s.fc.dstate = .halted) (n w) : ∃ t, execNetPortCfg n w s = .next t ∧ haltKept s t :=
  ⟨_, rfl, haltKept_ite (haltKept_dropWrite h) (haltKept_mgrReg h ..)⟩

theorem haltKept_mbDb (h : s.fc.dstate = .halted) (mb l al v) : ∃ t, execMbDb mb l al v s = .next t ∧ haltKept s t :=
  ⟨_, rfl, by simpa only [h, beq_self_eq_true, if_true] using haltKept_count _ _ h⟩

end

/-- One of two commands, each of which keeps what a halted device keeps. -/
theorem haltKept_iteNext {s : State} {p : Prop} [Decidable p] {a b : Host.Outcome State Fault Refusal}
    (ha : ∃ t, a = .next t ∧ haltKept s t) (hb : ∃ t, b = .next t ∧ haltKept s t) :
    ∃ t, (if p then a else b) = .next t ∧ haltKept s t := by
  split
  · exact ha
  · exact hb

theorem haltKept_doorbellPage {s : State} (h : s.fc.dstate = .halted) (sl o w) :
    ∃ t, doorbellPage sl o w s = .next t ∧ haltKept s t := by
  unfold doorbellPage
  refine haltKept_iteNext ⟨_, rfl, haltKept_dbGate h ..⟩ (haltKept_iteNext ⟨_, rfl, haltKept_dbGate h ..⟩
    (haltKept_iteNext ⟨_, rfl, haltKept_dbGate h ..⟩ (haltKept_iteNext ⟨_, rfl, haltKept_dbGate h ..⟩
      (haltKept_iteNext ⟨_, rfl, haltKept_dbGate h ..⟩ ⟨_, rfl, haltKept_dropWrite h⟩))))

/-- A register write is dropped, whichever register it names. -/
theorem haltKept_registerWrite {s : State} (h : s.fc.dstate = .halted) (off w) :
    ∃ t, execRegisterWrite off w s = .next t ∧ haltKept s t := by
  unfold execRegisterWrite
  refine haltKept_iteNext ?_ (haltKept_iteNext (haltKept_doorbellPage h ..) (haltKept_iteNext ?_ (haltKept_iteNext ?_
    (haltKept_iteNext ?_ (haltKept_iteNext ?_ (haltKept_iteNext ?_ ⟨_, rfl, haltKept_dropWrite h⟩))))))
  case refine_1 =>
    iterate 6 refine haltKept_iteNext ⟨_, rfl, haltKept_mgrReg h ..⟩ ?_
    exact haltKept_iteNext (haltKept_netPortCfg h ..) (haltKept_iteNext ⟨_, rfl, haltKept_mgrReg h ..⟩ ⟨_, rfl, haltKept_mgrRegion h ..⟩)
  case refine_2 => exact haltKept_iteNext (haltKept_mbDb h ..) ⟨_, rfl, haltKept_mboxRegion h ..⟩
  case refine_3 => exact haltKept_iteNext ⟨_, rfl, haltKept_fcReg h ..⟩ ⟨_, rfl, haltKept_fcRegion h ..⟩
  case refine_4 =>
    exact haltKept_iteNext ⟨_, rfl, haltKept_scReg h ..⟩ (haltKept_iteNext ⟨_, rfl, haltKept_scReg h ..⟩ ⟨_, rfl, haltKept_scRegion h ..⟩)
  case refine_5 => exact ⟨_, rfl, haltKept_ite (haltKept_heldReg h ..) (haltKept_dropWrite h)⟩
  case refine_6 => exact ⟨_, rfl, haltKept_ite (haltKept_dropWrite h) (haltKept_refl h)⟩

/-! ### Every command -/

/-- Removing VIN, or raising it anew, resets the collector with everything else: the device is NORMAL (R451). -/
theorem exec_vinChanges {c : Instr} {s t : State} (hc : vinChanges c = true) (ht : exec c s = .next t) : t.fc.dstate = .normal := by
  cases c with
  | coldReset | vinLoss => cases ht; rfl
  | _ => cases hc

/-- No other command brings a halted device out of HALTED, touches a queue, a completion or a marker, or sends to a host (R405). -/
theorem exec_halted {s : State} (h : s.fc.dstate = .halted) {c : Instr} (hc : vinChanges c = false) :
    ∃ t, exec c s = .next t ∧ haltKept s t := by
  have hr := running_h h
  have hk := haltKept_refl h
  cases c with
  | coldReset | vinLoss => cases hc
  -- doorbells and registers are dropped
  | ssuSqDb _ | ssuCqDb _ | ssuCqNoticeAck _ | ssuPush _ => exact ⟨_, rfl, haltKept_dbGate h ..⟩
  | xltFringDb _ | xltFringCfg _ | faultResolveRetry _ _ | faultResolveFail _ | netErtUdpPort _ | netTrkRsv _
  | netPfcCfg _ | dlRoute _ => exact ⟨_, rfl, haltKept_mgrReg h ..⟩
  | netPortCfg n w => exact haltKept_netPortCfg h n w
  | fcStatus _ => exact ⟨_, rfl, haltKept_fcReg h ..⟩
  | scClean _ | scInvalidate _ | scCleanInvalidate _ | scMaintAddr _ => exact ⟨_, rfl, haltKept_scReg h ..⟩
  | registerWrite off w => exact haltKept_registerWrite h off w
  | mbDb mb l al v => exact haltKept_mbDb h mb l al v
  -- a mailbox command waits
  | devInfo _ | devPortAddr _ | sliceCreate _ | sliceDestroy _ | sliceSetQuota _ | sliceSetRights _ | sliceQuery _
  | ctxCreate _ | ctxSetPanel _ | ctxQuery _ | ctxDestroy _ | ctxInvalidate _ | ctxLose _ | queueCreate _
  | queueDestroy _ | queueHold _ | queueResume _ | queueQpCreate _ | queueQpInit _ | queueQpConnect _ | queueQpHold _
  | queueQpResume _ | queueQpDestroy _ | queueQpReset _ | queueQpQuery _ | queueCmSend _ | queueCmRecv _ | memRegister _
  | memFree _ | memQuery _ | winRegister _ | winRevoke _ | markerReset _ | markerExport _ | markerImport _
  | markerBind _ | markerUnbind _ | groupCreate _ _ | groupDestroy _ | groupQuery _ | skeinQuery _ | govQuery _
  | govSetEnvelope _ | faultQuery _ | faultRestore _ | faultInject _ _ | secBundleLoad _ _ | secMeasure _
  | dbgCounters _ | dbgTrace _ | dbgState _ => exact ⟨s, runCmd_h h .., hk⟩
  -- no descriptor starts
  | nop _ _ | copy _ _ | fill _ _ | convert _ _ | writeRemote _ _ | readRemote _ _ | send _ _ | atomicFadd _ _
  | atomicCas _ _ | skein _ _ _ _ | collective _ _ | markerSignal _ _ | markerWait _ _ | triggerArm _ _ | invalidate _ _ =>
    exact ⟨s, congrArg done (starting_h h ..), hk⟩
  -- a packet is counted and goes no further
  | write p | rxSend p | readReq p | readResp p | atomic p | atomicResp p | skeinData p | purlData p | purlResult p =>
    exact ⟨_, rfl, haltKept_rowOp h p _ (fun hu => haltKept_rxNew hu p _)⟩
  | hello p | credit p | purlRestart p | purlAbort p =>
    exact ⟨_, rfl, haltKept_rowKind h p _⟩
  | ack p => exact ⟨_, rfl, haltKept_rowOp h p _ (fun hu => by rw [rxAck, rxGate_h hu]; exact haltKept_countUnnamed hu)⟩
  | nak p => exact ⟨_, rfl, haltKept_rowOp h p _ (fun hu => by rw [rxNak, rxGate_h hu]; exact haltKept_countUnnamed hu)⟩
  | grant p => exact ⟨_, rfl, haltKept_rowOp h p _ (fun hu => by rw [rxGrant, rxGate_h hu]; exact haltKept_countUnnamed hu)⟩
  | resume p => exact ⟨_, rfl, haltKept_rowOp h p _ (fun hu => by rw [rxResume, rxGate_h hu]; exact haltKept_countUnnamed hu)⟩
  | rocePacket _ | cnp _ => exact ⟨_, rfl, haltKept_roceGate h ..⟩
  | cmDatagram lp _ _ =>
    refine ⟨_, rfl, ?_⟩
    simp only [running_cu, hr, Bool.not_false, if_true]
    exact haltKept_then (haltKept_count _ _ h) haltKept_countUnnamed
  | rxFrameDiscard lp why => cases why <;> exact ⟨_, rfl, haltKept_count _ _ h⟩
  | pfcFrame lp _ pause =>
    have hu : (count 524 (32 * lp + 1) s).fc.dstate = .halted := h
    refine ⟨_, rfl, haltKept_trans (haltKept_count 524 (32 * lp + 1) h) ?_⟩
    have hq : haltKept (count 524 (32 * lp + 1) s) (if pause then count 523 3 (count 524 (32 * lp + 1) s) else count 524 (32 * lp + 1) s) :=
      haltKept_ite (haltKept_count _ _ hu) (haltKept_refl hu)
    exact haltKept_ite (haltKept_countUnnamed hu) (haltKept_ite (haltKept_count _ _ hu) (haltKept_trans hq (haltKept_updLport _ _ hq.1)))
  -- timers of a QP, and what follows from its work, change nothing
  | deliver n => exact ⟨s, congrArg done (deliverNext_h h n), hk⟩
  | tink n psn => exact ⟨s, congrArg done (doTink_h h n psn), hk⟩
  | rxStalled i => exact ⟨s, congrArg done (rxStall_h h i), hk⟩
  | ackTimer n => exact ⟨s, congrArg done (by simp [ackDue, hr]), hk⟩
  | noProgressTimeout n => exact ⟨s, congrArg done (by simp [noProgress, qpMaySend_h h]), hk⟩
  | sickHoldExpiry n path => exact ⟨s, congrArg done (by simp [holdEnds, hr]), hk⟩
  | retryDelayExpiry n psn => exact ⟨s, congrArg done (by simp [retryNow, qpMaySend_h h]), hk⟩
  | pageHoldTimeout n psn => exact ⟨s, congrArg done (by rw [rocePageHeld_h h, pageHeld_h h, ite_self]), hk⟩
  | grantEngine _ _ => exact ⟨s, congrArg done (by simp [grantRun, hr]), hk⟩
  | roceAckTimeout _ | rnrTimerExpiry _ => exact ⟨s, congrArg done (by simp [roceLive, hr]), hk⟩
  | layerOpen sq idx => exact ⟨s, congrArg done (by simp [skOpen_h h, hr]), hk⟩
  | egressPacketSelect lp refill => exact ⟨_, rfl, haltKept_egressNext lp refill h⟩
  -- a command that asks whether the block runs, or is not halted, changes nothing
  | cqFullTimeout _ | cqDrainDiscard _ | cqWriteRetry _ _ | queueFree _ | contextFree _ | ctxDrainTimeout _
  | moRetired _ | windowFreed _ | grantReclaim _ | dcqcnAlphaTimer _ | dcqcnIncreaseTimer _ _ | qpDrainTimeout _
  | qpFreed _ | helloTimer _ | formationTimeout _ | slotAssign _ | groupFree _ | tfAck _ _ | sidebandHello _ _ _
  | telemetry _ _ | governorLoop _ _ | telemetryStale _ _ | govFallbackBudget | sensorThreshold _ _ | laneFail _ _
  | swatchDone _ _ _ | refclkAbsentTimeout | scrubLine _ _ | wayDisable _ _ | scMaintComplete | sliceFree _
  | sliceDrainTimeout _ | fuseRecheck _ | foundationRestart | foundationReady _ _ _ | imageVerified _ | hooksStarted _
  | castOnReady _ _ _ _ | cxlCacheResponse _ _ _ | backInvalidateResponse _ _ _ =>
    refine ⟨_, rfl, ?_⟩
    simp only [hr, h, Bool.false_and, Bool.and_false, Bool.false_eq_true, if_false, Bool.not_false, Bool.or_true, Bool.true_or, if_true,
      beq_self_eq_true]
    exact hk
  | perstDeassert => exact ⟨_, rfl, haltKept_castOn _ h⟩
  | walkDone _ _ | faultTimeout _ | directLd _ _ _ _ _ | directSt _ _ _ _ | markerSig _ _ _ _ _ _ | bundleLoadDone _ _ _ =>
    exact ⟨s, congrArg done (whenRunning_h h _), hk⟩
  | rspData m txn st d => exact ⟨s, congrArg done (dlAnswer_h h m txn false st d), hk⟩
  | rspAck m txn st => exact ⟨s, congrArg done (dlAnswer_h h m txn true st []), hk⟩
  | hostReadCompletion link tag r => exact ⟨s, congrArg done (hostAnswer_h h link tag r), hk⟩
  | hostReadTimeout link tag => exact ⟨s, congrArg done (hostAnswer_h h link tag .failed), hk⟩
  -- so does one that a module, a native sub-port or a lane would have to be live for
  | badFlit _ | flitNak _ _ | flitAckTimeout _ | moduleRetrainTimeout _ | idleFlit _ _ _ _ _ | moduleLinkLoss _ _
  | nativeDataBlock _ | blockNak _ _ | widthReq _ _ _ | widthAck _ _ _ | laneRetrain _ _ _ | tsEq _ _ _ _ _ _ | tsAlign _ _ _
  | ieeeLinkUp _ _ | subportDown _ | subportUp _ =>
    refine ⟨_, rfl, ?_⟩
    simp only [moduleLive_h h, nativeUp_h h, lpMayRun_h h, h, Bool.false_and, Bool.and_false, Bool.false_eq_true, if_false, Bool.not_false,
      Bool.or_true, Bool.true_or, if_true, bne_self_eq_false, beq_iff_eq]
    exact hk
  | unitResetDone n u => exact ⟨_, rfl, by simpa [h] using hk⟩
  | trainingRetry lp => exact ⟨s, congrArg done (trainStart_h lp h), hk⟩
  | blockAckTimeout lp =>
    refine ⟨_, rfl, ?_⟩
    split
    · exact hk
    · rw [nativeUp_h h]; exact hk
  | idleBlock lp ack => cases ack with
    | none => exact ⟨_, rfl, hk⟩
    | some a => exact ⟨_, rfl, by simpa [nativeUp_h h] using hk⟩
  | ocAlert p _ b => exact ⟨_, rfl, by rw [fastPath_h h, ite_self]; exact hk⟩
  | vinOvercurrent b => exact ⟨s, congrArg done (fastPath_h h b), hk⟩
  -- so does one that would go on with a descriptor, a trigger, an operation or a ring read
  | descriptorFetch _ _ | rowReread _ _ _ =>
    refine ⟨_, rfl, ?_⟩
    split
    · simp only [hr, Bool.not_false, if_true]; exact hk
    · exact hk
  | invalidateDrained sq idx | triggerFire sq idx =>
    refine ⟨_, rfl, ?_⟩
    split
    · exact hk
    · simp only [hr, Bool.and_false, Bool.false_and, Bool.not_false, Bool.or_true, if_true, if_false, Bool.false_eq_true]; exact hk
  | operationComplete sq idx =>
    refine ⟨_, rfl, ?_⟩
    simp only [hr, Bool.false_and, Bool.false_eq_true, if_false]
    split
    · exact hk
    · simp only [Bool.not_false, Bool.or_true, Bool.true_or, if_true]; exact hk
  | firmwareErrorBinding =>
    refine ⟨_, rfl, ?_⟩
    split
    · exact hk
    · simp only [hr, Bool.not_false, if_true]; exact hk
  | grantResend i =>
    refine ⟨_, rfl, ?_⟩
    split
    · simp only [hr, Bool.and_false, Bool.false_eq_true, if_false]; exact hk
    · exact hk
  | progressTimeout g seq =>
    refine ⟨_, rfl, ?_⟩
    split
    · simp only [hr, Bool.and_false, Bool.false_eq_true, if_false]; exact hk
    · exact hk
  | tfViolation p tag dpa =>
    refine ⟨_, rfl, haltKept_trans (haltKept_count 526 (64 * (6 * p) + 5) h) ?_⟩
    have hu : (count 526 (64 * (6 * p) + 5) s).fc.dstate = .halted := h
    simp only [hu, beq_self_eq_true, if_true]
    exact haltKept_refl hu
  -- a host's requests are answered Completer Abort, its snoops from the cache, its link comes and goes
  | bar2Read _ _ | bar2Write _ _ _ => exact ⟨_, rfl, haltKept_barGate h ..⟩
  | bar2Atomic r op x y =>
    refine ⟨_, rfl, ?_⟩
    split
    · exact haltKept_barRefuse h ..
    · exact haltKept_barGate h ..
  | cxlMemRead _ _ _ _ | cxlMemWrite _ _ _ _ =>
    refine ⟨_, rfl, ?_⟩
    simp only [h, beq_self_eq_true, if_true]
    exact haltKept_emit _ rfl h
  | hostSnoop link tag line kind =>
    refine ⟨_, rfl, ?_⟩
    split
    · exact haltKept_emit _ rfl h
    · cases kind <;> exact haltKept_then hk (haltKept_emit _ rfl)
  | linkReset link kind => cases kind with
    | perst => exact ⟨_, rfl, haltKept_perst h⟩
    | hotReset | linkDisable | flr => exact ⟨_, rfl, haltKept_resetLink _ _ h⟩
  | linkLossTimeout link => exact ⟨_, rfl, haltKept_ite (haltKept_resetLink _ _ h) hk⟩
  | dataLinkLayerLoss link => exact ⟨_, rfl, haltKept_updLink _ _ h⟩
  | dataLinkLayerUp link _ _ _ _ _ =>
    exact ⟨_, rfl, haltKept_ite hk (haltKept_then (haltKept_updLink _ _ h) (haltKept_releaseLink _))⟩
  | powerStateChange link d3 => exact ⟨_, rfl, haltKept_then (haltKept_updLink _ _ h) (haltKept_releaseLink _)⟩
  | configurationRequest link a =>
    refine ⟨_, rfl, haltKept_ite hk ?_⟩
    cases a with
    | read off => exact haltKept_emit _ rfl h
    | fnMask m => exact haltKept_then (haltKept_updLink _ _ h) (haltKept_releaseMsix _)
    | bar2Size k | maxPayload k | maxRead k => exact haltKept_ite (haltKept_updLink _ _ h) hk
    | cplTimeout _ _ | atomicEnable _ | hdmBase _ => exact haltKept_updLink _ _ h
    | other _ => exact hk
  -- the collector takes an event without its reactions, and no re-init goes on
  | faultEvent f =>
    have hs := haltKept_updSrc f.source (fun c => { c with causeActive := f.causeActive }) h
    refine ⟨_, rfl, haltKept_onEventUnlost (haltKept_trans hs ?_) _ _ _⟩
    exact haltKept_ite (haltKept_scErr hs.1 _ _) (haltKept_refl hs.1)
  | escalationTimer n two =>
    refine ⟨_, rfl, haltKept_ite hk ?_⟩
    have hu := haltKept_updFc (fun c => { c with timers := c.timers.filter (· ≠ n) }) (fun _ => rfl) h
    simpa only [hu.1, beq_self_eq_true, Bool.or_true, if_true] using hu
  | reinitQuiesce | reinitReset _ _ | reinitVerify _ _ | reinitRestart _ _ _ | reinitResume =>
    refine ⟨_, rfl, ?_⟩
    simp only [reinitAt_h h, Bool.not_false, Bool.true_or, if_true, Bool.false_eq_true, if_false]
    exact hk
  -- Foundation answers, and an image may still come in
  | getVersion t | getCapabilities t | negotiateAlgorithms t _ =>
    exact haltKept_spdmNeeds (f := fun s => spdmReply t _ _ (spdmSet t _ s)) h t _
      (haltKept_then (haltKept_spdmSet h t _) (fun hu => haltKept_spdmReply hu t _ _))
  | getDigests t | getCertificate t _ _ _ | challenge t _ _ | getMeasurements t _ _ _ =>
    exact haltKept_spdmNeeds h t _ (haltKept_spdmReply h t _ _)
  | dbgNonce t =>
    refine ⟨_, rfl, haltKept_ite hk ?_⟩
    have hd : haltKept s (drawFree s).2 := hk
    exact haltKept_then (haltKept_trans hd (haltKept_updFnd _ hd.1)) (haltKept_emit _ rfl)
  | dbgUnlock t level pub sig expired =>
    refine ⟨_, rfl, haltKept_ite hk (haltKept_then ?_ (haltKept_emit _ rfl))⟩
    have hu := haltKept_updFnd (fun f => { f with nonce := none }) h
    exact haltKept_trans hu (haltKept_ite (haltKept_debugRaise _ hu.1) (haltKept_refl hu.1))
  | railsInTolerance g ball =>
    refine ⟨_, rfl, haltKept_ite hk ?_⟩
    have hu := haltKept_updCo (fun c => { c with rails := g }) h
    exact haltKept_trans hu (haltKept_ite (haltKept_refl hu.1) (haltKept_refl hu.1))
  | refclkMeasured ssc =>
    refine ⟨_, rfl, haltKept_ite hk ?_⟩
    have hu := haltKept_updCo (fun c => { c with measured := true, ssc := ssc }) h
    exact haltKept_trans hu (haltKept_ite (haltKept_then (haltKept_allPortsDown hu.1) (haltKept_ucReport _ _ _ _)) (haltKept_refl hu.1))
  | bar4ImageWrite off d => exact ⟨_, rfl, haltKept_ite (haltKept_bar4Drop h) (haltKept_deliverBytes _ _ _ h)⟩
  | go n => exact ⟨_, rfl, haltKept_then (haltKept_updCo _ h) (haltKept_goVerify _ _)⟩
  | abort => exact ⟨_, rfl, haltKept_ite (haltKept_endClaim _ h) hk⟩
  | imgWrite off d =>
    exact ⟨_, rfl, haltKept_ite (haltKept_imgReply _ _ _ h) (haltKept_ite (haltKept_imgReply _ _ _ h)
      (haltKept_then (haltKept_deliverBytes _ _ _ h) (haltKept_imgReply _ _ _)))⟩
  | imgGo n => exact ⟨_, rfl, haltKept_ite (haltKept_imgReply _ _ _ h) (haltKept_then (haltKept_goVerify _ _ h) (haltKept_imgReply _ _ _))⟩
  | imgStatus => exact ⟨_, rfl, haltKept_imgReply _ _ _ h⟩
  | imgAbort =>
    exact ⟨_, rfl, haltKept_ite (haltKept_imgReply _ _ _ h) (haltKept_then (haltKept_ite (haltKept_endClaim _ h) hk) (haltKept_imgReply _ _ _))⟩
  | bootReqTimer => exact ⟨_, rfl, haltKept_ite (haltKept_sendBoot h _ _ _) hk⟩
  | bootData off total d =>
    refine ⟨_, rfl, haltKept_ite hk (haltKept_ite (haltKept_countUnnamed h) (haltKept_ite ?_
      (haltKept_ite (haltKept_sendBoot h _ _ _) hk)))⟩
    have hd := haltKept_then (haltKept_deliverBytes .native off d h)
      (haltKept_updCo (fun c => { c with total := some total, held := off + d.length }))
    exact haltKept_trans hd (haltKept_ite (haltKept_goVerify _ _ hd.1) (haltKept_refl hd.1))
  | claimTimeout => exact ⟨_, rfl, haltKept_ite (haltKept_endClaim _ h) hk⟩

/-- Settles O54: a step takes the command at the front, and `exec_halted` or `exec_vinChanges` says what that command does. -/
theorem haltedEndsOnlyWithVin : Obligations.HaltedEndsOnlyWithVin := by
  refine ⟨fun s t h ht => ?_, fun s t c rest hp hc ht => ?_⟩
  · cases hp : s.pending with
    | nil =>
      rw [step, hp] at ht
      cases ht
      exact .inr (haltKept_refl h)
    | cons c rest =>
      rw [step, hp] at ht
      by_cases hc : vinChanges c = true
      · exact .inl ⟨c, rest, rfl, hc⟩
      · obtain ⟨u, hu, hkept⟩ := exec_halted (s := { s with pending := rest }) h (Bool.eq_false_iff.2 hc)
        cases hu.symm.trans ht
        exact .inr hkept
  · rw [step, hp] at ht
    exact exec_vinChanges hc ht

end Sys2Proof.Machine
end

section
/-! Bytes and numbers (00 R3, R4), and the ERT header (05 R152). -/

namespace Sys2Proof.Machine

@[simp] theorem leBytes_length (n v : Nat) : (leBytes n v).length = n := by
  induction n generalizing v with
  | zero => rfl
  | succ n ih => rw [leBytes, List.length_cons, ih]

@[simp] theorem beBytes_length (n v : Nat) : (beBytes n v).length = n := by simp [beBytes]

/-- The low `n` bytes of a number hold what is below 2^(8 n) of it. -/
theorem ofLe_leBytes (n v : Nat) : ofLe (leBytes n v) = v % 2 ^ (8 * n) := by
  induction n generalizing v with
  | zero => simp [leBytes, ofLe, Nat.mod_one]
  | succ n ih =>
    rw [leBytes, ofLe, ih, BitVec.toNat_ofNat, show 2 ^ (8 * (n + 1)) = 2 ^ 8 * 2 ^ (8 * n) by rw [← pow_add]; ring_nf,
      Nat.mod_mul]
    rfl

/-- A number written most significant byte first reads back, where it fits. -/
theorem ofLe_reverse_beBytes {n v : Nat} (h : v < 2 ^ (8 * n)) : ofLe (beBytes n v).reverse = v := by
  rw [beBytes, List.reverse_reverse, ofLe_leBytes, Nat.mod_eq_of_lt h]

/-- The header's fields, each at its own width, one after the other. -/
theorem extractLsb'_ertBits (h : ErtHdr) (start len : Nat) :
    (ertBits h).extractLsb' start len = BitVec.extractLsb' (n := 4 + 4 + 8 + 6 + 8 + 1 + 1 + 32 + 24 + 17 + 7 + 48 + 32 + 32 + 32) start len
      (h.ver ++ h.op ++ h.tc ++ h.path ++ h.flags ++ BitVec.ofBool h.poison ++ 0#1 ++ h.psn ++ h.msgId ++ h.dstQpn ++ 0#7 ++
        h.offsetLen ++ h.window ++ h.imm ++ h.stamp) := rfl

/-- Each field of the header lies where it is read (R152). -/
theorem ertParse_ertBits (h : ErtHdr) : ertParse (ertBits h) = h := by
  simp (disch := decide) only [ertParse, BitVec.getLsbD_eq_extractLsb', extractLsb'_ertBits, BitVec.extractLsb'_append_eq_of_add_le,
    BitVec.extractLsb'_append_eq_of_le, -Nat.reduceAdd]
  simp only [Nat.reduceSub, BitVec.extractLsb'_eq_self]
  cases h with | _ _ _ _ _ _ poison => cases poison <;> rfl

/-- Settles O55: the 32 bytes hold the header's 256 bits, and each field lies where it is read. -/
theorem ertHeaderRoundTrip : Obligations.ErtHeaderRoundTrip := by
  intro h
  refine ⟨beBytes_length .., ?_, ?_, fun i hlo hhi => ?_⟩
  · rw [ertHeaderBytes, ofLe_reverse_beBytes (ertBits h).isLt, BitVec.ofNat_toNat, BitVec.setWidth_eq, ertParse_ertBits]
  · simp (disch := decide) only [BitVec.getLsbD_eq_extractLsb', extractLsb'_ertBits, BitVec.extractLsb'_append_eq_of_add_le,
      BitVec.extractLsb'_append_eq_of_le, -Nat.reduceAdd]
    decide
  · simp (disch := omega) only [BitVec.getLsbD_eq_extractLsb', extractLsb'_ertBits, BitVec.extractLsb'_append_eq_of_add_le,
      BitVec.extractLsb'_append_eq_of_le, -Nat.reduceAdd]
    simp

end Sys2Proof.Machine
end

section
/-! Long rows (09 R267): exact sums, and the order of the contributions. -/

namespace Sys2Proof.Machine

/-! ### Sums -/

/-- A number of 319 bits and a sign is held exactly. -/
theorem toInt_ofInt_320 {u : Int} (h : u.natAbs < 2 ^ 319) : (BitVec.ofInt 320 u).toInt = u :=
  BitVec.toInt_ofInt_eq_self (by decide) (by omega) (by omega)

/-- A finite contribution to a sum is added. -/
theorem LongRow.fold_zero_v {x : Num} (hx : x.finite = true) (r : LongRow) : (r.fold 0 x).v = r.v + BitVec.ofInt 320 x.units := by
  cases x with
  | fin neg num den => rfl
  | nan | inf => cases hx

/-- The sum of a row, modulo 2^320. -/
theorem LongRow.foldl_zero_v {xs : List Num} (hxs : ∀ x ∈ xs, x.finite = true) (r : LongRow) :
    (xs.foldl (LongRow.fold 0) r).v = r.v + BitVec.ofInt 320 (xs.map Num.units).sum := by
  induction xs generalizing r with
  | nil => simp
  | cons x xs ih =>
    obtain ⟨hx, hxs⟩ := List.forall_mem_cons.1 hxs
    rw [List.foldl_cons, ih hxs, LongRow.fold_zero_v hx, List.map_cons, List.sum_cons, BitVec.ofInt_add, BitVec.add_assoc]

theorem natAbs_sum_le (xs : List Num) : (xs.map Num.units).sum.natAbs ≤ (xs.map (fun x => x.units.natAbs)).sum := by
  induction xs with
  | nil => rfl
  | cons x xs ih => simp only [List.map_cons, List.sum_cons]; omega

/-! ### Any two contributions commute -/

/-- Where a finite value stands among those that MAX keeps the greatest of, or MIN the least: -0 lies just below +0 (R267). -/
def LongRow.rank (red : Nat) (u : Int) (z : Bool) : Int := (if red = 1 then 1 else -1) * (2 * u - b2n z)

theorem LongRow.rank_inj {red : Nat} {u v : Int} {y z : Bool} (h : rank red u y = rank red v z) : u = v ∧ y = z := by
  cases y <;> cases z <;> simp only [rank, b2n] at h <;> split at h <;> grind

/-- The row with a finite value in the place of the one it holds. -/
def LongRow.keep (r : LongRow) (u : Int) (z : Bool) : LongRow := { r with v := BitVec.ofInt 320 u, any := true, allNeg0 := z }

/-- The row with the better of what it holds and a finite value. -/
def LongRow.best (red : Nat) (r : LongRow) (u : Int) (z : Bool) : LongRow :=
  if r.any = true → rank red r.v.toInt r.allNeg0 < rank red u z then r.keep u z else r

theorem LongRow.best_of_lt {red : Nat} {r : LongRow} {u : Int} {z : Bool}
    (h : r.any = true → rank red r.v.toInt r.allNeg0 < rank red u z) : r.best red u z = r.keep u z := if_pos h

theorem LongRow.best_of_not_lt {red : Nat} {r : LongRow} {u : Int} {z : Bool}
    (h : ¬(r.any = true → rank red r.v.toInt r.allNeg0 < rank red u z)) : r.best red u z = r := if_neg h

/-- A NaN. -/
def Num.isNan : Num → Bool
  | .nan _ => true
  | _ => false

/-- An infinity of a sign. -/
def Num.isInf (neg : Bool) : Num → Bool
  | .inf s => s == neg
  | _ => false

/-- A value of -0. -/
def Num.isNegZero : Num → Bool
  | .fin neg num _ => neg && num == 0
  | _ => false

/-- MAX and MIN keep the better of what the row holds and a finite contribution. -/
theorem LongRow.fold_finite_of_extreme {red : Nat} (hred : red = 1 ∨ red = 2) (r : LongRow) {x : Num} (hx : x.finite = true) :
    r.fold red x = r.best red x.units x.isNegZero := by
  cases x with
  | nan | inf => cases hx
  | fin neg num den =>
    simp only [LongRow.fold, hred, if_true, LongRow.best, LongRow.keep, Num.units, Num.isNegZero]
    congr 1
    cases r.any <;> cases r.allNeg0 <;> cases (neg && num == 0) <;> simp [rank, b2n] <;> split <;> grind

/-- The best of three does not depend on the order in which two of them come. -/
theorem LongRow.best_comm (red : Nat) (r : LongRow) {u v : Int} (hu : u.natAbs < 2 ^ 319) (hv : v.natAbs < 2 ^ 319) (y z : Bool) :
    (r.best red u y).best red v z = (r.best red v z).best red u y := by
  have hbest : ∀ {u v : Int}, u.natAbs < 2 ^ 319 → ∀ y z : Bool,
      (r.keep u y).best red v z = if rank red u y < rank red v z then r.keep v z else r.keep u y := fun hu y z => by
    simp [best, keep, toInt_ofInt_320 hu]
  have heq : rank red u y = rank red v z → r.keep u y = r.keep v z := fun h => by
    obtain ⟨rfl, rfl⟩ := rank_inj h; rfl
  by_cases h1 : r.any = true → rank red r.v.toInt r.allNeg0 < rank red u y <;>
    by_cases h2 : r.any = true → rank red r.v.toInt r.allNeg0 < rank red v z
  · rw [best_of_lt h1, best_of_lt h2, hbest hu, hbest hv]
    rcases lt_trichotomy (rank red u y) (rank red v z) with h | h | h
    · rw [if_pos h, if_neg h.asymm]
    · rw [if_neg h.not_lt, if_neg h.not_gt, heq h]
    · rw [if_neg h.asymm, if_pos h]
  · rw [best_of_lt h1, best_of_not_lt h2, best_of_lt h1, hbest hu]
    exact if_neg (by grind)
  · rw [best_of_not_lt h1, best_of_lt h2, hbest hv]
    exact (if_neg (by grind)).symm
  · rw [best_of_not_lt h1, best_of_not_lt h2, best_of_not_lt h1]

/-- The row told of a NaN or an infinity. -/
def LongRow.flag (r : LongRow) (x : Num) : LongRow :=
  { r with nan := r.nan || x.isNan, pinf := r.pinf || x.isInf false, ninf := r.ninf || x.isInf true }

/-- A sum takes every contribution into each field of the row by an operation of that field alone. -/
theorem LongRow.fold_of_sum {red : Nat} (hred : ¬(red = 1 ∨ red = 2)) (r : LongRow) (x : Num) :
    r.fold red x = { r.flag x with v := r.v + BitVec.ofInt 320 x.units, allNeg0 := r.allNeg0 && x.isNegZero, any := r.any || x.finite } := by
  cases x with
  | nan _ => simp [LongRow.fold, hred, flag, Num.units, Num.isNan, Num.isInf, Num.isNegZero, Num.finite]
  | inf neg => cases neg <;> simp [LongRow.fold, hred, flag, Num.units, Num.isNan, Num.isInf, Num.isNegZero, Num.finite]
  | fin _ _ _ => simp [LongRow.fold, hred, flag, Num.units, Num.isNan, Num.isInf, Num.isNegZero, Num.finite]

/-- MAX and MIN take a NaN or an infinity into the flags. -/
theorem LongRow.fold_not_finite_of_extreme {red : Nat} (hred : red = 1 ∨ red = 2) (r : LongRow) {x : Num} (hx : x.finite = false) :
    r.fold red x = r.flag x := by
  cases x with
  | nan _ => simp [LongRow.fold, hred, flag, Num.isNan, Num.isInf]
  | inf neg => cases neg <;> simp [LongRow.fold, hred, flag, Num.isNan, Num.isInf]
  | fin _ _ _ => cases hx

theorem LongRow.flag_comm (r : LongRow) (x y : Num) : (r.flag x).flag y = (r.flag y).flag x := by
  simp only [flag, Bool.or_right_comm]

/-- The flags are not what MAX and MIN compare. -/
theorem LongRow.best_flag (red : Nat) (r : LongRow) (u : Int) (z : Bool) (x : Num) :
    (r.best red u z).flag x = (r.flag x).best red u z := apply_ite (LongRow.flag · x) ..

theorem LongRow.fold_comm (red : Nat) (r : LongRow) {x y : Num} (hx : x.units.natAbs < 2 ^ 319) (hy : y.units.natAbs < 2 ^ 319) :
    (r.fold red x).fold red y = (r.fold red y).fold red x := by
  by_cases hred : red = 1 ∨ red = 2
  case neg =>
    simp only [fold_of_sum hred, flag, add_right_comm _ (BitVec.ofInt 320 x.units), Bool.or_right_comm, Bool.and_right_comm]
  cases hfx : x.finite <;> cases hfy : y.finite
  · simp only [fold_not_finite_of_extreme hred, hfx, hfy, flag_comm]
  · simp only [fold_not_finite_of_extreme hred, fold_finite_of_extreme hred, hfx, hfy, best_flag]
  · simp only [fold_not_finite_of_extreme hred, fold_finite_of_extreme hred, hfx, hfy, best_flag]
  · simpa only [fold_finite_of_extreme hred, hfx, hfy] using best_comm red r hx hy _ _

/-- Settles O56: a sum is the contributions' sum modulo 2^320, and any two contributions commute. -/
theorem longRowsAreExactAndOrderFree : Obligations.LongRowsAreExactAndOrderFree := by
  refine ⟨fun xs hfin hsum => ?_, fun red r xs ys hperm hxs => ?_⟩
  · rw [LongRow.foldl_zero_v hfin]
    exact (congrArg _ (BitVec.zero_add _)).trans (toInt_ofInt_320 ((natAbs_sum_le xs).trans_lt hsum))
  · exact hperm.foldl_eq' (fun x hx y hy r => LongRow.fold_comm red r (hxs x hx) (hxs y hy)) r

end Sys2Proof.Machine
end

section
/-! Markers (02 R48-R51): the greatest signal, the first error, and the record's bytes. -/

namespace Sys2Proof.Machine

/-! ### What a signal and an error do to STATUS (R49, R51) -/

@[simp] theorem Marker.setFlag_code (m : Marker) (i : Nat) : (m.setFlag i).code = m.code := rfl
@[simp] theorem Marker.setFlag_detail (m : Marker) (i : Nat) : (m.setFlag i).detail = m.detail := rfl
@[simp] theorem Marker.setFlag_status (m : Marker) (i : Nat) : (m.setFlag i).status = m.status := rfl

@[simp] theorem Marker.late_code (m : Marker) : m.late.code = m.code := by
  simp only [Marker.late, apply_ite Marker.code, Marker.setFlag_code, ite_self]

@[simp] theorem Marker.late_detail (m : Marker) : m.late.detail = m.detail := by
  simp only [Marker.late, apply_ite Marker.detail, Marker.setFlag_detail, ite_self]

/-- A signal gives CODE RANGE where it is not legal and the record good (R51); else CODE stays. -/
theorem signalRecord_code (m : Marker) (v : Word) :
    (signalRecord m v).2.code = if v[63] = true ∧ m.status = 0 then BitVec.ofNat 16 meRange else m.code := by
  cases hv : v[63] with
  | true => by_cases hst : m.status = 0 <;> simp [signalRecord, hv, hst]
  | false => simp [signalRecord, hv, apply_ite Prod.snd, apply_ite Marker.code]

/-- A signal leaves DETAIL. -/
@[simp] theorem signalRecord_detail (m : Marker) (v : Word) : (signalRecord m v).2.detail = m.detail := by
  cases hv : v[63] with
  | true => by_cases hst : m.status = 0 <;> simp [signalRecord, hv, hst]
  | false => simp [signalRecord, hv, apply_ite Prod.snd, apply_ite Marker.detail]

/-- A legal signal leaves STATUS, and any signal leaves one that is not 0. -/
theorem signalRecord_status {m : Marker} {v : Word} (h : legalSignal v ∨ m.status ≠ 0) : (signalRecord m v).2.status = m.status := by
  rw [Marker.status, signalRecord_detail, signalRecord_code, if_neg, Marker.status]
  rintro ⟨hv, hst⟩
  have := (getElem_63_eq_false_iff v).2 (h.resolve_right (not_not.2 hst))
  simp_all

/-- An error leaves a record that has one (R49). -/
theorem errorRecord_of_status_ne {m : Marker} (h : m.status ≠ 0) (c d : Nat) : errorRecord m c d = m := if_neg h

/-- VALUE becomes the greater of itself and a legal signal on a good record (R51). -/
theorem signalRecord_value_of_legal {m : Marker} {v : Word} (hst : m.status = 0) (hv : legalSignal v) :
    (signalRecord m v).2.value.toNat = max m.value.toNat v.toNat := by
  rw [signalRecord_value]
  by_cases hlt : m.value.toNat < v.toNat
  · rw [if_pos ⟨(getElem_63_eq_false_iff v).2 hv, hst, hlt⟩, max_eq_right hlt.le]
  · rw [if_neg (fun h => hlt h.2.2), max_eq_left (not_lt.1 hlt)]

/-- Legal signals on a good record leave the greatest of them and of its VALUE, and no error. -/
theorem signals_of_legal {m : Marker} {vs : List Word} (hst : m.status = 0) (hvs : ∀ v ∈ vs, legalSignal v) :
    (signals m vs).value.toNat = (vs.map BitVec.toNat).foldl max m.value.toNat ∧ (signals m vs).status = 0 := by
  induction vs generalizing m with
  | nil => exact ⟨rfl, hst⟩
  | cons v vs ih =>
    obtain ⟨hv, hvs⟩ := List.forall_mem_cons.1 hvs
    rw [List.map_cons, List.foldl_cons, ← signalRecord_value_of_legal hst hv]
    exact ih ((signalRecord_status (.inl hv)).trans hst) hvs

/-- Once STATUS is not 0, VALUE, CODE and DETAIL stand (R49). -/
theorem signals_of_status_ne {m : Marker} (hst : m.status ≠ 0) (vs : List Word) :
    (signals m vs).value = m.value ∧ (signals m vs).code = m.code ∧ (signals m vs).detail = m.detail := by
  induction vs generalizing m with
  | nil => exact ⟨rfl, rfl, rfl⟩
  | cons v vs ih =>
    obtain ⟨hv, hc, hd⟩ := ih (m := (signalRecord m v).2) (by rwa [signalRecord_status (.inr hst)])
    refine ⟨hv.trans ?_, hc.trans ?_, hd.trans (signalRecord_detail m v)⟩
    · rw [signalRecord_value, if_neg (fun h => hst h.2.1)]
    · rw [signalRecord_code, if_neg (fun h => hst h.2)]

/-- A signal at or above 2^63 is rejected with RANGE and FLAGS[1] (R51). -/
theorem signalRecord_of_not_legal {m : Marker} {v : Word} (hst : m.status = 0) (hv : ¬legalSignal v) :
    (signalRecord m v).1 = .rejected ∧ (signalRecord m v).2.value = m.value ∧ (signalRecord m v).2.code = 9 ∧
      (signalRecord m v).2.flags.getLsbD 1 = true := by
  have hb : v[63] = true := by
    by_contra h
    exact hv ((getElem_63_eq_false_iff v).1 (Bool.eq_false_iff.2 h))
  refine ⟨?_, ?_, ?_, ?_⟩
  · simp [signalRecord, hb]
  · rw [signalRecord_value, if_neg (by simp [hb])]
  · rw [signalRecord_code, if_pos ⟨hb, hst⟩]; rfl
  · have h1 : (m.setFlag 1).flags.getLsbD 1 = true := by simp [Marker.setFlag]
    have hg : v.getLsbD 63 = true := hb
    rw [signalRecord, if_pos hg]
    dsimp only
    split <;> exact h1

/-! ### The record's bytes (R48) -/

theorem ofLe_append (a b : List Byte) : ofLe (a ++ b) = ofLe a + 256 ^ a.length * ofLe b := by
  induction a with
  | nil => simp [ofLe]
  | cons x a ih => rw [List.cons_append, ofLe, ofLe, ih, List.length_cons, pow_succ]; ring

/-- A piece of bytes is read at its place. -/
theorem leAt_append {a b : List Byte} (c : List Byte) {off n : Nat} (ha : a.length = off) (hb : b.length = n) :
    leAt (a ++ b ++ c) off n = ofLe b := by
  subst ha hb
  simp [leAt, slice, zeros]

/-- VALUE, STATUS, OOO_COUNT and FLAGS lie at bytes 0, 8, 12 and 14 of the 16. -/
theorem Marker.bytes_fields (m : Marker) :
    m.bytes.length = 16 ∧ leAt m.bytes 0 8 = m.value.toNat ∧ leAt m.bytes 8 4 = m.status ∧ leAt m.bytes 12 2 = m.ooo.toNat ∧
      leAt m.bytes 14 2 = m.flags.toNat := by
  have hv : ofLe (leBytes 8 m.value.toNat) = m.value.toNat := (ofLe_leBytes ..).trans (Nat.mod_eq_of_lt m.value.isLt)
  have h16 : ∀ x : BitVec 16, ofLe (leBytes 2 x.toNat) = x.toNat := fun x => (ofLe_leBytes ..).trans (Nat.mod_eq_of_lt x.isLt)
  let v := leBytes 8 m.value.toNat
  let st := leBytes 2 m.code.toNat ++ leBytes 2 m.detail.toNat
  let ooo := leBytes 2 m.ooo.toNat
  let fl := leBytes 2 m.flags.toNat
  have hb : m.bytes = v ++ st ++ ooo ++ fl := by simp [v, st, ooo, fl, Marker.bytes]
  refine ⟨by simp [Marker.bytes], ?_, ?_, ?_, ?_⟩
  · rw [hb, show v ++ st ++ ooo ++ fl = [] ++ v ++ (st ++ ooo ++ fl) by simp, leAt_append _ (by rfl) (leBytes_length ..), hv]
  · rw [hb, List.append_assoc (v ++ st), leAt_append _ (leBytes_length ..) (by simp [st]), ofLe_append, h16, h16, leBytes_length, Marker.status]
    ring
  · rw [hb, leAt_append _ (by simp [v, st]) (leBytes_length ..), h16]
  · rw [hb, ← List.append_nil (v ++ st ++ ooo ++ fl), leAt_append _ (by simp [v, st, ooo]) (leBytes_length ..), h16]

/-- Settles O57: a legal signal takes VALUE to the greater of the two, and STATUS, once set, shuts both VALUE and itself. -/
theorem markersTakeTheGreatestSignal : Obligations.MarkersTakeTheGreatestSignal := by
  refine ⟨fun m vs => signals_of_legal, fun m vs ws hst hvs hperm => ?_, fun m vs c d hst => ?_, fun m v => signalRecord_of_not_legal,
    Marker.bytes_fields⟩
  · have hws : ∀ v ∈ ws, legalSignal v := fun v hv => hvs v (hperm.mem_iff.2 hv)
    apply BitVec.eq_of_toNat_eq
    rw [(signals_of_legal hst hvs).1, (signals_of_legal hst hws).1]
    exact (hperm.map _).foldl_op_eq
  · obtain ⟨hv, hc, hd⟩ := signals_of_status_ne hst vs
    exact ⟨hv, hc, hd, errorRecord_of_status_ne hst c d⟩

end Sys2Proof.Machine
end

section
/-! Work extents (03 R93). -/

namespace Sys2Proof.Machine

theorem le_ceilDiv_mul {b : Nat} (hb : 0 < b) (a : Nat) : a ≤ ceilDiv a b * b := by
  have := Nat.lt_div_mul_add hb (a := a + b - 1)
  rw [ceilDiv]; omega

theorem mul_lt_of_lt_ceilDiv {a b i : Nat} (hi : i < ceilDiv a b) (hb : 0 < b) : i * b < a := by
  have h := (Nat.le_div_iff_mul_le hb).1 hi
  rw [Nat.succ_mul] at h
  omega

theorem ceilDiv_le_of_le_mul {a b k : Nat} (hb : 0 < b) (h : a ≤ k * b) : ceilDiv a b ≤ k := by
  rw [ceilDiv, ← Nat.lt_succ_iff, Nat.div_lt_iff_lt_mul hb, Nat.succ_mul]
  omega

theorem extentSize_pos (len : Nat) : 0 < extentSize len := lt_of_lt_of_le (by decide) (le_max_left ..)

/-- Sixteen extents hold the operation. -/
theorem le_sixteen_mul_extentSize (len : Nat) : len ≤ 16 * extentSize len := by
  have h1 := le_ceilDiv_mul (b := 16) (by decide) len
  have h2 := le_ceilDiv_mul (b := 4096) (by decide) (ceilDiv len 16)
  have h3 : roundUp (ceilDiv len 16) 4096 ≤ extentSize len := le_max_right ..
  rw [roundUp] at h3
  omega

/-- A divided operation's extents, one after another. -/
theorem Op.splits_of_divided {o : Op} (h : o.opcode = 0x01 ∨ o.opcode = 0x02 ∨ o.opcode = 0x03 ∨ o.opcode = 0x10 ∨ o.opcode = 0x11) :
    o.splits = (List.range (max 1 (ceilDiv o.length (extentSize o.length)))).map
      (fun i => { off := i * extentSize o.length, len := min (extentSize o.length) (o.length - i * extentSize o.length) }) := by
  have hk : o.kind = .write ∨ o.kind = .read ∨ o.kind = .local_ := by
    rcases h with h | h | h | h | h <;> simp only [Op.kind, h] <;> grind
  rcases hk with hk | hk | hk <;> simp only [Op.splits, hk]

/-- The first `k` runs of `e` bytes of `len` bytes hold the lesser of `k e` and `len`. -/
theorem sum_runs (e len k : Nat) : ((List.range k).map (fun i => min e (len - i * e))).sum = min (k * e) len := by
  induction k with
  | zero => simp
  | succ k ih => rw [List.range_succ, List.map_append, List.sum_append, ih, List.map_singleton, List.sum_singleton, Nat.succ_mul]; omega

/-- Extent `i` ends at the next extent's start, or at the operation's end. -/
theorem run_end {e len i : Nat} (he : 0 < e) (hi : i < max 1 (ceilDiv len e)) :
    i * e + min e (len - i * e) = min ((i + 1) * e) len := by
  have hle : i * e ≤ len := by
    rcases lt_max_iff.1 hi with h | h
    · simp [Nat.lt_one_iff.1 h]
    · exact (mul_lt_of_lt_ceilDiv h he).le
  rw [Nat.succ_mul]; omega

/-- Settles O60: extent i ends where extent i + 1 begins, and 16 of them reach past the end. -/
theorem extentsCoverTheOperation : Obligations.ExtentsCoverTheOperation := by
  refine ⟨fun o ho => ?_, fun o ho => ?_⟩
  · have he := extentSize_pos o.length
    have hcount := ceilDiv_le_of_le_mul he (le_sixteen_mul_extentSize o.length)
    have hcover := le_ceilDiv_mul he o.length
    rw [Op.splits_of_divided ho]
    show _ = max 1 (ceilDiv o.length (extentSize o.length)) ∧ _
    refine ⟨by simp, by simpa using hcount, fun i x hx => ?_, ?_, fun hsmall => ?_⟩
    · rw [List.getElem?_map, Option.map_eq_some_iff] at hx
      obtain ⟨j, hj, rfl⟩ := hx
      obtain ⟨hlt, rfl⟩ := List.getElem?_eq_some_iff.1 hj
      rw [List.length_range] at hlt
      simp only [List.getElem_range]
      exact ⟨rfl, run_end he hlt⟩
    · rw [List.map_map]
      refine (sum_runs _ _ _).trans (min_eq_right (hcover.trans (Nat.mul_le_mul_right _ (le_max_right ..))))
    · have hone : o.length ≤ 1 * extentSize o.length := by rw [one_mul]; exact hsmall.trans (le_max_left ..)
      simpa using ceilDiv_le_of_le_mul he hone
  · rcases ho with ho | ho | ho <;> simp [Op.splits, Op.kind, ho]

end Sys2Proof.Machine
end

section
/-! The queue, reset and the outcomes of commands (95, 14 R405). -/

namespace Sys2Proof.Machine

/-- Settles O1: both clauses are the two branches of a step. -/
theorem stepRunsTheFrontCommand : Obligations.StepRunsTheFrontCommand :=
  ⟨fun _ _ _ => rfl, fun s hs => by rw [step, hs]⟩

/-- Settles O2: each register's default is the value after reset. -/
theorem resetRegisterValues : Obligations.ResetRegisterValues := by
  unfold Obligations.ResetRegisterValues; decide

/-- A command that chooses between two meanings answers a next state where both do. -/
theorem exists_next_ite {p : Prop} [Decidable p] {a b : Host.Outcome State Fault Refusal} (ha : ∃ t, a = .next t) (hb : ∃ t, b = .next t) :
    ∃ t, (if p then a else b) = .next t := by
  split
  · exact ha
  · exact hb

theorem exists_next_doorbellPage (sl o : Nat) (w : RegWrite) (s : State) : ∃ t, doorbellPage sl o w s = .next t := by
  unfold doorbellPage
  iterate 5 refine exists_next_ite ⟨_, rfl⟩ ?_
  exact ⟨_, rfl⟩

/-- Whichever register an offset names, its write answers a next state. -/
theorem exists_next_registerWrite (off : Nat) (w : RegWrite) (s : State) : ∃ t, execRegisterWrite off w s = .next t := by
  unfold execRegisterWrite
  refine exists_next_ite ?_ (exists_next_ite (exists_next_doorbellPage ..) (exists_next_ite (exists_next_ite ⟨_, rfl⟩ ⟨_, rfl⟩)
    (exists_next_ite (exists_next_ite ⟨_, rfl⟩ ⟨_, rfl⟩) (exists_next_ite (exists_next_ite ⟨_, rfl⟩ (exists_next_ite ⟨_, rfl⟩ ⟨_, rfl⟩))
      (exists_next_ite ⟨_, rfl⟩ (exists_next_ite ⟨_, rfl⟩ ⟨_, rfl⟩))))))
  iterate 8 refine exists_next_ite ⟨_, rfl⟩ ?_
  exact ⟨_, rfl⟩

/-- Settles O3: every row is a state transformer, but for a register write, which chooses one by its offset. -/
theorem everyCommandAnswersANextState : Obligations.EveryCommandAnswersANextState := by
  intro i s
  cases i with
  | registerWrite off w => exact exists_next_registerWrite off w s
  | _ => exact ⟨_, rfl⟩

end Sys2Proof.Machine
end

section
/-! SQ and push doorbells (03 R67, R70, R71), and what a doorbell that R67 shuts out does. -/

namespace Sys2Proof.Machine

theorem exec_ssuSqDb (w : DbWrite) (s : State) : exec (.ssuSqDb w) s = execSsuSqDb w s := rfl
theorem exec_ssuPush (w : PushWrite) (s : State) : exec (.ssuPush w) s = execSsuPush w s := rfl
theorem exec_ssuCqNoticeAck (w : DbWrite) (s : State) : exec (.ssuCqNoticeAck w) s = execSsuCqNoticeAck w s := rfl

/-- A block in warm re-init records a write to a page that is active (R409). -/
theorem dbGate_of_reinit {s : State} {link slice : Nat} (hst : s.fc.dstate = .reinit) (hp : pageActive s link slice = true)
    (k : Bool → State → State) : dbGate link slice s k = k true s := by
  rw [dbGate, hst, hp]; rfl

/-- A context that is neither ACTIVE nor LOST takes no doorbell (R67). -/
theorem dbCtxOk_of_gone {s : State} {c : Nat} (h : (s.ctx c).st = .draining ∨ (s.ctx c).st = .free) (slice : Nat) :
    dbCtxOk s c slice = false := by
  rcases h with h | h <;> simp [dbCtxOk, h]

section
variable {s : State} {w : DbWrite}

/-- An SQ doorbell that R67 takes for a queue that is not FREE reaches its queue, or is recorded. -/
theorem exec_ssuSqDb_of_normal (hst : s.fc.dstate = .normal) (ha : w.aligned8 = true) (hq : (s.sq (fld w.value 15 0)).st ≠ .free)
    (hp : pageActive s w.link w.slice = true) (hc : dbCtxOk s (s.sq (fld w.value 15 0)).ctx w.slice = true) :
    exec (.ssuSqDb w) s = .next (sqDoorbell (fld w.value 15 0) (BitVec.ofNat 24 (fld w.value 39 16)) s) := by
  rw [exec_ssuSqDb, execSsuSqDb, dbGate_of_normal hst hp]
  simp [ha, hq, hc, done]

theorem exec_ssuSqDb_of_reinit (hst : s.fc.dstate = .reinit) (ha : w.aligned8 = true) (hq : (s.sq (fld w.value 15 0)).st ≠ .free)
    (hp : pageActive s w.link w.slice = true) (hc : dbCtxOk s (s.sq (fld w.value 15 0)).ctx w.slice = true) :
    exec (.ssuSqDb w) s =
      .next { s with heldSq := Tab.put s.heldSq (fld w.value 15 0) (BitVec.ofNat 24 (fld w.value 39 16)) } := by
  rw [exec_ssuSqDb, execSsuSqDb, dbGate_of_reinit hst hp]
  simp [ha, hq, hc, done]

/-- A doorbell that R67 shuts out only counts. -/
theorem exec_ssuSqDb_of_dropped (hst : s.fc.dstate = .normal) (hp : pageActive s w.link w.slice = true)
    (h : w.aligned8 = false ∨ dbCtxOk s (s.sq (fld w.value 15 0)).ctx w.slice = false) :
    exec (.ssuSqDb w) s = .next (count w.slice 0 s) := by
  rw [exec_ssuSqDb, execSsuSqDb, dbGate_of_normal hst hp]
  rcases h with h | h <;> simp [h, done, dbDrop]

theorem exec_ssuCqDb_of_dropped (hst : s.fc.dstate = .normal) (hp : pageActive s w.link w.slice = true)
    (h : w.aligned8 = false ∨ dbCtxOk s (s.cq (fld w.value 15 0)).ctx w.slice = false) :
    exec (.ssuCqDb w) s = .next (count w.slice 0 s) := by
  rw [exec_ssuCqDb, execSsuCqDb, dbGate_of_normal hst hp]
  rcases h with h | h <;> simp [h, done, dbDrop]

theorem exec_ssuCqNoticeAck_of_unaligned (hst : s.fc.dstate = .normal) (hp : pageActive s w.link w.slice = true) (h : w.aligned8 = false) :
    exec (.ssuCqNoticeAck w) s = .next (count w.slice 0 s) := by
  rw [exec_ssuCqNoticeAck, execSsuCqNoticeAck, dbGate_of_normal hst hp]
  simp [h, done, dbDrop]

end

/-! ### What an SQ doorbell does at its queue (R70) -/

section
variable {s : State} {n : Nat} {pi : BitVec 24}

/-- An ACTIVE queue takes a new index within its ring, ignores a stale one, and is held by one beyond. -/
theorem sqDoorbell_of_active (h : (s.sq n).st = .active) :
    sqDoorbell n pi s =
      if 2 ^ 23 ≤ ringDiff pi (s.sq n).fi ∨ ringDiff pi (s.sq n).fi ≤ ringDiff (s.sq n).pi (s.sq n).fi then pumpFetch n s
      else if (s.sq n).size < ringDiff pi (s.sq n).fi then holdSq n .doorbellRange s
      else pumpFetch n (s.updSq n (fun q => { q with pi := pi })) := by
  simp [sqDoorbell, h]

/-- A CLOSED queue takes no doorbell. -/
theorem sqDoorbell_of_closed (h : (s.sq n).st = .closed) : sqDoorbell n pi s = s := by
  simp [sqDoorbell, h]

/-- A queue held for its ring's reads is taken up again, by a stale index too. -/
theorem sqDoorbell_of_held_stale (h : (s.sq n).st = .held) (hc : (s.sq n).cause = .doorbellAhead ∨ (s.sq n).cause = .ringRead)
    (hst : 2 ^ 23 ≤ ringDiff pi (s.sq n).fi ∨ ringDiff pi (s.sq n).fi ≤ ringDiff (s.sq n).pi (s.sq n).fi) :
    sqDoorbell n pi s = pumpFetch n (resumeSq n s) := by
  have hc' : ((s.sq n).cause == .doorbellAhead || (s.sq n).cause == .ringRead) = true := by simpa using hc
  simp only [sqDoorbell, h, hc', beq_self_eq_true, Bool.and_self, if_true, show (SqState.held == SqState.closed) = false from rfl,
    Bool.false_eq_true, if_false, Bool.or_eq_true, decide_eq_true_eq, if_pos hst]

end

/-- Settles O4, by what R70 does at a queue that is ACTIVE, CLOSED or HELD, and by what a re-init records. -/
theorem sqDoorbellTakesAStaleOrHolds : Obligations.SqDoorbellTakesAStaleOrHolds := by
  intro w s n pi q ha hq hp hc
  refine ⟨fun hst hact => ?_, fun hst hcl => ?_, fun hst hheld hcause hstale => ?_, fun hst => exec_ssuSqDb_of_reinit hst ha hq hp hc⟩
  · rw [exec_ssuSqDb_of_normal hst ha hq hp hc, sqDoorbell_of_active hact]
  · rw [exec_ssuSqDb_of_normal hst ha hq hp hc, sqDoorbell_of_closed hcl]
  · rw [exec_ssuSqDb_of_normal hst ha hq hp hc, sqDoorbell_of_held_stale hheld hcause hstale]

/-- Settles O6: each of the three doorbells tests the write and the queue's context before anything else. -/
theorem droppedDoorbellOnlyCounts : Obligations.DroppedDoorbellOnlyCounts := by
  intro w s hst hp
  exact ⟨fun h => exec_ssuSqDb_of_dropped hst hp (h.imp_right (dbCtxOk_of_gone · _)),
    fun h => exec_ssuCqDb_of_dropped hst hp (h.imp_right (dbCtxOk_of_gone · _)), exec_ssuCqNoticeAck_of_unaligned hst hp⟩

/-! ### Push doorbells (R71) -/

/-- A push that R67 takes for a queue that is not FREE reaches its queue. -/
theorem exec_ssuPush_of_taken {s : State} {w : PushWrite} (ha : w.aligned64 = true) (hl : w.words.length = 8)
    (hq : (s.sq (dQueue (w.words.getD 0 0))).st ≠ .free) (ht : dbTaken s w.link w.slice (s.sq (dQueue (w.words.getD 0 0))).ctx) :
    exec (.ssuPush w) s = .next (pushDoorbell (dQueue (w.words.getD 0 0)) w.words false s) := by
  obtain ⟨hst, hp, hc⟩ := ht
  rw [exec_ssuPush, execSsuPush, dbGate_of_normal hst hp]
  simp only [ha, hl, beq_eq_false_iff_ne.2 hq, hc]
  rfl

section
variable {s : State} {n : Nat} {ws : List Word}

theorem pushDoorbell_of_stale {r : Bool} (h : 2 ^ 15 ≤ (dRow (ws.getD 0 0) + 65536 - (s.sq n).fi.toNat % 65536) % 65536) :
    pushDoorbell n ws r s = s := if_pos h

/-- A queue that stands still at the descriptor's row executes the pushed copy. -/
theorem pushDoorbell_of_idle (hrel : (dRow (ws.getD 0 0) + 65536 - (s.sq n).fi.toNat % 65536) % 65536 = 0) (hst : (s.sq n).st = .active)
    (hpi : (s.sq n).pi = (s.sq n).fi) (hext : dExt (ws.getD 0 0) = false) (hf : (s.sq n).fetch = .idle) (hroom : storeRoom s n = true)
    (hadm : admitted (s.ctx (s.sq n).ctx) = true) :
    pushDoorbell n ws false s = shadowIfDue n (acceptDesc n (s.sq n).fi.toNat (ws.take 8)
      (s.updSq n (fun q => { q with pi := q.fi + 1, fi := q.fi + 1 }))) := by
  simp only [pushDoorbell, hrel, hst, hpi, hext, hf, hroom, hadm, beq_self_eq_true]
  rfl

/-- Any other push that is not stale is an ordinary doorbell. -/
theorem pushDoorbell_of_busy (hrel : (dRow (ws.getD 0 0) + 65536 - (s.sq n).fi.toNat % 65536) % 65536 < 2 ^ 15)
    (h : (s.sq n).st ≠ .active ∨ (s.sq n).pi ≠ (s.sq n).fi ∨ (dRow (ws.getD 0 0) + 65536 - (s.sq n).fi.toNat % 65536) % 65536 ≠ 0 ∨
      dExt (ws.getD 0 0) = true ∨ (s.sq n).fetch ≠ .idle) :
    pushDoorbell n ws false s =
      sqDoorbell n ((s.sq n).fi + BitVec.ofNat 24 ((dRow (ws.getD 0 0) + 65536 - (s.sq n).fi.toNat % 65536) % 65536) + 1) s := by
  have hguard : ((s.sq n).st == .active && (s.sq n).pi == (s.sq n).fi &&
      (dRow (ws.getD 0 0) + 65536 - (s.sq n).fi.toNat % 65536) % 65536 == 0 && !dExt (ws.getD 0 0) &&
      (s.sq n).fetch == .idle && storeRoom s n && admitted (s.ctx (s.sq n).ctx)) = false := by
    rcases h with h | h | h | h | h
    · simp only [beq_eq_false_iff_ne.2 h, Bool.false_and]
    · simp only [beq_eq_false_iff_ne.2 h, Bool.false_and, Bool.and_false]
    · simp only [beq_eq_false_iff_ne.2 h, Bool.false_and, Bool.and_false]
    · simp only [h, Bool.not_true, Bool.false_and, Bool.and_false]
    · simp only [beq_eq_false_iff_ne.2 h, Bool.false_and, Bool.and_false]
  simp only [pushDoorbell, if_neg hrel.not_ge, hguard, Bool.false_eq_true, if_false]

end

/-- Settles O7, by the three ways of R71 at the queue. -/
theorem pushDoorbellExecutesTheCopyOrRings : Obligations.PushDoorbellExecutesTheCopyOrRings := by
  intro w s d n q rel ha hl hq ht
  have hexec := exec_ssuPush_of_taken ha hl hq ht
  refine ⟨fun hrel => ?_, fun hrel hst hpi hext hf hroom hadm => ?_, fun hrel hbusy => ?_⟩
  · rw [hexec, pushDoorbell_of_stale hrel]
  · rw [hexec, pushDoorbell_of_idle hrel hst hpi hext hf hroom hadm, List.take_of_length_le hl.le]
  · rw [hexec, pushDoorbell_of_busy hrel hbusy]

end Sys2Proof.Machine
end

section
/-! Ring reads (03 R72-R74, R76). -/

namespace Sys2Proof.Machine

theorem exec_descriptorFetch (sq : Nat) (r : RingRead) (s : State) : exec (.descriptorFetch sq r) s = execDescriptorFetch sq r s := rfl
theorem exec_rowReread (sq k : Nat) (r : RingRead) (s : State) : exec (.rowReread sq k r) s = execRowReread sq k r s := rfl

theorem running_of_normal {s : State} (h : s.fc.dstate = .normal) : running s = true := by simp [running, h]

section
variable {s : State} {sq k : Nat}

/-- Data of a first read is taken at FI where its rows match, and read again where they do not (R72). -/
theorem exec_descriptorFetch_words (hf : (s.sq sq).fetch = .reading k) (hst : s.fc.dstate = .normal) (hq : sqFetches (s.sq sq) = true)
    {ws : List Word} (hl : ws.length = 8 * k) :
    exec (.descriptorFetch sq (.words ws)) s = .next (if rowOk ws ((freeReqs (.ring sq) k s).sq sq).fi
      then takeSlots sq ws (freeReqs (.ring sq) k s) else issueRereads sq k (freeReqs (.ring sq) k s)) := by
  simp [exec_descriptorFetch, execDescriptorFetch, hf, running_of_normal hst, hq, hl, done]

theorem exec_descriptorFetch_poison (hf : (s.sq sq).fetch = .reading k) (hst : s.fc.dstate = .normal) (hq : sqFetches (s.sq sq) = true) :
    exec (.descriptorFetch sq .poison) s = .next (ringFailed sq true (freeReqs (.ring sq) k s)) := by
  simp [exec_descriptorFetch, execDescriptorFetch, hf, running_of_normal hst, hq, done]

/-- A queue that no longer fetches drops what comes (R76). -/
theorem exec_descriptorFetch_of_not_fetching (hf : (s.sq sq).fetch = .reading k) (hst : s.fc.dstate = .normal)
    (hq : sqFetches (s.sq sq) = false) (r : RingRead) :
    exec (.descriptorFetch sq r) s = .next (ringDropped sq k r s) := by
  simp [exec_descriptorFetch, execDescriptorFetch, hf, running_of_normal hst, hq, done]

end

/-! ### Re-reads (R73) -/

section
variable {s : State} {sq slots seen : Nat}

theorem exec_rowReread_words (hf : (s.sq sq).fetch = .reread slots seen) (hst : s.fc.dstate = .normal) (hq : sqFetches (s.sq sq) = true)
    (j : Nat) (ws : List Word) : exec (.rowReread sq j (.words ws)) s = .next (rereadData sq slots seen ws s) := by
  simp [exec_rowReread, execRowReread, hf, running_of_normal hst, hq, done]

theorem exec_rowReread_poison (hf : (s.sq sq).fetch = .reread slots seen) (hst : s.fc.dstate = .normal) (hq : sqFetches (s.sq sq) = true)
    (j : Nat) : exec (.rowReread sq j .poison) s = .next (ringFailed sq true (freeReqs (.ring sq) 32 s)) := by
  simp [exec_rowReread, execRowReread, hf, running_of_normal hst, hq, done]

/-- A first slot that matches and wants a second one is no mismatch. -/
theorem head_wantsSecond_of_rowOk_false {ws : List Word} {fi : BitVec 24} (h : rowOk ws fi = false) :
    (rowHead ws fi && wantsSecond ws) = false := by
  by_contra hc
  obtain ⟨hhead, hext, hlen⟩ : rowHead ws fi = true ∧ dExt (ws.getD 0 0) = true ∧ ws.length < 16 := by
    simpa [wantsSecond] using hc
  simp [rowOk, hhead, hlen] at h

theorem rereadData_of_match {ws : List Word} (hl : ws.length = 8 * slots) (hrow : rowOk ws (s.sq sq).fi = true)
    (hw : wantsSecond ws = false) : rereadData sq slots seen ws s = takeSlots sq ws (freeReqs (.ring sq) 32 s) := by
  simp [rereadData, hl, hrow, hw]

/-- A mismatch before the eighth is counted; the eighth holds the queue. -/
theorem rereadData_of_mismatch {ws : List Word} (hl : ws.length = 8 * slots) (hrow : rowOk ws (s.sq sq).fi = false) :
    rereadData sq slots seen ws s =
      if 7 ≤ seen then holdSq sq .doorbellAhead (freeReqs (.ring sq) 32
        ((freeReqs (.ring sq) slots s).updSq sq (fun q => { q with fetch := .idle })))
      else (freeReqs (.ring sq) slots s).updSq sq (fun q => { q with fetch := .reread slots (seen + 1) }) := by
  simp only [rereadData, head_wantsSecond_of_rowOk_false hrow, hrow]
  simp [hl]

end

/-- Settles O8, by the outcomes of R72 for a first read and of R73 for one of the eight re-reads. -/
theorem ringReadTakesRereadsOrHolds : Obligations.RingReadTakesRereadsOrHolds := by
  refine ⟨fun sq k s hf hst hq => ⟨fun ws hl => exec_descriptorFetch_words hf hst hq hl, exec_descriptorFetch_poison hf hst hq⟩,
    fun sq k r s hf hst hq => exec_descriptorFetch_of_not_fetching hf hst hq r, fun sq slots seen j s hf hst hq => ?_⟩
  refine ⟨fun ws hl hrow hw => ?_, fun ws hl hrow hseen => ?_, fun ws hl hrow hseen => ?_, exec_rowReread_poison hf hst hq j⟩
  · rw [exec_rowReread_words hf hst hq, rereadData_of_match hl hrow hw]
  · rw [exec_rowReread_words hf hst hq, rereadData_of_mismatch hl hrow, if_neg hseen.not_ge]
  · rw [exec_rowReread_words hf hst hq, rereadData_of_mismatch hl hrow, if_pos hseen]

end Sys2Proof.Machine
end

section
/-! Descriptors that start (03 R79, R85, R93, R355), INVALIDATE, marker waits, triggered work, SKEIN and COLLECTIVE. -/

namespace Sys2Proof.Machine

theorem exec_nop (sq idx : Nat) (s : State) : exec (.nop sq idx) s = .next (starting sq idx 0x00 (runOp sq idx) s) := rfl
theorem exec_copy (sq idx : Nat) (s : State) : exec (.copy sq idx) s = .next (starting sq idx 0x01 (runOp sq idx) s) := rfl
theorem exec_fill (sq idx : Nat) (s : State) : exec (.fill sq idx) s = .next (starting sq idx 0x02 (runOp sq idx) s) := rfl
theorem exec_convert (sq idx : Nat) (s : State) : exec (.convert sq idx) s = .next (starting sq idx 0x03 (runOp sq idx) s) := rfl
theorem exec_writeRemote (sq idx : Nat) (s : State) : exec (.writeRemote sq idx) s = .next (starting sq idx 0x10 (runOp sq idx) s) := rfl
theorem exec_readRemote (sq idx : Nat) (s : State) : exec (.readRemote sq idx) s = .next (starting sq idx 0x11 (runOp sq idx) s) := rfl
theorem exec_send (sq idx : Nat) (s : State) : exec (.send sq idx) s = .next (starting sq idx 0x12 (runOp sq idx) s) := rfl
theorem exec_atomicFadd (sq idx : Nat) (s : State) : exec (.atomicFadd sq idx) s = .next (starting sq idx 0x18 (runOp sq idx) s) := rfl
theorem exec_atomicCas (sq idx : Nat) (s : State) : exec (.atomicCas sq idx) s = .next (starting sq idx 0x19 (runOp sq idx) s) := rfl
theorem exec_invalidate (sq idx : Nat) (s : State) : exec (.invalidate sq idx) s = .next (starting sq idx 0x40 (runOp sq idx) s) := rfl
theorem exec_triggerArm (sq idx : Nat) (s : State) : exec (.triggerArm sq idx) s = .next (starting sq idx 0x38 (armOp sq idx) s) := rfl
theorem exec_markerSignal (sq idx : Nat) (s : State) : exec (.markerSignal sq idx) s =
    .next (starting sq idx 0x30 (fun o s => if earlierDone s sq idx then runOp sq idx o s else s) s) := rfl
theorem exec_markerWait (sq idx : Nat) (s : State) : exec (.markerWait sq idx) s = execMarkerWait sq idx s := rfl
theorem exec_skein (sq idx : Nat) (l m : Option (List Word)) (s : State) : exec (.skein sq idx l m) s = execSkein sq idx l m s := rfl
theorem exec_collective (sq idx : Nat) (s : State) : exec (.collective sq idx) s = execCollective sq idx s := rfl
theorem exec_invalidateDrained (sq idx : Nat) (s : State) : exec (.invalidateDrained sq idx) s = execInvalidateDrained sq idx s := rfl
theorem exec_triggerFire (sq idx : Nat) (s : State) : exec (.triggerFire sq idx) s = execTriggerFire sq idx s := rfl
theorem exec_operationComplete (sq idx : Nat) (s : State) : exec (.operationComplete sq idx) s = execOperationComplete sq idx s := rfl

section
variable {s : State} {sq idx op : Nat} {o : Op}

/-- A descriptor whose turn has come, with every condition met, goes on, and its start is charged. -/
theorem starting_of_startsNow (h : startsNow s sq idx op o) (go : Op → State → State) :
    starting sq idx op go s = schedTake sq idx s (go o s) := by
  obtain ⟨hop, hopc, hmay, hturn, hadm, hsb, hstale, hqp⟩ := h
  have hwait : (dSbWait (o.w 0) && (localSq s o.ctx (dSbQueue (o.w 0))).isNone) = false := by
    rcases hsb with h | h
    · rw [h, Bool.false_and]
    · rw [Option.isNone_eq_false_iff.2 h, Bool.and_false]
  simp [starting, hop, hopc, hmay, hturn, startGate, hadm, hwait, hstale, hqp]

/-- A descriptor whose queue's turn has not come stays (R355). -/
theorem starting_of_not_turn (h : schedTurn s sq = false) (go : Op → State → State) : starting sq idx op go s = s := by
  unfold starting
  split <;> simp [h]

/-- An operation without engine work completes GOOD with one extent that has landed (R93). -/
theorem runOp_of_no_kind (hopc : o.opcode ≠ 0x40) (hk : o.kind = .none) :
    runOp sq idx o s = completeOp sq idx stGood 0
      ((count 520 5 s).updOp sq idx (fun o => { o with stage := .running, work := oneExtent })) := by
  simp [runOp, hopc, hk]

/-- An operation with engine work runs the extents it divides into (R93). -/
theorem runOp_of_kind (hopc : o.opcode ≠ 0x40) (hk : o.kind ≠ .none) :
    runOp sq idx o s = startExts sq idx ((count 520 5 s).updOp sq idx (fun o => { o with stage := .running, work := o.splits })) := by
  simp [runOp, hopc, hk]

end

/-! ### Operations that are their own effect or begin their extents (R79, R93) -/

section
variable {s : State} {sq idx op : Nat} {o : Op}

theorem starting_runOp_of_no_kind (h : startsNow s sq idx op o) (hopc : op ≠ 0x40) (hk : o.kind = .none) :
    starting sq idx op (runOp sq idx) s = schedTake sq idx s (completeOp sq idx stGood 0
      ((count 520 5 s).updOp sq idx (fun o => { o with stage := .running, work := oneExtent }))) := by
  rw [starting_of_startsNow h, runOp_of_no_kind (by rw [h.2.1]; exact hopc) hk]

theorem starting_runOp_of_kind (h : startsNow s sq idx op o) (hopc : op ≠ 0x40) (hk : o.kind ≠ .none) :
    starting sq idx op (runOp sq idx) s = schedTake sq idx s (startExts sq idx
      ((count 520 5 s).updOp sq idx (fun o => { o with stage := .running, work := o.splits }))) := by
  rw [starting_of_startsNow h, runOp_of_kind (by rw [h.2.1]; exact hopc) hk]

/-- The opcodes whose operations always have engine work. -/
theorem kind_ne_none_of_opcode (h : o.opcode ∈ [0x01, 0x02, 0x03, 0x10, 0x11, 0x12, 0x18, 0x19]) : o.kind ≠ .none := by
  simp only [List.mem_cons, List.not_mem_nil, or_false] at h
  rcases h with h | h | h | h | h | h | h | h <;> simp only [Op.kind, h]
  case inl | inr.inr.inl =>
    split
    · decide
    · split <;> decide
  case inr.inl => split <;> decide
  all_goals decide

theorem starting_runOp_of_opcode (h : startsNow s sq idx op o) (hop : op ∈ [0x01, 0x02, 0x03, 0x10, 0x11, 0x12, 0x18, 0x19]) :
    starting sq idx op (runOp sq idx) s = schedTake sq idx s (startExts sq idx
      ((count 520 5 s).updOp sq idx (fun o => { o with stage := .running, work := o.splits }))) := by
  refine starting_runOp_of_kind h ?_ (kind_ne_none_of_opcode (by rw [h.2.1]; exact hop))
  rintro rfl
  exact absurd hop (by decide)

theorem starting_markerSignal (h : startsNow s sq idx 0x30 o) (he : earlierDone s sq idx = true) :
    starting sq idx 0x30 (fun o s => if earlierDone s sq idx then runOp sq idx o s else s) s = starting sq idx 0x30 (runOp sq idx) s := by
  rw [starting_of_startsNow h, starting_of_startsNow h, if_pos he]

end

theorem get_mapV {α : Type} (t : Tab α) (f : Nat → α → α) (i : Nat) : Tab.get (Tab.mapV t f) i = (Tab.get t i).map (f i) := by
  induction t with
  | nil => rfl
  | cons p t ih =>
    obtain ⟨k, v⟩ := p
    change (if i = k then some (f k v) else Tab.get (Tab.mapV t f) i) = _
    rw [ih, Tab.get]
    split
    · next h => subst h; rfl
    · rfl

/-- A new round gives each slice with a runnable queue its starts, and any other none (R355). -/
theorem newRound_credit {s : State} (h : ∀ x ∈ runnableSlices s, (s.slice x).credit = 0) (sl : Nat) :
    ((newRound s).slice sl).credit =
      if (Tab.get s.slices sl).isNone then 0 else if sl ∈ runnableSlices s then max 1 ((s.slice sl).quota.getD 10 0) else 0 := by
  have hany : (runnableSlices s).any (fun sl => decide (0 < (s.slice sl).credit)) = false := by simpa using h
  have hround : newRound s = { s with slices := Tab.mapV s.slices (fun sl x =>
      { x with credit := if (runnableSlices s).contains sl then max 1 (x.quota.getD 10 0) else 0 }) } := by
    simp only [newRound, hany, Bool.false_eq_true, if_false]
  rw [hround]
  simp only [State.slice, Tab.getD, get_mapV, List.contains_iff_mem]
  cases Tab.get s.slices sl <;> rfl

/-- Settles O9: each opcode starts by `starting_of_startsNow`, and a round's credits are `newRound_credit`. -/
theorem startedDescriptorsRunTheirExtents : Obligations.StartedDescriptorsRunTheirExtents := by
  intro s sq idx o
  refine ⟨fun h => ?_, fun h => ?_, fun h => ?_, fun h => ?_, fun h => ?_, fun h => ?_, fun h => ?_, fun h => ?_, fun h => ?_,
    fun h he hw => ?_, fun h he hw => ?_, fun h => ?_, newRound_credit⟩
  · rw [exec_nop, starting_runOp_of_no_kind h (by decide) (by simp [Op.kind, h.2.1])]
  · rw [exec_copy, starting_runOp_of_opcode h (by decide)]
  · rw [exec_fill, starting_runOp_of_opcode h (by decide)]
  · rw [exec_convert, starting_runOp_of_opcode h (by decide)]
  · rw [exec_writeRemote, starting_runOp_of_opcode h (by decide)]
  · rw [exec_readRemote, starting_runOp_of_opcode h (by decide)]
  · rw [exec_send, starting_runOp_of_opcode h (by decide)]
  · rw [exec_atomicFadd, starting_runOp_of_opcode h (by decide)]
  · rw [exec_atomicCas, starting_runOp_of_opcode h (by decide)]
  · rw [exec_markerSignal, starting_markerSignal h he, starting_runOp_of_no_kind h (by decide) (by simp only [Op.kind, h.2.1, if_pos hw])]
  · rw [exec_markerSignal, starting_markerSignal h he,
      starting_runOp_of_kind h (by decide) (by simp only [Op.kind, h.2.1, if_neg hw]; decide)]
  · simp only [exec_nop, exec_copy, exec_writeRemote, exec_markerWait, execMarkerWait, exec_triggerArm, exec_collective, execCollective,
      starting_of_not_turn h, done, and_self]

/-! ### INVALIDATE (R127-R129) -/

/-- An INVALIDATE of a panel or range starts on the panel of its scope (R127). -/
theorem runOp_invalidate {s : State} {sq idx : Nat} {o : Op} (hopc : o.opcode = 0x40) (hk : invKind o ≠ 2)
    (hcan : canInvalidate s o.ctx (invScope s o).1 = true) :
    runOp sq idx o s = count 520 5 ((startInvalidate o.ctx (invScope s o).1 (invScope s o).2 s).updOp sq idx (fun o' =>
      { o' with stage := .running, work := [{ off := 0, len := 0 }]
                invAt := some ((invScope s o).1,
                  (((startInvalidate o.ctx (invScope s o).1 (invScope s o).2 s).ctx o.ctx).panel (invScope s o).1).tgen) })) := by
  simp [runOp, hopc, beginInv, hk, hcan]

/-- Settles O10: the start through `starting_of_startsNow`, the end as INVALIDATE_DRAINED tests it. -/
theorem invalidateStartsAndDrains : Obligations.InvalidateStartsAndDrains := by
  refine ⟨fun s sq idx o h hk hcan => ?_, fun s sq idx o hop hopc hdone hstage hstop hst hdr => ?_⟩
  · rw [exec_invalidate, starting_of_startsNow h, runOp_invalidate h.2.1 hk hcan]
  · simp [exec_invalidateDrained, execInvalidateDrained, hop, hopc, hdone, hstage, hstop, running_of_normal hst, hdr, done]

/-! ### Marker waits (R52, R88, R90) -/

theorem skeinClaims_of_none_waiting {s : State} (h : skeinsWaiting s = []) (o : Op) : skeinClaims o s = s := by
  simp [skeinClaims, h]

/-- Settles O11, by the three answers of R52 about the wait's marker. -/
theorem markerWaitFollowsItsMarker : Obligations.MarkerWaitFollowsItsMarker := by
  intro s sq idx o r h hwoke hwait hstage hlive
  simp only [exec_markerWait, execMarkerWait, starting_of_startsNow h, hwoke, hwait, beq_eq_false_iff_ne.2 hstage, hlive, Bool.not_true,
    Bool.false_eq_true, if_false, done]
  refine ⟨fun hw => ?_, fun hw => ?_, fun hw hfree hnone => ?_⟩
  · simp only [hw, waitEnds, if_true]
  · simp only [hw, waitEnds, Bool.false_eq_true, if_false]
  · simp only [hw, skeinClaims_of_none_waiting hnone, if_neg hfree]

/-! ### Triggered work (R97-R101) -/

/-- Settles O12: the arm's checks in their order, and the two ways in which a trigger's marker wakes it. -/
theorem triggersArmAndFire : Obligations.TriggersArmAndFire := by
  refine ⟨fun s s' sq idx o b r h hmk hwait hlive hfree hnone hchk => ?_, fun s sq idx o hop hdone hstage hst => ⟨fun v hw => ?_, fun v hw => ?_⟩⟩
  · rw [exec_triggerArm, starting_of_startsNow h]
    simp only [armOp, hmk, if_true, armMarker, hwait, hlive, Bool.not_true, Bool.false_eq_true, if_false,
      skeinClaims_of_none_waiting hnone, if_neg hfree, armGo, hchk]
  · simp [exec_triggerFire, execTriggerFire, hop, hdone, hstage, running_of_normal hst, hw, done]
  · simp [exec_triggerFire, execTriggerFire, hop, hdone, hstage, running_of_normal hst, hw, done]

/-! ### SKEIN and COLLECTIVE (R211-R213, R261) -/

/-- Settles O13: a SKEIN without source triggers needs no wait entries, and a COLLECTIVE is placed by its distance from its group's order. -/
theorem skeinsAndCollectivesBegin : Obligations.SkeinsAndCollectivesBegin := by
  refine ⟨fun s sq idx o l m slot h hslot htrig hl hm => ?_, fun s sq idx o h hact hsl => ?_⟩
  · simp only [exec_skein, execSkein, starting_of_startsNow h, if_pos htrig, if_true, hslot, ne_eq, not_true_eq_false, decide_false,
      Bool.false_and, Bool.false_eq_true, if_false, hl, hm, or_self, done]
    exact ⟨fun hf => by rw [hf], fun d hf => by rw [hf]⟩
  · simp only [exec_collective, execCollective, starting_of_startsNow h, hact, hsl, bne_self_eq_false, Bool.false_eq_true, if_false, done]
    refine ⟨fun hd hlen => ?_, fun hd => by rw [if_pos hd]⟩
    rw [if_neg (by rw [hd]; decide), if_neg (by rw [hd]; simp [hlen.not_ge])]

/-! ### The end of an operation (R96, R403) -/

theorem endStatus_of_stop {o : Op} {st d : Nat} (h : o.stop = some (st, d)) : endStatus o = (st, d) := by
  simp [endStatus, h]

theorem endStatus_of_landed {o : Op} (h : o.stop = none) (hl : ∀ e ∈ o.work, e.st = .landed) : endStatus o = (stGood, 0) := by
  have hall : o.work.all (fun e => e.st == .landed) = true := by simpa using hl
  simp only [endStatus, h, hall, if_true]

theorem endStatus_of_partial {o : Op} (h : o.stop = none) (hl : ∃ e ∈ o.work, e.st ≠ .landed) : endStatus o = (stPartial, o.detail) := by
  have hall : o.work.all (fun e => e.st == .landed) = false := by simpa using hl
  simp only [endStatus, h, hall, Bool.false_eq_true, if_false]

/-- An operation whose extents have ended completes with its status. -/
theorem exec_operationComplete_of_ended {s : State} {sq idx : Nat} {o : Op} (hop : s.op sq idx = some o) (hdone : o.done = false)
    (hstage : o.stage = .running) (hst : s.fc.dstate = .normal) (hended : allEnded o = true) (hfence : o.fence ≠ 1)
    (hcoll : o.opcode ≠ 0x21) (hsk : o.opcode = 0x20 → skEnd sq idx s = s) :
    exec (.operationComplete sq idx) s = .next (completeOp sq idx (endStatus o).1 (endStatus o).2 s) := by
  have hsame : (if running s && ((s.op sq idx).map (fun o => o.opcode == 0x20)).getD false then skEnd sq idx s else s) = s := by
    by_cases h : o.opcode = 0x20
    · rw [hsk h, ite_self]
    · simp [hop, h]
  rw [exec_operationComplete, execOperationComplete, hsame]
  simp [hop, hdone, hstage, running_of_normal hst, hended, hfence, hcoll, done]

/-- Settles O14, by the status with which an ended operation completes. -/
theorem endedOperationCompletes : Obligations.EndedOperationCompletes := by
  intro s sq idx o hop hdone hstage hst hended hfence hcoll hsk
  rw [exec_operationComplete_of_ended hop hdone hstage hst hended hfence hcoll hsk]
  exact ⟨fun st d h => by rw [endStatus_of_stop h], fun h hl => by rw [endStatus_of_landed h hl],
    fun h hl => by rw [endStatus_of_partial h hl]⟩

end Sys2Proof.Machine
end

section
/-! What a running block's tests let through: commands that need it running, and register writes. -/

namespace Sys2Proof.Machine

theorem whenRunning_of_normal {s : State} (h : s.fc.dstate = .normal) (f : State → State) : whenRunning f s = f s := by
  rw [whenRunning, running_of_normal h, if_pos rfl]

section
variable {w : RegWrite}

/-- A write of 8 bytes replaces the register (log 32). -/
theorem mergeReg_of_eight (h : w.size = 8) (old : Word) : mergeReg w old = w.value := by rw [mergeReg, if_pos h]

theorem freshReg_of_eight (h : w.size = 8) : freshReg w = w.value := mergeReg_of_eight h 0

/-- A running block takes an aligned write to a page that is active. -/
theorem heldReg_of_normal {s : State} (h : s.fc.dstate = .normal) (ha : w.aligned = true) (i : Instr) (f : State → State) :
    heldReg i true w f s = f s := by
  simp [heldReg, ha, h]

/-- A running block takes an aligned write on the manager link. -/
theorem mgrReg_of_taken {s : State} (h : regTaken s w) (i : Instr) (f : State → State) : mgrReg i w f s = f s := by
  obtain ⟨hst, hl, ha⟩ := h
  rw [mgrReg, hl, beq_self_eq_true, heldReg_of_normal hst ha]

/-- A device that is not halted takes a write to the fault collector (R392). -/
theorem fcReg_of_taken {s : State} (h : s.fc.dstate ≠ .halted) (hl : w.link = mgrLink s) (ha : w.aligned = true) (f : State → State) :
    fcReg w f s = f s := by
  simp [fcReg, h, hl, ha]

theorem scReg_of_taken {s : State} (h : regTaken s w) (f : State → State) : scReg w f s = f s := by
  obtain ⟨hst, hl, ha⟩ := h
  simp [scReg, hst, hl, ha]

end
end Sys2Proof.Machine
end

section
/-! Completion-queue timers and the end of a queue (03 R66, R69, R76, R477), and returned walks (04 R110, R115). -/

namespace Sys2Proof.Machine

theorem exec_cqFullTimeout (n : Nat) (s : State) : exec (.cqFullTimeout n) s = execCqFullTimeout n s := rfl
theorem exec_cqDrainDiscard (n : Nat) (s : State) : exec (.cqDrainDiscard n) s = execCqDrainDiscard n s := rfl
theorem exec_cqWriteRetry (n : Nat) (r : Bool) (s : State) : exec (.cqWriteRetry n r) s = execCqWriteRetry n r s := rfl
theorem exec_queueFree (n : Nat) (s : State) : exec (.queueFree n) s = execQueueFree n s := rfl
theorem exec_walkDone (w : Nat) (r : WalkRead) (s : State) : exec (.walkDone w r) s = execWalkDone w r s := rfl

section
variable {s : State} {n : Nat}

/-- A queue that is full or cannot be written, with records waiting, raises its notice once (R69). -/
theorem exec_cqFullTimeout_of_full (hst : s.fc.dstate = .normal) (ha : (s.cq n).active = true) (hw : (s.cq n).waiting ≠ [])
    (hroom : cqRoom (s.cq n) = false ∨ (s.cq n).unwritable = true) (hn : (s.cq n).notice = false) :
    exec (.cqFullTimeout n) s = .next (sliceMsix (s.ctx (s.cq n).ctx).slice (s.cq n).vector
      (count (s.ctx (s.cq n).ctx).slice 2 (s.updCq n (fun q => { q with notice := true })))) := by
  have hfull : (!cqRoom (s.cq n) || (s.cq n).unwritable) = true := by simpa using hroom
  simp [exec_cqFullTimeout, execCqFullTimeout, ha, hw, hfull, hn, running_of_normal hst, done]

/-- A full queue of a draining context discards a record of work that was aborted (R69). -/
theorem exec_cqDrainDiscard_of_draining (hst : s.fc.dstate = .normal) (ha : (s.cq n).active = true)
    (hd : (s.ctx (s.cq n).ctx).st = .draining) (hroom : cqRoom (s.cq n) = false) (hu : (s.cq n).unwritable = false) {r : CqRec}
    (hr : (s.cq n).waiting.find? recEnded = some r) :
    exec (.cqDrainDiscard n) s = .next (cqFlush n (dropRecord n r s)) := by
  simp [exec_cqDrainDiscard, execCqDrainDiscard, ha, hd, hroom, hu, hr, running_of_normal hst, done]

theorem exec_cqWriteRetry_of_unwritable (hst : s.fc.dstate = .normal) (ha : (s.cq n).active = true) (hu : (s.cq n).unwritable = true)
    (hw : (s.cq n).waiting ≠ []) : exec (.cqWriteRetry n false) s = .next (cqFlush n s) := by
  simp [exec_cqWriteRetry, execCqWriteRetry, ha, hu, hw, running_of_normal hst, done]

theorem exec_ssuCqNoticeAck_of_taken (hst : s.fc.dstate = .normal) {w : DbWrite} (hn : n = fld w.value 15 0) (ha : w.aligned8 = true)
    (hp : pageActive s w.link w.slice = true) (hq : (s.cq n).active = true) (hsl : (s.ctx (s.cq n).ctx).slice = w.slice) :
    exec (.ssuCqNoticeAck w) s = .next (s.updCq n (fun q => { q with notice := false })) := by
  subst hn
  rw [exec_ssuCqNoticeAck, execSsuCqNoticeAck, dbGate_of_normal hst hp]
  simp [ha, noticeAck, hq, hsl, done]

theorem exec_queueFree_of_idle (hst : s.fc.dstate = .normal) (hi : sqIdle s n = true) :
    exec (.queueFree n) s = .next (writeShadow n
      (State.updSq { s with ops := s.ops.filter (fun e => e.1 / 16777216 % 65536 != n) } n (fun q => { q with st := .free, cause := .none }))) := by
  simp [exec_queueFree, execQueueFree, hi, running_of_normal hst, done]

end

/-- Settles O15, by one lemma for each timer and command. -/
theorem completionQueueTimers : Obligations.CompletionQueueTimers := by
  intro s n hst
  exact ⟨exec_cqFullTimeout_of_full hst, fun r ha hd hroom hu hr => exec_cqDrainDiscard_of_draining hst ha hd hroom hu hr,
    exec_cqWriteRetry_of_unwritable hst, fun w hn ha hp hq hsl => exec_ssuCqNoticeAck_of_taken hst hn ha hp hq hsl, exec_queueFree_of_idle hst⟩

/-- Settles O16: what the walk read is taken before the slot serves the next walk. -/
theorem walkReturnsToItsRequester : Obligations.WalkReturnsToItsRequester := by
  intro s w r k hst hk
  simp only [exec_walkDone, execWalkDone, whenRunning_of_normal hst, hk, done]

end Sys2Proof.Machine
end

section
/-! The fault ring and its resolutions (04 R134-R138), the ends of contexts, objects and windows (02), Rumel's error binding (02 R59,
R60) and the tag fence (04 R124, R125). -/

namespace Sys2Proof.Machine

theorem exec_xltFringCfg (w : RegWrite) (s : State) : exec (.xltFringCfg w) s = execXltFringCfg w s := rfl
theorem exec_xltFringDb (w : RegWrite) (s : State) : exec (.xltFringDb w) s = execXltFringDb w s := rfl
theorem exec_faultResolveRetry (w : RegWrite) (r : WalkRead) (s : State) : exec (.faultResolveRetry w r) s = execFaultResolveRetry w r s := rfl
theorem exec_faultResolveFail (w : RegWrite) (s : State) : exec (.faultResolveFail w) s = execFaultResolveFail w s := rfl
theorem exec_faultTimeout (n : Nat) (s : State) : exec (.faultTimeout n) s = execFaultTimeout n s := rfl
theorem exec_contextFree (c : Nat) (s : State) : exec (.contextFree c) s = execContextFree c s := rfl
theorem exec_ctxDrainTimeout (c : Nat) (s : State) : exec (.ctxDrainTimeout c) s = execCtxDrainTimeout c s := rfl
theorem exec_moRetired (i : Nat) (s : State) : exec (.moRetired i) s = execMoRetired i s := rfl
theorem exec_windowFreed (i : Nat) (s : State) : exec (.windowFreed i) s = execWindowFreed i s := rfl
theorem exec_firmwareErrorBinding (s : State) : exec .firmwareErrorBinding s = execFirmwareErrorBinding s := rfl
theorem exec_tfAck (p : Nat) (q : BitVec 8) (s : State) : exec (.tfAck p q) s = execTfAck p q s := rfl
theorem exec_tfViolation (p : Nat) (t : BitVec 24) (d : BitVec 44) (s : State) : exec (.tfViolation p t d) s = execTfViolation p t d s := rfl

/-! ### The fault ring's registers (R134, R136) -/

section
variable {s : State} {w : RegWrite}

/-- While the ring is on, only ENABLE takes a write. -/
theorem exec_xltFringCfg_of_enabled (h : regTaken s w) (h8 : w.size = 8) (he : s.xlt.enable = true) :
    exec (.xltFringCfg w) s = .next (s.updXlt (fun x => { x with enable := w.value.getLsbD 0 })) := by
  simp [exec_xltFringCfg, execXltFringCfg, mgrReg_of_taken h, mergeReg_of_eight h8, he, done]

/-- While the ring stays off, SIZE takes 6 to 16 and BASE any page. -/
theorem exec_xltFringCfg_of_off (h : regTaken s w) (h8 : w.size = 8) (he : s.xlt.enable = false) (hv : w.value.getLsbD 0 = false) :
    exec (.xltFringCfg w) s = .next (s.updXlt (fun x => { x with
      enable := false
      logSize := if 6 ≤ fld w.value 5 1 ∧ fld w.value 5 1 ≤ 16 then fld w.value 5 1 else x.logSize
      ringBase := BitVec.ofNat 52 (fld w.value 63 12) })) := by
  simp only [exec_xltFringCfg, execXltFringCfg, mgrReg_of_taken h, mergeReg_of_eight h8, he, hv, Bool.false_eq_true, if_false, done]

theorem exec_xltFringDb_of_taken (h : regTaken s w) (h8 : w.size = 8) :
    exec (.xltFringDb w) s = .next (fringScan (s.updXlt (fun x =>
      { x with c := BitVec.ofNat 24 (fld w.value 23 0), arm := x.arm || w.value.getLsbD 24 }))) := by
  simp only [exec_xltFringDb, execXltFringDb, mgrReg_of_taken h, freshReg_of_eight h8, done]

end

/-- Settles O17, by the configuration's two cases of ENABLE and by the doorbell. -/
theorem faultRingRegisters : Obligations.FaultRingRegisters := by
  intro w s hst hl ha h8
  have h : regTaken s w := ⟨hst, hl, ha⟩
  exact ⟨exec_xltFringCfg_of_enabled h h8, fun he hv => ⟨_, exec_xltFringCfg_of_off h h8 he hv, rfl, rfl, rfl, rfl⟩,
    exec_xltFringDb_of_taken h h8⟩

/-! ### Resolutions (R137, R138) -/

section
variable {s : State} {w : RegWrite} {e : Nat} {f : PFault}

/-- A chart read of an entry inside HBM answers it, whatever was counted. -/
theorem chartRead_count {a b : Nat} (h : inHbm s (entryAt s f.ctx f.panel f.page) 8 = true) (r : WalkRead) :
    chartRead (count a b s) f.ctx f.panel f.page r = r := if_pos h

theorem exec_faultResolveRetry_of_present (h : regTaken s w) (h8 : w.size = 8) (ha : fld w.value 53 52 = 0)
    (hr : resolveEntry s w.value = some (e, f)) (hh : inHbm s (entryAt s f.ctx f.panel f.page) 8 = true) {x : Word} (hx : cePresent x = true) :
    exec (.faultResolveRetry w (.entry x)) s =
      .next (resolved e f (takeEntry (walkGroup s (gapFrom 0 (s.xlt.walks.map (·.1)))) (f.joiners.map (·.purp))
        f.ctx f.panel f.page x (count 521 0 s))) := by
  simp only [exec_faultResolveRetry, execFaultResolveRetry, mgrReg_of_taken h, freshReg_of_eight h8, ha, hr, chartRead_count hh, hx, done]
  rfl

theorem exec_faultResolveRetry_of_absent (h : regTaken s w) (h8 : w.size = 8) (ha : fld w.value 53 52 = 0)
    (hr : resolveEntry s w.value = some (e, f)) (hh : inHbm s (entryAt s f.ctx f.panel f.page) 8 = true) {x : Word} (hx : cePresent x = false) :
    exec (.faultResolveRetry w (.entry x)) s = .next (reportFault e ((count 521 0 s).updXlt (fun y =>
      { y with faults := Tab.adj y.faults e (fun f => { f with rep := min 15 (f.rep + 1) }) }))) := by
  simp only [exec_faultResolveRetry, execFaultResolveRetry, mgrReg_of_taken h, freshReg_of_eight h8, ha, hr, chartRead_count hh, hx, done]
  rfl

theorem exec_faultResolveFail_of_some (h : regTaken s w) (h8 : w.size = 8) (ha : fld w.value 53 52 = 1)
    (hr : resolveEntry s w.value = some (e, f)) :
    exec (.faultResolveFail w) s = .next (resolved e f (noteJoiners f .faultFailed s)) := by
  simp only [exec_faultResolveFail, execFaultResolveFail, mgrReg_of_taken h, freshReg_of_eight h8, ha, hr, done]
  rfl

theorem exec_faultResolveFail_of_none (h : regTaken s w) (h8 : w.size = 8) (ha : fld w.value 53 52 = 1)
    (hr : resolveEntry s w.value = none) : exec (.faultResolveFail w) s = .next (count 521 6 s) := by
  simp only [exec_faultResolveFail, execFaultResolveFail, mgrReg_of_taken h, freshReg_of_eight h8, ha, hr, done]
  rfl

end

/-- Settles O18, by one lemma for each answer. -/
theorem faultResolutions : Obligations.FaultResolutions := by
  refine ⟨fun w s hst hl ha h8 => ?_, fun s n f hst hf hrep => ?_⟩
  · have h : regTaken s w := ⟨hst, hl, ha⟩
    exact ⟨fun e f x h0 hr hh hx => exec_faultResolveRetry_of_present h h8 h0 hr hh hx,
      fun e f x h0 hr hh hx => exec_faultResolveRetry_of_absent h h8 h0 hr hh hx,
      fun e f h1 hr => exec_faultResolveFail_of_some h h8 h1 hr, exec_faultResolveFail_of_none h h8⟩
  · simp only [exec_faultTimeout, execFaultTimeout, whenRunning_of_normal hst, hf, hrep, if_true, done]

/-! ### The ends of contexts, objects and windows (R32, R36, R43, R47) -/

section
variable {s : State}

/-- An object without sealed runs and without a drain marker returns to the free list. -/
theorem freeMo_of_unsealed {i : Nat} (hseal : s.fnd.sealTab = []) (hd : (s.mo i).drain = none) :
    freeMo i s = { s.updMo i (fun o => { gen := o.gen, inv := o.inv, owner := some ((s.ctx o.ctx).slice, (s.slice (s.ctx o.ctx).slice).gen) }) with
      moFree := s.moFree ++ [i] } := by
  simp only [freeMo, hseal, hd, List.any_nil, Bool.false_and, Bool.false_eq_true, if_false, signalDone]
  rfl

theorem freeWin_of_no_drain {i : Nat} (hd : (s.win i).drain = none) :
    freeWin i s = { s.updWin i (fun w => { gen := w.gen }) with winFree := s.winFree ++ [i] } := by
  simp only [freeWin, hd, signalDone]
  rfl

end

/-- Settles O19: each end is the exec function's own, with its lists empty. -/
theorem lifecyclesEnd : Obligations.LifecyclesEnd := by
  refine ⟨fun s c hi hst hc hw hm => ?_, fun s c hst hd ha => ?_, fun s i hst hr hu hseal hd => ?_, fun s i hst hr ht hd => ?_⟩
  · simp only [exec_contextFree, execContextFree, hi, running_of_normal hst, hc, hw, hm, List.foldl_nil, Bool.not_true, Bool.or_self,
      Bool.false_eq_true, if_false, List.isEmpty_nil, done]
  · simp [exec_ctxDrainTimeout, execCtxDrainTimeout, running_of_normal hst, hd, ha, done]
  · simp [exec_moRetired, execMoRetired, running_of_normal hst, hr, hu, freeMo_of_unsealed hseal hd, done]
  · simp [exec_windowFreed, execWindowFreed, running_of_normal hst, hr, ht, freeWin_of_no_drain hd, done]

/-- Settles O20: the oldest job's markers that are still valid take its error in order. -/
theorem errorBindingServesTheOldestJob : Obligations.ErrorBindingServesTheOldestJob := by
  intro s j rest hj hst hcode
  simp [exec_firmwareErrorBinding, execFirmwareErrorBinding, hj, running_of_normal hst, hcode, done]

/-! ### The tag fence (R124, R125) -/

/-- Settles O21, by what is left to acknowledge, and by whether the tag is rejected. -/
theorem tagFenceAnswers : Obligations.TagFenceAnswers := by
  refine ⟨fun s p c q hst hu hw hr hd => ?_, fun s p c q r rs hst hu hw => ?_, fun s p tag dpa hst => ⟨fun ht hf hr => ?_, fun hr => ?_⟩⟩
  · simp [exec_tfAck, execTfAck, hst, hu, hw, hr, hd, done]
  · have hleft : r ∈ (s.ctx c).tagWait ∧ r ≠ p := by
      have hmem : r ∈ (s.ctx c).tagWait.filter (· ≠ p) := hw ▸ List.mem_cons_self
      simpa using hmem
    simp only [exec_tfAck, execTfAck, hst, hu, done, beq_iff_eq, if_false]
    refine congrArg _ (if_pos ?_)
    simpa using Or.inr ⟨r, hleft⟩
  · have ht' : accessTag (count 526 (64 * (6 * p) + 5) s) (fld tag 14 3) = tag := ht
    simp [exec_tfViolation, execTfViolation, hst, ht', hf, hr, done]
  · simp [exec_tfViolation, execTfViolation, hst, hr, done]

end Sys2Proof.Machine
end

section
/-! ERT packets (05): data and requests, responses, control packets, skein and collective packets, and a group's control messages. -/

namespace Sys2Proof.Machine

section
variable (p : ErtPkt) (s : State)

theorem exec_write : exec (.write p) s = .next (rowOp p 0 (rxWrite p) s) := rfl
theorem exec_rxSend : exec (.rxSend p) s = .next (rowOp p 1 (rxSendPkt p) s) := rfl
theorem exec_readReq : exec (.readReq p) s = .next (rowOp p 2 (rxReadReq p) s) := rfl
theorem exec_readResp : exec (.readResp p) s = .next (rowOp p 3 (rxReadResp p) s) := rfl
theorem exec_atomic : exec (.atomic p) s = .next (rowOp p 4 (rxAtomic p) s) := rfl
theorem exec_atomicResp : exec (.atomicResp p) s = .next (rowOp p 5 (rxAtomicResp p) s) := rfl
theorem exec_ack : exec (.ack p) s = .next (rowOp p 6 (rxAck p) s) := rfl
theorem exec_nak : exec (.nak p) s = .next (rowOp p 7 (rxNak p) s) := rfl
theorem exec_grant : exec (.grant p) s = .next (rowOp p 8 (rxGrant p) s) := rfl
theorem exec_resume : exec (.resume p) s = .next (rowOp p 9 (rxResume p) s) := rfl
theorem exec_skeinData : exec (.skeinData p) s = .next (rowOp p 10 (rxSkein p) s) := rfl
theorem exec_purlData : exec (.purlData p) s = .next (rowOp p 11 (rxPurlData p) s) := rfl
theorem exec_purlResult : exec (.purlResult p) s = .next (rowOp p 12 (rxPurlData p) s) := rfl
theorem exec_hello : exec (.hello p) s = .next (rowKind p 0 s) := rfl
theorem exec_credit : exec (.credit p) s = .next (rowKind p 1 s) := rfl
theorem exec_purlRestart : exec (.purlRestart p) s = .next (rowKind p 2 s) := rfl
theorem exec_purlAbort : exec (.purlAbort p) s = .next (rowKind p 3 s) := rfl

end

section
variable {p : ErtPkt} {s : State}

/-- A packet of its row that is NEW reaches the row's own work, on the record of its QP. -/
theorem rowOp_rxNew (h : packetNew (arrived p s) p = true) {k : Nat} (hop : p.hdr.op = BitVec.ofNat 4 k) (hk : k < 16)
    (body : Nat → Qp → State → State) :
    rowOp p k (rxNew p body) s = body p.hdr.dstQpn.toNat (s.qp p.hdr.dstQpn.toNat) (packetIn p s) := by
  rw [rowOp_of hop hk, rxNew_of_new h]
  rfl

/-! ### Data and requests (R155, R158-R165, R174) -/

/-- A range that passes its checks is accepted and waits for its delivery. -/
theorem acceptRequest_of_ok {n : Nat} {k : ReqKind} {r : Nat × Nat} {t u t' : State} {i : Nat} (h : requestOk n p k r t u)
    (hr : rxTracker (requestTracker n p r u) u = some (i, t')) :
    acceptRequest n p k r t = completeMsg i true (consume n p t') := by
  obtain ⟨hw, e, b, v, hx, rfl⟩ := h
  simp only [acceptRequest, hw, hx, hr]

/-- Settles O22: each packet is NEW, and every test of its row passes. -/
theorem dataPacketsThatPassTheirChecksAreTaken : Obligations.DataPacketsThatPassTheirChecksAreTaken := by
  intro p s h
  refine ⟨fun data short i t' hop hpay hfl hshort hwin htr => ?_, fun data short i t' hop hpay hfl hshort hlen hmo hml hoff hfree htr => ?_,
    fun i u t' hop hbad hok htr => ?_, fun i u t' hop hbad hok htr => ?_⟩
  · have hlast : (short && !fLast p.hdr.flags) = false := by cases short <;> simp_all
    rw [exec_write]
    exact congrArg _ ((rowOp_rxNew h hop (by decide) _).trans (by
      simp only [hpay, hfl, hlast, hwin, htr, Bool.not_true, Bool.or_self, Bool.false_eq_true, if_false]))
  · have hlast : (short && !fLast p.hdr.flags) = false := by cases short <;> simp_all
    have hfit : (fLast p.hdr.flags && decide (p.hdr.offsetLen.toNat < data.length)) = false := by
      rw [Bool.and_eq_false_imp]
      exact fun hl => decide_eq_false (Nat.not_lt.2 (hlen hl))
    rw [exec_rxSend]
    exact congrArg _ ((rowOp_rxNew h hop (by decide) _).trans (by
      simp only [hpay, hfl, hlast, hfit, hmo, decide_false, Nat.not_lt.2 hml, Nat.not_lt.2 hoff, hfree, htr, Bool.not_true, Bool.or_self,
        Bool.false_eq_true, if_false]))
  · rw [exec_readReq]
    exact congrArg _ ((rowOp_rxNew h hop (by decide) _).trans (by
      simp only [hbad, Bool.false_eq_true, if_false, acceptRequest_of_ok hok htr]))
  · rw [exec_atomic]
    exact congrArg _ ((rowOp_rxNew h hop (by decide) _).trans (by
      simp only [hbad, Bool.false_eq_true, if_false]
      exact acceptRequest_of_ok hok htr))

/-! ### Responses (R160, R165, R171) -/

/-- Settles O23: a response's tracker names the operation that asked. -/
theorem responsesReachTheirOperations : Obligations.ResponsesReachTheirOperations := by
  intro p s h
  refine ⟨fun i k sq idx ext o data short hop hft huse hpay ho hfl hshort hlen hoff => ?_, fun i k sq idx hop hft huse => ?_,
    fun hft => ⟨fun hop => ?_, fun hop => ?_⟩⟩
  · have hlast : (short && !fLast p.hdr.flags) = false := by cases short <;> simp_all
    have hend : ((fFirst p.hdr.flags || fLast p.hdr.flags) && decide (p.hdr.offsetLen.toNat ≠ k.msgLen.getD 0)) = false := by
      rw [Bool.and_eq_false_imp, Bool.or_eq_true]
      exact fun hl => decide_eq_false (not_not.2 (hlen hl))
    rw [exec_readResp]
    exact congrArg _ ((rowOp_rxNew h hop (by decide) _).trans (by
      simp only [hft, huse, hpay, ho, hfl, hlast, hend, Nat.not_lt.2 hoff, decide_false, Bool.not_true, Bool.or_self, Bool.false_eq_true,
        if_false]))
  · rw [exec_atomicResp]
    exact congrArg _ ((rowOp_rxNew h hop (by decide) _).trans (by simp only [hft, huse]))
  · rw [exec_readResp]
    exact congrArg _ ((rowOp_rxNew h hop (by decide) _).trans (by simp only [hft]))
  · rw [exec_atomicResp]
    exact congrArg _ ((rowOp_rxNew h hop (by decide) _).trans (by simp only [hft]))

/-! ### Control packets at a sender (R167, R170, R176, R180, R192) -/

theorem rxAck_of_taken (h : packetTaken s p = true) (hl : p.payload.length = 40) : rxAck p s = takeAck p.hdr.dstQpn.toNat p s := by
  simp [rxAck, rxGate_of_taken h, hl]

theorem rxNak_of_error (h : packetTaken s p = true) (hc : bits (beWord p.payload 0) 7 0 = 39) :
    rxNak p s = qpError p.hdr.dstQpn.toNat 4 none s := by
  simp only [rxNak, rxGate_nak (rxGate_of_taken h), hc, if_true]

/-- What a NAK with code 2, 3, 16 or 32 does about a packet that is still in flight. -/
theorem rxNak_of_flight (h : packetTaken s p = true) {f : Flight}
    (hf : (s.qp p.hdr.dstQpn.toNat).flight.find? (fun f => f.psn == p.hdr.psn) = some f) :
    (bits (beWord p.payload 0) 7 0 = 2 ∨ bits (beWord p.payload 0) 7 0 = 3 → rxNak p s = s.updQp p.hdr.dstQpn.toNat (fun q => { q with
      flight := q.flight.map (fun x => if x.psn == f.psn then { x with retryWait := true } else x) })) ∧
    (bits (beWord p.payload 0) 7 0 = 16 → rxNak p s = afterAck p.hdr.dstQpn.toNat
      ((flightFail p.hdr.dstQpn.toNat f s).updQp p.hdr.dstQpn.toNat (fun q => q.ackFlights (fun x => x.psn == f.psn)))) ∧
    (bits (beWord p.payload 0) 7 0 = 32 → rxNak p s = qpError p.hdr.dstQpn.toNat 5
      ((flightOp (s.qp p.hdr.dstQpn.toNat) f).map (fun k => (k.1, k.2, stStaleHandle, 0x2C))) s) := by
  simp only [rxNak, rxGate_nak (rxGate_of_taken h), hf]
  refine ⟨?_, fun hc => ?_, fun hc => ?_⟩
  · rintro (hc | hc) <;> simp [hc]
  · simp [hc]
  · simp [hc]

theorem rxGrant_of_named (h : packetTaken s p = true)
    (hm : (s.qp p.hdr.dstQpn.toNat).msgs.any (fun m => m.id == p.hdr.msgId && m.resp == (bits (beWord p.payload 0) 48 48 == 1)) = true) :
    rxGrant p s = pumpQp 1024 p.hdr.dstQpn.toNat (s.updQp p.hdr.dstQpn.toNat (fun q => { q with msgs := q.msgs.map (fun m =>
      if m.id == p.hdr.msgId && m.resp == (bits (beWord p.payload 0) 48 48 == 1)
      then { m with granted := min m.len (max m.granted (bits (beWord p.payload 0) 47 0)) } else m) })) := by
  simp only [rxGrant, rxGate_of_taken h, hm, if_true]

theorem rxResume_of_sender (h : packetTaken s p = true) (hc : bits (beWord p.payload 0) 7 0 = 1)
    (hs : qpMaySend s (s.qp p.hdr.dstQpn.toNat) = true) : rxResume p s = resendAll p.hdr.dstQpn.toNat true s := by
  simp [rxResume, rxGate_of_taken h, hc, hs]

/-- Settles O24, by one lemma for each control packet. -/
theorem acknowledgementsAndRefusalsReachTheSender : Obligations.AcknowledgementsAndRefusalsReachTheSender := by
  intro p s h
  refine ⟨fun hop hl => ?_, fun hop hc => ?_, fun f hop hf => ?_, fun hop hm => ?_, fun hop hc hs => ?_⟩
  · rw [exec_ack, rowOp_of hop (by decide), rxAck_of_taken h hl]
  · rw [exec_nak, rowOp_of hop (by decide), rxNak_of_error h hc]
  · have hnak : exec (.nak p) s = .next (rxNak p (arrived p s)) := by rw [exec_nak, rowOp_of hop (by decide)]
    obtain ⟨h2, h16, h32⟩ := rxNak_of_flight h hf
    exact ⟨fun hc => by rw [hnak, h2 hc], fun hc => by rw [hnak, h16 hc], fun hc => by rw [hnak, h32 hc]; rfl⟩
  · rw [exec_grant, rowOp_of hop (by decide), rxGrant_of_named h hm]
  · rw [exec_resume, rowOp_of hop (by decide), rxResume_of_sender h hc hs]

/-! ### Skein and collective packets (R215-R218, R275) -/

/-- A partial or result that passes its tests goes to its collective. -/
theorem rowOp_rxPurlData_take (h : packetNew (arrived p s) p = true) {k : Nat} (hop : p.hdr.op = BitVec.ofNat 4 k) (hk : k < 16)
    {data : List Byte} {g : Coll} {o : Op} {i : Nat} {t' : State}
    (hj : purlJudge (packetIn p s) p.hdr.dstQpn.toNat p = .take data)
    (hc : (packetIn p s).coll (fld p.hdr.window 31 20) (fld p.hdr.window 19 0) = some (g, o))
    (ht : trackerFor p.hdr.dstQpn.toNat p (purlTracker p.hdr.dstQpn.toNat p (packetIn p s)) (packetIn p s) = some (i, t')) :
    rowOp p k (rxPurlData p) s = purlInto p.hdr.dstQpn.toNat p i o data t' :=
  (rowOp_rxNew h hop hk _).trans (by simp only [hj, hc, ht])

/-- One for a collective that is over is consumed. -/
theorem rowOp_rxPurlData_stale (h : packetNew (arrived p s) p = true) {k : Nat} (hop : p.hdr.op = BitVec.ofNat 4 k) (hk : k < 16)
    (hj : purlJudge (packetIn p s) p.hdr.dstQpn.toNat p = .stale) :
    rowOp p k (rxPurlData p) s = consumeStale p.hdr.dstQpn.toNat p (countUnnamed (packetIn p s)) :=
  (rowOp_rxNew h hop hk _).trans (by simp only [hj])

/-- Settles O25: the tests of each packet's row, in their order. -/
theorem skeinAndCollectivePacketsAreTaken : Obligations.SkeinAndCollectivePacketsAreTaken := by
  intro p s h
  refine ⟨fun i t' hop hbad hhdr hchk htr => ?_, fun i t' data short hop hbad hhdr hpay hwin htr => ?_,
    fun i t' data k o hj hc htr => ⟨fun hop => ?_, fun hop => ?_⟩, fun hj => ⟨fun hop => ?_, fun hop => ?_⟩⟩
  · rw [exec_skeinData]
    exact congrArg _ ((rowOp_rxNew h hop (by decide) _).trans (by
      simp only [hbad, hhdr, hchk, htr, Bool.false_eq_true, if_false, if_true]))
  · rw [exec_skeinData]
    exact congrArg _ ((rowOp_rxNew h hop (by decide) _).trans (by
      simp only [hbad, hhdr, hpay, hwin, htr, Bool.false_eq_true, if_false]))
  · rw [exec_purlData, rowOp_rxPurlData_take h hop (by decide) hj hc htr]
  · rw [exec_purlResult, rowOp_rxPurlData_take h hop (by decide) hj hc htr]
  · rw [exec_purlData, rowOp_rxPurlData_stale h hop (by decide) hj]
  · rw [exec_purlResult, rowOp_rxPurlData_stale h hop (by decide) hj]

/-! ### A group's control messages (R257, R277, R283, R285) -/

/-- A control message of a rank of a group that is not over is accepted and has its KIND's effect. -/
theorem rowKind_of_member (h : packetNew (arrived p s) p = true) (hop : p.hdr.op = 13) {k : Nat} (hk : fld p.hdr.imm 26 24 = k)
    (ho : groupOver ((packetIn p s).group (fld p.hdr.window 31 20)) = false) (hb : ctlBad p = false)
    (hr : (rankOf ((packetIn p s).group (fld p.hdr.window 31 20)) p.hdr.dstQpn.toNat).isSome = true) :
    rowKind p k s = purlCtlIn p.hdr.dstQpn.toNat (fld p.hdr.window 31 20) (fld p.hdr.window 19 0) (fld p.hdr.imm 26 24)
      (fld p.hdr.imm 19 0) (fld p.hdr.imm 23 20) p.payload (consumeWhole p.hdr.dstQpn.toNat p (packetIn p s)) := by
  have hnone : (rankOf ((packetIn p s).group (fld p.hdr.window 31 20)) p.hdr.dstQpn.toNat).isNone = false := Option.isNone_eq_false_iff.2 hr
  have hkind : (decide (fld p.hdr.imm 26 24 = k) || (decide (k = 0) && decide (3 < fld p.hdr.imm 26 24))) = true := by
    rw [decide_eq_true hk, Bool.true_or]
  simp only [rowKind, hkind, if_true]
  exact (rowOp_rxNew h hop (by decide) _).trans (by simp only [ho, hb, hnone, Bool.or_self, Bool.false_eq_true, if_false])

/-- Settles O26: each KIND has its own row, and all rows one effect. -/
theorem groupControlMessagesHaveTheirEffect : Obligations.GroupControlMessagesHaveTheirEffect := by
  intro p s h hop n t grp kind ho hb hr
  exact ⟨fun hk => by rw [exec_hello, rowKind_of_member h hop hk ho hb hr], fun hk => by rw [exec_credit, rowKind_of_member h hop hk ho hb hr],
    fun hk => by rw [exec_purlRestart, rowKind_of_member h hop hk ho hb hr], fun hk => by rw [exec_purlAbort, rowKind_of_member h hop hk ho hb hr]⟩

end
end Sys2Proof.Machine
end

section
/-! RoCEv2 packets, notifications, datagrams and discarded frames (05 R182, R183; 06 R204-R206; R474), and the timers of an ERT QP (05). -/

namespace Sys2Proof.Machine

theorem exec_rocePacket (p : RocePkt) (s : State) : exec (.rocePacket p) s = execRocePacket p s := rfl
theorem exec_cnp (p : RocePkt) (s : State) : exec (.cnp p) s = execCnp p s := rfl
theorem exec_cmDatagram (lp : Nat) (src : BitVec 128) (d : List Byte) (s : State) : exec (.cmDatagram lp src d) s = execCmDatagram lp src d s := rfl
theorem exec_rxFrameDiscard (lp : Nat) (why : FrameFault) (s : State) : exec (.rxFrameDiscard lp why) s = execRxFrameDiscard lp why s := rfl
theorem exec_pfcFrame (lp prio : Nat) (b : Bool) (s : State) : exec (.pfcFrame lp prio b) s = execPfcFrame lp prio b s := rfl
theorem exec_deliver (n : Nat) (s : State) : exec (.deliver n) s = .next (deliverNext n s) := rfl
theorem exec_ackTimer (n : Nat) (s : State) : exec (.ackTimer n) s = .next (ackDue n s) := rfl
theorem exec_tink (n : Nat) (psn : BitVec 32) (s : State) : exec (.tink n psn) s = .next (doTink n psn s) := rfl
theorem exec_noProgressTimeout (n : Nat) (s : State) : exec (.noProgressTimeout n) s = .next (noProgress n s) := rfl
theorem exec_rxStalled (i : Nat) (s : State) : exec (.rxStalled i) s = .next (rxStall i s) := rfl
theorem exec_sickHoldExpiry (n path : Nat) (s : State) : exec (.sickHoldExpiry n path) s = .next (holdEnds n path s) := rfl
theorem exec_retryDelayExpiry (n : Nat) (psn : BitVec 32) (s : State) : exec (.retryDelayExpiry n psn) s = .next (retryNow n psn s) := rfl
theorem exec_pageHoldTimeout (n : Nat) (psn : BitVec 32) (s : State) : exec (.pageHoldTimeout n psn) s =
    .next (if (s.qp n).mode == .roce then rocePageHeld n (psn.setWidth 24) s else pageHeld n psn s) := rfl

/-! ### RoCEv2 traffic and frames -/

section
variable {s : State} {p : RocePkt}

theorem exec_rocePacket_of_taken (h : roceTaken s p) :
    exec (.rocePacket p) s = .next (if roceIsReq p.kind
      then roceRequest (p.dstQp.toNat - 0x20000) p (sendCnp (p.dstQp.toNat - 0x20000) p (count 524 (32 * p.lport + 1) s))
      else roceResponse (p.dstQp.toNat - 0x20000) p (sendCnp (p.dstQp.toNat - 0x20000) p (count 524 (32 * p.lport + 1) s))) := by
  rw [exec_rocePacket, execRocePacket, roceGate_of h]
  rfl

/-- A notification that does not come within 31,250 ticks of the last cuts the rate (R205). -/
theorem exec_cnp_of_taken (h : roceTaken s p)
    (hl : ∀ k, (s.qp (p.dstQp.toNat - 0x20000)).roce.lastCnpIn = some k → k + 31250 ≤ s.ticks) :
    exec (.cnp p) s = .next (updRoce (p.dstQp.toNat - 0x20000) (fun r => { r with
      rt := r.rc, rc := clampRc (r.rc * (1 - r.alpha / 2)), alpha := r.alpha * 255 / 256 + 1 / 256,
      stageT := 0, stageB := 0, bytes := 0, lastCnpIn := some s.ticks }) (count 524 (32 * p.lport + 1) s)) := by
  have hearly : (match (s.qp (p.dstQp.toNat - 0x20000)).roce.lastCnpIn with
      | some t => decide (s.ticks < t + 31250) | none => false) = false := by
    split
    · next k hk => exact decide_eq_false (Nat.not_lt.2 (hl k hk))
    · rfl
  rw [exec_cnp, execCnp, roceGate_of h]
  refine congrArg _ (if_neg ?_)
  rw [Bool.not_eq_true]
  exact hearly

end

/-- Settles O27: the packets' gate, the mailbox of datagrams, and one counter for each discard. -/
theorem roceTrafficIsTaken : Obligations.RoceTrafficIsTaken := by
  refine ⟨fun p s h => ⟨exec_rocePacket_of_taken h, exec_cnp_of_taken h⟩, fun lp src data s hst => ?_,
    fun lp tc s => ⟨rfl, rfl, rfl, rfl, rfl⟩, fun lp pause s hp => ?_⟩
  · have hrun : running (count 524 (32 * lp + 1) s) = true := running_of_normal hst
    simp only [exec_cmDatagram, execCmDatagram, hrun, Bool.not_true, Bool.false_eq_true, if_false, done]
    exact ⟨fun hl => congrArg _ (if_pos hl), fun hl => congrArg _ (if_neg (Nat.not_lt.2 hl))⟩
  · have hp' : pfcOn (count 524 (32 * lp + 1) s) (lpPort lp) = true := hp
    simp only [exec_pfcFrame, execPfcFrame, hp', Bool.not_true, Bool.false_eq_true, if_false, done]
    exact congrArg _ (if_neg (fun h => h rfl))

/-! ### Timers of an ERT QP -/

section
variable {s : State} {n : Nat}

theorem qpMaySend_of_active (hst : s.fc.dstate = .normal) (ha : (s.qp n).st = .active) : qpMaySend s (s.qp n) = true := by
  simp [qpMaySend, running_of_normal hst, ha]

/-- The message that is next in order is delivered; one without an immediate and without a request only moves the QP on (R162, R163). -/
theorem deliverNext_of_next (hst : s.fc.dstate = .normal) (ha : (s.qp n).st = .active) (hm : (s.qp n).mode = .ert) {d : DoneMsg}
    (hd : (s.qp n).complete.find? (fun d => d.id == (s.qp n).delivered + 1) = some d) (ht : d.tracker = none) (hi : d.imm = none) :
    (d.op = 0 → deliverNext n s = (fun t => if d.act then sendAck n t else t)
      (touchQp n (s.updQp n (fun q => { q with delivered := q.delivered + 1, complete := q.complete.erase d })))) ∧
    (d.op = 1 → deliverNext n s = (fun t => if d.act then sendAck n t else t)
      (touchQp n ((postRecv n d.len d.failed none d.id none s).updQp n
        (fun q => { q with delivered := q.delivered + 1, complete := q.complete.erase d })))) := by
  have hlive : (((s.qp n).st == .active || (s.qp n).st == .held || ((s.qp n).st == .draining && !(s.qp n).abort)) && running s) = true := by
    rw [ha, running_of_normal hst]; rfl
  refine ⟨fun hop => ?_, fun hop => ?_⟩ <;>
    simp only [deliverNext, hd, hlive, hm, ht, hi, hop] <;> rfl

theorem ackDue_of_due (hst : s.fc.dstate = .normal) (ha : (s.qp n).st = .active) (hm : (s.qp n).mode = .ert) (hd : 0 < (s.qp n).sinceAck) :
    ackDue n s = sendAck n s := by
  simp [ackDue, hd, hm, running_of_normal hst, ha]

section
variable {psn : BitVec 32} {f : Flight}

/-- A tink of a packet that nothing later overtook is counted and sent again (R168). -/
theorem doTink_of_alone (hst : s.fc.dstate = .normal) (ha : (s.qp n).st = .active) (hm : (s.qp n).mode = .ert)
    (hf : (s.qp n).flight.find? (fun f => f.psn == psn) = some f) (hr : f.retryWait = false) (ho : f.otherAcked = false) :
    doTink n psn s = resend n psn (some f.path) (fun x => { x with sends := x.sends + 1, tinks := x.tinks + b2n false })
      ((count (s.ctx (s.qp n).ctx).slice 17 s).updQp n (fun q => q.loss f s.ticks)) := by
  simp only [doTink, hf, qpMaySend_of_active hst ha, hr, hm, ho]
  rfl

/-- The sixteenth counted tink ends the QP (R168). -/
theorem doTink_of_last (hst : s.fc.dstate = .normal) (ha : (s.qp n).st = .active) (hm : (s.qp n).mode = .ert)
    (hf : (s.qp n).flight.find? (fun f => f.psn == psn) = some f) (hr : f.retryWait = false) (ho : f.otherAcked = true) (ht : 15 ≤ f.tinks) :
    doTink n psn s = qpError n 1 ((flightOp (s.qp n) f).map (fun k => (k.1, k.2, stTransport, 1)))
      ((count (s.ctx (s.qp n).ctx).slice 16 s).updQp n (fun q => q.loss f s.ticks)) := by
  simp only [doTink, hf, qpMaySend_of_active hst ha, hr, hm, ho, ht, decide_true]
  rfl

theorem noProgress_of_oldest (hst : s.fc.dstate = .normal) (ha : (s.qp n).st = .active)
    (hf : (s.qp n).flight.find? (fun f => f.psn == oldestPsn (s.qp n)) = some f) :
    noProgress n s = qpError n 2 ((flightOp (s.qp n) f).map (fun k => (k.1, k.2, stTransport, 2))) s := by
  have hne : (s.qp n).flight.isEmpty = false := by
    rw [List.isEmpty_eq_false_iff]
    rintro h
    simp [h] at hf
  simp only [noProgress, hne, qpMaySend_of_active hst ha, hf]
  rfl

end

theorem rxStall_of_ring (hst : s.fc.dstate = .normal) {i : Nat} {t : Tracker} (ht : Tab.get s.trackers i = some t) (hu : t.use = .ring) :
    rxStall i s = qpError t.qpn 3 none (closeTracker i s) := by
  simp [rxStall, ht, hu, running_of_normal hst]

theorem holdEnds_of_sick (hst : s.fc.dstate = .normal) {path : Nat} (hs : ((s.qp n).path path).sick = true)
    (hp : ((s.qp n).path path).portDown = false) :
    holdEnds n path s =
      pumpQp 1024 n (s.updQp n (fun q => q.updPath path (fun p => { p with sick := false, trial := true, weight := 1, credit := 1 }))) := by
  simp [holdEnds, running_of_normal hst, hs, hp]

/-- The end of a packet's delay lifts its hold, and sends it again where it waits for that (R169, R170). -/
theorem retryNow_of_sender (hst : s.fc.dstate = .normal) (ha : (s.qp n).st = .active) (psn : BitVec 32) :
    retryNow n psn s = (fun t => pumpQp 1024 n (
        if (s.qp n).flight.any (fun f => f.psn == psn && f.retryWait) then resend n psn none (fun x => { x with sends := 1, tinks := 0 }) t
        else t))
      (s.updQp n (fun q => { q with msgs := q.msgs.map (fun m => { m with busyHold := m.busyHold.filter (· ≠ psn) }) })) := by
  simp only [retryNow, qpMaySend_of_active hst ha]
  rfl

theorem pageHeld_of_faulted (hst : s.fc.dstate = .normal) {psn : BitVec 32} {h : ErtPkt × Nat}
    (hh : (s.qp n).held.find? (fun h => h.1.hdr.psn == psn) = some h) (hf : faulted s (.place n psn) = true) :
    pageHeld n psn s = pageNak n h.1 (forgetSeen (.place n psn) (s.updQp n (fun q => { q with held := q.held.erase h }))) := by
  simp [pageHeld, hh, hf, running_of_normal hst]

end

/-- Settles O28, by one lemma for each timer. -/
theorem transportTimersActOnTheirQp : Obligations.TransportTimersActOnTheirQp := by
  intro s n hst ha hm
  refine ⟨fun d hd ht hi => ?_, fun hd => ?_, fun psn f hf hr => ⟨fun ho => ?_, fun ho ht => ?_⟩, fun f hf => ?_, fun i t ht hq hu => ?_,
    fun path hs hp => ?_, fun psn => ⟨fun hw => ?_, fun hw => ?_⟩, fun psn h hh hf => ?_⟩
  · obtain ⟨h0, h1⟩ := deliverNext_of_next hst ha hm hd ht hi
    exact ⟨fun hop => congrArg _ (h0 hop), fun hop => congrArg _ (h1 hop)⟩
  · rw [exec_ackTimer, ackDue_of_due hst ha hm hd]
  · rw [exec_tink, doTink_of_alone hst ha hm hf hr ho]
  · rw [exec_tink, doTink_of_last hst ha hm hf hr ho ht]
  · rw [exec_noProgressTimeout, noProgress_of_oldest hst ha hf]
  · rw [exec_rxStalled, rxStall_of_ring hst ht hu, hq]
  · rw [exec_sickHoldExpiry, holdEnds_of_sick hst hs hp]
  · rw [exec_retryDelayExpiry, retryNow_of_sender hst ha, hw]; rfl
  · rw [exec_retryDelayExpiry, retryNow_of_sender hst ha, hw]; rfl
  · have hne : ((s.qp n).mode == .roce) = false := by rw [hm]; rfl
    rw [exec_pageHoldTimeout, hne, pageHeld_of_faulted hst hh hf]
    rfl

end Sys2Proof.Machine
end

section
/-! What starts and moves work keeps the set of QP numbers: only their records change (05 R144). -/

namespace Sys2Proof.Machine

/-- The numbers of the QPs that exist. -/
def qpNumbers (s : State) : List Nat := s.qps.map (·.1)

theorem get_eq_none_iff {α : Type} {t : Tab α} {i : Nat} : Tab.get t i = none ↔ i ∉ t.map (·.1) := by
  induction t with
  | nil => simp
  | cons p t ih =>
    obtain ⟨k, v⟩ := p
    by_cases h : i = k <;> simp [Tab.get, h, ih]

@[simp] theorem qpNumbers_updQp (s : State) (n : Nat) (f : Qp → Qp) : qpNumbers (s.updQp n f) = qpNumbers s := by
  simp only [qpNumbers, State.updQp, Tab.adj, List.map_map]
  refine List.map_congr_left fun p _ => ?_
  simp only [Function.comp]
  split <;> rfl

section
variable {α β : Type}

/-- A fold whose steps keep the numbers keeps them, where the state is a part of what is carried. -/
theorem qpNumbers_foldl_of (π : β → State) {f : β → α → β} (h : ∀ b x, qpNumbers (π (f b x)) = qpNumbers (π b)) (l : List α) (b : β) :
    qpNumbers (π (l.foldl f b)) = qpNumbers (π b) := by
  induction l generalizing b with
  | nil => rfl
  | cons x l ih => rw [List.foldl_cons, ih, h]

theorem qpNumbers_foldl {f : State → α → State} (h : ∀ s x, qpNumbers (f s x) = qpNumbers s) (l : List α) (s : State) :
    qpNumbers (l.foldl f s) = qpNumbers s := qpNumbers_foldl_of id h l s

end

@[simp] theorem qpNumbers_ite (c : Prop) [Decidable c] (s t : State) :
    qpNumbers (if c then s else t) = if c then qpNumbers s else qpNumbers t := apply_ite qpNumbers c s t

section
variable (s : State)

@[simp] theorem qpNumbers_updSc (f) : qpNumbers (updSc f s) = qpNumbers s := rfl
@[simp] theorem qpNumbers_updLink (n f) : qpNumbers (s.updLink n f) = qpNumbers s := rfl
@[simp] theorem qpNumbers_updMod (n f) : qpNumbers (s.updMod n f) = qpNumbers s := rfl
@[simp] theorem qpNumbers_updLport (n f) : qpNumbers (s.updLport n f) = qpNumbers s := rfl
@[simp] theorem qpNumbers_updXlt (f) : qpNumbers (s.updXlt f) = qpNumbers s := rfl
@[simp] theorem qpNumbers_updOp (n i f) : qpNumbers (s.updOp n i f) = qpNumbers s := rfl
@[simp] theorem qpNumbers_updExt (n i k f) : qpNumbers (updExt n i k f s) = qpNumbers s := rfl
@[simp] theorem qpNumbers_emit (e) : qpNumbers (emit e s) = qpNumbers s := rfl
@[simp] theorem qpNumbers_count (a b) : qpNumbers (count a b s) = qpNumbers s := rfl
@[simp] theorem qpNumbers_countBy (a b n) : qpNumbers (countBy a b n s) = qpNumbers s := rfl
@[simp] theorem qpNumbers_addUse (u) : qpNumbers (addUse u s) = qpNumbers s := rfl
@[simp] theorem qpNumbers_forgetSeen (p) : qpNumbers (forgetSeen p s) = qpNumbers s := rfl
@[simp] theorem qpNumbers_unsee (p c i pg) : qpNumbers (unsee p c i pg s) = qpNumbers s := rfl
@[simp] theorem qpNumbers_cacheTouch (c i pg g) : qpNumbers (cacheTouch c i pg g s) = qpNumbers s := rfl
@[simp] theorem qpNumbers_egressPut (lp e) : qpNumbers (egressPut lp e s) = qpNumbers s := rfl

/-! ### Requests to a host and to the die links -/

@[simp] theorem qpNumbers_cwcYield (l a n) : qpNumbers (cwcYield l a n s) = qpNumbers s := by
  refine qpNumbers_foldl (fun s x => ?_) _ s
  dsimp only
  split <;> rfl

@[simp] theorem qpNumbers_hostSend (l r) : qpNumbers (hostSend l r s) = qpNumbers s := by
  simp only [hostSend, qpNumbers_ite, qpNumbers_updLink, qpNumbers_emit, qpNumbers_cwcYield, ite_self]

@[simp] theorem qpNumbers_sendMsix (l v) : qpNumbers (sendMsix l v s) = qpNumbers s := by
  simp only [sendMsix, qpNumbers_ite, qpNumbers_updLink, qpNumbers_count, qpNumbers_hostSend, ite_self]

@[simp] theorem qpNumbers_hostRequest (l r) : qpNumbers (hostRequest l r s) = qpNumbers s := by
  simp only [hostRequest, qpNumbers_ite, qpNumbers_updLink, qpNumbers_hostSend, ite_self]

@[simp] theorem qpNumbers_hostWrite (l p a d f) : qpNumbers (hostWrite l p a d f s) = qpNumbers s :=
  qpNumbers_foldl (fun s _ => qpNumbers_hostSend s _ _) _ s

@[simp] theorem qpNumbers_hostRead (l sl a n p) : qpNumbers (hostRead l sl a n p s).2 = qpNumbers s :=
  qpNumbers_foldl_of Prod.snd (fun r _ => qpNumbers_hostRequest r.2 _ _) _ (0, s)

@[simp] theorem qpNumbers_dlSend (m c) : qpNumbers (dlSend m c s) = qpNumbers s := by
  simp only [dlSend, dlSendNow, qpNumbers_ite, qpNumbers_updMod, qpNumbers_count, qpNumbers_emit, ite_self]

@[simp] theorem qpNumbers_askBack (l n w p c) : qpNumbers (askBack l n w p c s) = qpNumbers s := by
  simp only [askBack, qpNumbers_ite, qpNumbers_count, qpNumbers_emit]
  exact ite_self _

end

theorem qpNumbers_dlIssueNow {s t : State} {p : Purpose} {c : DlCmd} (h : dlIssueNow p c s = some t) : qpNumbers t = qpNumbers s := by
  simp only [dlIssueNow] at h
  split at h <;> cases h
  simp only [qpNumbers_dlSend, qpNumbers_updMod]

theorem qpNumbers_dlIssue {s t : State} {p : Purpose} {c : DlCmd} (h : dlIssue p c s = some t) : qpNumbers t = qpNumbers s := by
  simp only [dlIssue] at h
  split at h
  · cases h
  split at h
  · cases h; exact qpNumbers_askBack ..
  · cases h; rfl
  · exact qpNumbers_dlIssueNow h

/-- A request that no module takes changes nothing. -/
@[simp] theorem qpNumbers_dlIssue_getD (p : Purpose) (c : DlCmd) (s : State) : qpNumbers ((dlIssue p c s).getD s) = qpNumbers s := by
  cases h : dlIssue p c s with
  | none => rfl
  | some t => exact qpNumbers_dlIssue h

section
variable (s : State)

@[simp] theorem qpNumbers_memRead (c a n p) : qpNumbers (memRead c a n p s).2.2 = qpNumbers s := by
  unfold memRead
  split
  · exact qpNumbers_hostRead ..
  · refine qpNumbers_foldl_of (fun r : Nat × Bool × State => r.2.2) (fun r x => ?_) _ _
    split
    · rfl
    · next h => exact qpNumbers_dlIssue h

@[simp] theorem qpNumbers_memWrite (c a d f p) : qpNumbers (memWrite c a d f p s).2.2 = qpNumbers s := by
  unfold memWrite
  split
  · exact qpNumbers_hostWrite ..
  · refine qpNumbers_foldl_of (fun r : Nat × Bool × State => r.2.2) (fun r x => ?_) _ _
    split
    · rfl
    · next h => exact qpNumbers_dlIssue h

@[simp] theorem qpNumbers_sampleHost (c e v) : qpNumbers (sampleHost c e v s) = qpNumbers s := by
  simp only [sampleHost, memAtomic, qpNumbers_ite, qpNumbers_dlIssue_getD, qpNumbers_updXlt, ite_self]

@[simp] theorem qpNumbers_sampleAll (c e v l) : qpNumbers (sampleAll c e v l s) = qpNumbers s := by
  unfold sampleAll
  split
  · exact qpNumbers_foldl (fun s _ => qpNumbers_sampleHost s _ _ _) _ s
  · rfl

@[simp] theorem qpNumbers_extRead (c e v n p) : qpNumbers (extRead c e v n p s).2.2 = qpNumbers s := by
  simp only [extRead, qpNumbers_sampleAll, qpNumbers_memRead]

@[simp] theorem qpNumbers_extWrite (c e v d p) : qpNumbers (extWrite c e v d p s).2.2 = qpNumbers s := by
  simp only [extWrite, extPut, qpNumbers_sampleAll, qpNumbers_memWrite]

/-! ### Translation and its faults -/

@[simp] theorem qpNumbers_issueWalk (k) : qpNumbers (issueWalk k s) = qpNumbers s := by
  unfold issueWalk
  split
  · rfl
  · simp only [qpNumbers_dlIssue_getD, qpNumbers_count, qpNumbers_updXlt]

@[simp] theorem qpNumbers_pumpWalks (f) : qpNumbers (pumpWalks f s) = qpNumbers s := by
  induction f generalizing s with
  | zero => rfl
  | succ f ih =>
    simp only [pumpWalks]
    split
    · rfl
    split
    · rfl
    · simp only [ih, qpNumbers_issueWalk, qpNumbers_updXlt]

@[simp] theorem qpNumbers_askWalk (p st c i pg k) : qpNumbers (askWalk p st c i pg k s) = qpNumbers s := by
  simp only [askWalk, qpNumbers_ite, qpNumbers_pumpWalks, qpNumbers_updXlt, ite_self]

@[simp] theorem qpNumbers_prefetch (st c i pg) : qpNumbers (prefetch st c i pg s) = qpNumbers s :=
  qpNumbers_foldl (fun s _ => by simp only [qpNumbers_ite, qpNumbers_askWalk, ite_self]) _ s

@[simp] theorem qpNumbers_reportFault (e) : qpNumbers (reportFault e s) = qpNumbers s := by
  unfold reportFault
  split
  · rfl
  · simp only [fringWrite, qpNumbers_ite, qpNumbers_updXlt, qpNumbers_count, qpNumbers_sendMsix, qpNumbers_hostWrite, ite_self]

@[simp] theorem qpNumbers_latchFault (l) : qpNumbers (latchFault l s) = qpNumbers s := by
  simp only [latchFault, qpNumbers_ite, qpNumbers_updXlt, ite_self]

@[simp] theorem qpNumbers_raiseFault (j c i pg) : qpNumbers (raiseFault j c i pg s) = qpNumbers s := by
  simp only [raiseFault, raiseAgain]
  split
  · exact qpNumbers_latchFault ..
  split
  · simp only [qpNumbers_updXlt, qpNumbers_ite, qpNumbers_count, ite_self]
  split
  · simp only [Bool.false_eq_true, if_false, qpNumbers_count, qpNumbers_latchFault]
  · simp only [qpNumbers_reportFault, qpNumbers_count, qpNumbers_updXlt]

@[simp] theorem qpNumbers_translateOr (p st a) : qpNumbers (translateOr p st a s).2 = qpNumbers s := by
  unfold translateOr
  split
  · simp only [fenceWait, qpNumbers_ite, qpNumbers_updXlt, ite_self]
  split
  · simp only [qpNumbers_ite, qpNumbers_prefetch, qpNumbers_count, qpNumbers_cacheTouch, ite_self]
  · simp only [qpNumbers_ite, qpNumbers_askWalk, ite_self]
  · simp only [qpNumbers_raiseFault, qpNumbers_unsee]
  · rfl

@[simp] theorem qpNumbers_xlateRange (p st a l f o n) : qpNumbers (xlateRange p st a l f o n s).2 = qpNumbers s := by
  induction f generalizing o n s with
  | zero => rfl
  | succ f ih =>
    simp only [xlateRange]
    split
    · rfl
    split
    · split
      · next h => exact (congrArg (fun r => qpNumbers r.2) h).symm.trans (ih ..)
      · exact ih ..
    · split
      · next h =>
        have hs := (congrArg (fun r => qpNumbers r.2) h).symm.trans (qpNumbers_translateOr ..)
        split
        · next h' => exact ((congrArg (fun r => qpNumbers r.2) h').symm.trans (ih ..)).trans hs
        · exact (ih ..).trans hs
      · next h => exact (congrArg (fun r => qpNumbers r.2) h).symm.trans (qpNumbers_translateOr ..)
      · next h => exact (congrArg (fun r => qpNumbers r.2) h).symm.trans (qpNumbers_translateOr ..)

end

/-! ### The State Cache, and what a QP sends -/

section
variable (s : State)

@[simp] theorem qpNumbers_stashAsk (p c o) : qpNumbers (stashAsk p c o s) = qpNumbers s := by
  unfold stashAsk
  split
  · rfl
  · exact qpNumbers_dlIssue_getD ..

@[simp] theorem qpNumbers_stashFill (l b) : qpNumbers (stashFill l b s) = qpNumbers s :=
  qpNumbers_foldl (fun s _ => qpNumbers_stashAsk s _ _ _) _ s

@[simp] theorem qpNumbers_stashSectors (l b) : qpNumbers (stashSectors l b s) = qpNumbers s :=
  qpNumbers_foldl (fun s _ => qpNumbers_stashAsk s _ _ _) _ (drawFree s).2

@[simp] theorem qpNumbers_scDrop (k) : qpNumbers (scDrop k s) = qpNumbers s := by
  simp only [scDrop, qpNumbers_updSc, scWriteBack]
  split
  · rfl
  · simp only [qpNumbers_ite, qpNumbers_updSc, qpNumbers_count, qpNumbers_stashSectors, ite_self]

@[simp] theorem qpNumbers_scTouch (l b w) : qpNumbers (scTouch l b w s) = qpNumbers s := by
  simp only [scTouch]
  split
  · simp only [qpNumbers_updSc, qpNumbers_stashFill, qpNumbers_count]
  split
  · simp only [qpNumbers_updSc, qpNumbers_stashFill, qpNumbers_count]
  split
  · simp only [qpNumbers_updSc, qpNumbers_scDrop, qpNumbers_stashFill, qpNumbers_count]
  · simp only [qpNumbers_updSc, qpNumbers_stashFill, qpNumbers_count]

@[simp] theorem qpNumbers_touchQp (n) : qpNumbers (touchQp n s) = qpNumbers s := by
  have hrec : qpNumbers (scRecord (0x07000000 + 512 * n) 512 true s) = qpNumbers s :=
    qpNumbers_foldl (fun s _ => qpNumbers_scTouch s _ _ _) _ s
  simp only [touchQp, keepResidents]
  split
  · exact hrec
  split
  · exact hrec
  · exact (qpNumbers_foldl (fun s _ => qpNumbers_scDrop s _) _ _).trans hrec

@[simp] theorem qpNumbers_ertQueue (n path h d) : qpNumbers (ertQueue n path h d s) = qpNumbers s := by
  simp only [ertQueue, qpNumbers_egressPut, qpNumbers_count, qpNumbers_countBy, qpNumbers_touchQp]

@[simp] theorem qpNumbers_sendNext (n i) : qpNumbers (sendNext n i s) = qpNumbers s := by
  simp only [sendNext]
  split
  · rfl
  split
  · rfl
  · simp only [qpNumbers_ertQueue, qpNumbers_updQp]

@[simp] theorem qpNumbers_pumpQp (f n) : qpNumbers (pumpQp f n s) = qpNumbers s := by
  induction f generalizing s with
  | zero => rfl
  | succ f ih =>
    simp only [pumpQp]
    split
    · rfl
    split
    · rfl
    · rw [ih, qpNumbers_sendNext]

@[simp] theorem qpNumbers_sendMsg (n m) : qpNumbers (sendMsg n m s) = qpNumbers s := by
  simp only [sendMsg, qpNumbers_pumpQp, qpNumbers_updQp]

theorem qpNumbers_openTracker {s t : State} {k : Tracker} {i : Nat} (h : openTracker k s = some (i, t)) : qpNumbers t = qpNumbers s := by
  simp only [openTracker] at h
  split at h
  · cases h
  split at h
  · cases h
  · cases h
    exact qpNumbers_updQp ..

@[simp] theorem qpNumbers_roceSend (n os) : qpNumbers (roceSend n os s) = qpNumbers s := by
  have hput : ∀ t : State, qpNumbers (os.foldl (fun s o => s.updQp n (fun q => q.updRoce (fun r => { r with
      queue := r.queue ++ [{ o with pkt := { o.pkt with psn := r.sndNext } }]
      sndNext := r.sndNext + BitVec.ofNat 24 o.span }))) t) = qpNumbers t :=
    fun t => qpNumbers_foldl (fun s _ => qpNumbers_updQp s _ _) _ t
  simp only [roceSend, pumpRoce]
  split
  · exact hput s
  · refine (qpNumbers_foldl (fun s o => ?_) _ _).trans ((qpNumbers_updQp ..).trans (hput s))
    simp only [roceQueue, qpNumbers_egressPut, qpNumbers_count, qpNumbers_countBy]

/-! ### Work extents -/

@[simp] theorem qpNumbers_extEnd (a b i ok) : qpNumbers (extEnd a b i ok s) = qpNumbers s := by
  simp only [extEnd, settleOp]
  split
  · rfl
  split
  · rfl
  split
  · simp only [qpNumbers_ite, qpNumbers_hostRead, qpNumbers_updOp, qpNumbers_updExt, ite_self]
  · rfl

@[simp] theorem qpNumbers_extFail (a b i c e) : qpNumbers (extFail a b i c e s) = qpNumbers s := by
  simp only [extFail]
  split
  · split
    · simp only [qpNumbers_extEnd, extCause, qpNumbers_updExt]
    · rfl
  · rfl

/-- A translated range keeps the numbers, and so do its uses. -/
theorem qpNumbers_xlateRange_uses {p st a l f o n} {r : XRange} {s t : State} (h : xlateRange p st a l f o n s = (r, t)) (us : List TUse) :
    qpNumbers (us.foldl (fun s u => addUse u s) (forgetSeen p t)) = qpNumbers s :=
  (qpNumbers_foldl (fun s u => qpNumbers_addUse s u) _ _).trans
    ((congrArg (fun r => qpNumbers r.2) h).symm.trans (qpNumbers_xlateRange s p st a l f o n))

@[simp] theorem qpNumbers_extWriteOut (a b i) : qpNumbers (extWriteOut a b i s) = qpNumbers s := by
  simp only [extWriteOut]
  split
  · rfl
  split
  · next h => exact qpNumbers_xlateRange_uses h []
  · next h => rw [qpNumbers_extFail]; exact qpNumbers_xlateRange_uses h []
  · next us _ h =>
    simp only [qpNumbers_ite, qpNumbers_extFail, qpNumbers_extEnd, qpNumbers_updExt, ite_self]
    refine (qpNumbers_foldl_of (fun r : Nat × Nat × State => r.2.2) (fun r p => ?_) _ _).trans (qpNumbers_xlateRange_uses h us)
    simp only [qpNumbers_ite, qpNumbers_updOp, qpNumbers_extWrite, ite_self]

@[simp] theorem qpNumbers_extSend (a b i) : qpNumbers (extSend a b i s) = qpNumbers s := by
  simp only [extSend]
  split
  · rfl
  split
  · rfl
  have hcause : ∀ (c : Prop) [Decidable c] (x y : Nat), qpNumbers (if c then s else extCause a b i x y s) = qpNumbers s := fun c _ x y => by
    simp only [qpNumbers_ite, extCause, qpNumbers_updExt, ite_self]
  split
  · rw [qpNumbers_extEnd, hcause]
  split
  · rw [qpNumbers_roceSend, qpNumbers_updExt, hcause]
  · refine (qpNumbers_foldl (fun s p => ?_) _ _).trans ?_
    · simp only [qpNumbers_sendMsg, qpNumbers_ite, qpNumbers_updQp, ite_self]
    · rw [qpNumbers_updExt, hcause]

@[simp] theorem qpNumbers_sendReady (a b) : qpNumbers (sendReady a b s) = qpNumbers s := by
  unfold sendReady
  split
  · rfl
  · refine qpNumbers_foldl (fun s i => ?_) _ s
    split
    · rfl
    · simp only [qpNumbers_ite, qpNumbers_extSend, ite_self]

@[simp] theorem qpNumbers_extGathered (a b i) : qpNumbers (extGathered a b i s) = qpNumbers s := by
  unfold extGathered
  split
  · rfl
  · simp only [qpNumbers_ite, qpNumbers_extEnd, qpNumbers_extFail, qpNumbers_extWriteOut, qpNumbers_sendReady, qpNumbers_updExt, ite_self]

@[simp] theorem qpNumbers_extReadIn (a b i) : qpNumbers (extReadIn a b i s) = qpNumbers s := by
  simp only [extReadIn]
  split
  · rfl
  split
  · rw [qpNumbers_extGathered, qpNumbers_updExt]
  split
  · exact qpNumbers_extGathered ..
  split
  · next h => exact qpNumbers_xlateRange_uses h []
  · next h => rw [qpNumbers_extFail]; exact qpNumbers_xlateRange_uses h []
  · next us _ h =>
    simp only [qpNumbers_ite, qpNumbers_extFail, qpNumbers_updExt, ite_self]
    refine (qpNumbers_foldl_of (fun r : Nat × Nat × State => r.2.2) (fun r p => ?_) _ _).trans (qpNumbers_xlateRange_uses h us)
    exact qpNumbers_extRead ..

@[simp] theorem qpNumbers_roceAsk (a b i) : qpNumbers (roceAsk a b i s) = qpNumbers s := by
  unfold roceAsk
  split
  · rfl
  split
  · rfl
  · exact qpNumbers_roceSend ..

@[simp] theorem qpNumbers_extRequest (a b i) : qpNumbers (extRequest a b i s) = qpNumbers s := by
  simp only [extRequest]
  split
  · rfl
  split
  · rfl
  split
  · rfl
  split
  · rw [qpNumbers_roceAsk, qpNumbers_updExt]
  split
  · rfl
  · next h => rw [qpNumbers_sendMsg, qpNumbers_updExt, qpNumbers_openTracker h]

@[simp] theorem qpNumbers_extStart (a b i) : qpNumbers (extStart a b i s) = qpNumbers s := by
  simp only [extStart]
  split
  · rfl
  split
  · rfl
  split
  · split
    · rfl
    · rw [qpNumbers_extReadIn, qpNumbers_updExt]
  · simp only [qpNumbers_ite, qpNumbers_extReadIn, qpNumbers_updExt, ite_self]
  · simp only [qpNumbers_ite, qpNumbers_extReadIn, qpNumbers_updExt, ite_self]
  · exact qpNumbers_extRequest ..
  · exact qpNumbers_extRequest ..
  · rfl

@[simp] theorem qpNumbers_startExts (a b) : qpNumbers (startExts a b s) = qpNumbers s := by
  unfold startExts
  split
  · rfl
  · rw [qpNumbers_sendReady]
    exact qpNumbers_foldl (fun s i => qpNumbers_extStart s a b i) _ s

/-- Work that goes on makes no QP and ends none. -/
theorem qpNumbers_pumpWork : qpNumbers (pumpWork s) = qpNumbers s :=
  qpNumbers_foldl (fun s _ => qpNumbers_startExts s _ _) _ s

end

end Sys2Proof.Machine
end

section
/-! The grant engine and a port's egress (06 R188, R193, R196), RoCEv2 timers and the end of a QP (05, 06), layers and groups (07, 09). -/

namespace Sys2Proof.Machine

theorem exec_grantResend (i : Nat) (s : State) : exec (.grantResend i) s = execGrantResend i s := rfl
theorem exec_grantReclaim (i : Nat) (s : State) : exec (.grantReclaim i) s = .next (updTracker i (fun t =>
    if 0 < grantedAhead s t && running s then { t with reclaimed := true } else t) s) := rfl
theorem exec_grantEngine (r : Nat) (gs : List (Nat × Nat)) (s : State) : exec (.grantEngine r gs) s = .next (grantRun r gs s) := rfl
theorem exec_egressPacketSelect (lp r : Nat) (s : State) : exec (.egressPacketSelect lp r) s = .next (egressNext lp r s) := rfl
theorem exec_dcqcnAlphaTimer (n : Nat) (s : State) : exec (.dcqcnAlphaTimer n) s = execDcqcnAlphaTimer n s := rfl
theorem exec_dcqcnIncreaseTimer (n : Nat) (b : Bool) (s : State) : exec (.dcqcnIncreaseTimer n b) s = execDcqcnIncreaseTimer n b s := rfl
theorem exec_roceAckTimeout (n : Nat) (s : State) : exec (.roceAckTimeout n) s = execRoceAckTimeout n s := rfl
theorem exec_rnrTimerExpiry (n : Nat) (s : State) : exec (.rnrTimerExpiry n) s = execRnrTimerExpiry n s := rfl
theorem exec_qpDrainTimeout (n : Nat) (s : State) : exec (.qpDrainTimeout n) s = execQpDrainTimeout n s := rfl
theorem exec_qpFreed (n : Nat) (s : State) : exec (.qpFreed n) s = execQpFreed n s := rfl
theorem exec_layerOpen (sq idx : Nat) (s : State) : exec (.layerOpen sq idx) s =
    .next (if running (skOpen sq idx s) then skEnd sq idx (skOpen sq idx s) else skOpen sq idx s) := rfl
theorem exec_helloTimer (g : Nat) (s : State) : exec (.helloTimer g) s = execHelloTimer g s := rfl
theorem exec_formationTimeout (g : Nat) (s : State) : exec (.formationTimeout g) s = execFormationTimeout g s := rfl
theorem exec_slotAssign (g : Nat) (s : State) : exec (.slotAssign g) s = execSlotAssign g s := rfl
theorem exec_progressTimeout (g q : Nat) (s : State) : exec (.progressTimeout g q) s = execProgressTimeout g q s := rfl
theorem exec_groupFree (g : Nat) (s : State) : exec (.groupFree g) s = execGroupFree g s := rfl

/-! ### Grants and egress -/

section
variable {s : State}

theorem exec_grantResend_of_paced (hst : s.fc.dstate = .normal) {i : Nat} {t : Tracker} (ht : Tab.get s.trackers i = some t)
    (ha : 0 < grantedAhead s t) (hp : grantPaced t.op = true) (hu : t.use ≠ .roce) : exec (.grantResend i) s = .next (sendGrant t s) := by
  simp [exec_grantResend, execGrantResend, ht, ha, hp, hu, running_of_normal hst, done]

theorem exec_grantReclaim_of_normal (hst : s.fc.dstate = .normal) (i : Nat) :
    exec (.grantReclaim i) s = .next (updTracker i (fun u => if 0 < grantedAhead s u then { u with reclaimed := true } else u) s) := by
  simp only [exec_grantReclaim, running_of_normal hst, Bool.and_true, decide_eq_true_eq]

theorem grantRun_of_normal (hst : s.fc.dstate = .normal) (refill : Nat) (gs : List (Nat × Nat)) :
    grantRun refill gs s = grantLoop 65536 { s with grants := { s.grants with
      pace := min (budget s : Int) (s.grants.pace + refill)
      guar := gs.foldl (fun g e => if guarIn s e.1 = 0 then g else Tab.put g e.1 (min (2 * grantChunk s : Int) (Tab.getD g e.1 0 + e.2)))
        s.grants.guar } } := by
  simp only [grantRun, running_of_normal hst, Bool.not_true, Bool.false_eq_true, if_false]

end

/-- A port's bucket as its egress begins: the refill joins it, up to 16,384 bytes. -/
def refilled (lp refill : Nat) (s : State) : State := s.updLport lp (fun l => { l with tokens := min 16384 (l.tokens + refill) })

section
variable {s : State} {lp refill : Nat}

/-- A port's control packets go first, those the bucket does not cover in their class (R188). -/
theorem egressNext_of_control (hp : portReady s lp = true) {c : TxEntry} {rest : List TxEntry}
    (hc : ((refilled lp refill s).lport lp).control = c :: rest) :
    egressNext lp refill s = if c.bytes ≤ ((refilled lp refill s).lport lp).tokens then
        portSend lp c.frame ((refilled lp refill s).updLport lp (fun l => { l with control := rest, tokens := l.tokens - c.bytes }))
      else count 523 6 ((refilled lp refill s).updLport lp (fun l =>
        { l with control := rest, egress := Tab.upd l.egress c.tc [] (· ++ [c]) })) := by
  simp only [refilled] at hc ⊢
  simp only [egressNext, hp, hc, Bool.not_true, Bool.false_eq_true, if_false]
  rfl

/-- Without one, a packet of the class whose turn it is goes (R188). -/
theorem egressNext_of_class (hp : portReady s lp = true) (hc : ((refilled lp refill s).lport lp).control = []) {tc : Nat} {e : TxEntry}
    {d : Tab Nat} (hpick : egressPick (refilled lp refill s) ((refilled lp refill s).lport lp) 8192 ((refilled lp refill s).lport lp).nextTc
      ((refilled lp refill s).lport lp).deficit = some (tc, e, d)) :
    egressNext lp refill s = portSend lp e.frame ((refilled lp refill s).updLport lp (fun l =>
      { l with nextTc := tc, deficit := d, egress := Tab.put l.egress tc ((Tab.getD l.egress tc []).erase e) })) := by
  simp only [refilled] at hc hpick ⊢
  simp only [egressNext, hp, hc, hpick, Bool.not_true, Bool.false_eq_true, if_false]

end

/-- Settles O29: the engine's commands by their tests, the egress by what waits at the port. -/
theorem grantsAndEgress : Obligations.GrantsAndEgress := by
  refine ⟨fun s i t hst ht ha => ⟨fun hp hu => exec_grantResend_of_paced hst ht ha hp hu, exec_grantReclaim_of_normal hst i⟩,
    fun s refill gs hst => by rw [exec_grantEngine, grantRun_of_normal hst], fun s lp refill hp => ⟨fun c rest hc hfit => ?_,
      fun c rest hc hfit => ?_, fun tc e d hc hpick => ?_⟩⟩
  · rw [exec_egressPacketSelect, egressNext_of_control hp hc]
    exact congrArg _ (if_pos hfit)
  · rw [exec_egressPacketSelect, egressNext_of_control hp hc]
    exact congrArg _ (if_neg (Nat.not_le.2 hfit))
  · rw [exec_egressPacketSelect, egressNext_of_class hp hc hpick]
    rfl

/-! ### RoCEv2 timers (R182, R205) and the end of a QP (R144) -/

section
variable {s : State} {n : Nat}

theorem roceLive_of_active (hst : s.fc.dstate = .normal) (hm : (s.qp n).mode = .roce) (ha : (s.qp n).st = .active) :
    roceLive s (s.qp n) = true := by
  simp [roceLive, hm, ha, running_of_normal hst]

theorem exec_dcqcnAlphaTimer_of_roce (hst : s.fc.dstate = .normal) (hm : (s.qp n).mode = .roce) :
    exec (.dcqcnAlphaTimer n) s = .next (updRoce n (fun r => { r with alpha := r.alpha * 255 / 256 }) s) := by
  simp [exec_dcqcnAlphaTimer, execDcqcnAlphaTimer, running_of_normal hst, hm, done]

/-- The timer grows the rate always, the byte counter once it holds 10 MiB (R205). -/
theorem exec_dcqcnIncreaseTimer_of_roce (hst : s.fc.dstate = .normal) (hm : (s.qp n).mode = .roce) (byTimer : Bool) :
    exec (.dcqcnIncreaseTimer n byTimer) s = .next (if byTimer || decide (10485760 ≤ (s.qp n).roce.bytes)
      then updRoce n (fun r => { r.increase byTimer with bytes := if byTimer then r.bytes else r.bytes - 10485760 }) s else s) := by
  simp only [exec_dcqcnIncreaseTimer, execDcqcnIncreaseTimer, running_of_normal hst, hm, beq_self_eq_true, Bool.true_and, done]
  cases byTimer || decide (10485760 ≤ (s.qp n).roce.bytes) <;> simp only [Bool.not_true, Bool.not_false, Bool.false_eq_true, if_true, if_false]

theorem exec_roceAckTimeout_of_unacked (hst : s.fc.dstate = .normal) (hm : (s.qp n).mode = .roce) (ha : (s.qp n).st = .active)
    (hu : (s.qp n).roce.unacked ≠ []) (hr : (s.qp n).roce.rnrWait = false) : exec (.roceAckTimeout n) s = .next (roceRetry n s) := by
  simp [exec_roceAckTimeout, execRoceAckTimeout, roceLive_of_active hst hm ha, hu, hr, done]

/-- The end of an RNR delay goes back to the oldest packet, until the retries are spent; 7 means no limit (R182). -/
theorem exec_rnrTimerExpiry_of_waiting (hst : s.fc.dstate = .normal) (hm : (s.qp n).mode = .roce) (ha : (s.qp n).st = .active)
    (hr : (s.qp n).roce.rnrWait = true) :
    exec (.rnrTimerExpiry n) s = .next (if (s.qp n).roce.maxRnr ≠ 7 ∧ (s.qp n).roce.maxRnr ≤ (s.qp n).roce.rnrRetries
      then qpError n 9 ((roceOwner (s.qp n)).map (fun k => (k.1, k.2, stTransport, 9))) s
      else roceGoBack n (updRoce n (fun r => { r with rnrRetries := r.rnrRetries + 1 }) s)) := by
  simp [exec_rnrTimerExpiry, execRnrTimerExpiry, roceLive_of_active hst hm ha, hr, done]

theorem exec_qpDrainTimeout_of_draining (hst : s.fc.dstate = .normal) (hd : (s.qp n).st = .draining) (ha : (s.qp n).abort = false) :
    exec (.qpDrainTimeout n) s = .next (qpDrain n true s) := by
  simp [exec_qpDrainTimeout, execQpDrainTimeout, running_of_normal hst, hd, ha, done]

/-- A QP that is removed stays removed while the waiting work goes on. -/
theorem get_qps_pumpWork_del (t : State) (n : Nat) : Tab.get (pumpWork { t with qps := Tab.del t.qps n }).qps n = none :=
  have hgone : n ∉ qpNumbers (pumpWork { t with qps := Tab.del t.qps n }) := by
    rw [qpNumbers_pumpWork]
    exact get_eq_none_iff.1 (Tab.get_del_self t.qps n)
  get_eq_none_iff.2 hgone

theorem exec_qpFreed_of_idle (hst : s.fc.dstate = .normal) (hd : (s.qp n).st = .draining) (hi : qpIdle s n = true) :
    ∃ t, exec (.qpFreed n) s = .next t ∧ Tab.get t.qps n = none := by
  simp only [exec_qpFreed, execQpFreed, running_of_normal hst, hd, hi, beq_self_eq_true, Bool.and_self, if_true, done]
  exact ⟨_, rfl, get_qps_pumpWork_del _ n⟩

end

/-- Settles O30, by one lemma for each timer. -/
theorem roceTimersAndTheEndOfAQp : Obligations.RoceTimersAndTheEndOfAQp := by
  refine ⟨fun s n hst hm => ⟨exec_dcqcnAlphaTimer_of_roce hst hm, ?_, fun hb => ?_, fun hb => ?_,
    fun ha hu hr => exec_roceAckTimeout_of_unacked hst hm ha hu hr, fun ha hr => ⟨fun hlim => ?_, fun h7 hlim => ?_⟩⟩,
    fun s n hst hd => ⟨exec_qpDrainTimeout_of_draining hst hd, exec_qpFreed_of_idle hst hd⟩⟩
  · simp only [exec_dcqcnIncreaseTimer_of_roce hst hm, Bool.true_or, if_true]
    rfl
  · simp only [exec_dcqcnIncreaseTimer_of_roce hst hm, decide_eq_true hb, Bool.or_true, if_true, Bool.false_eq_true, if_false]
  · simp only [exec_dcqcnIncreaseTimer_of_roce hst hm, decide_eq_false (Nat.not_le.2 hb), Bool.or_self, Bool.false_eq_true, if_false]
  · rw [exec_rnrTimerExpiry_of_waiting hst hm ha hr, if_neg (by omega)]
  · rw [exec_rnrTimerExpiry_of_waiting hst hm ha hr, if_pos ⟨h7, hlim⟩]

/-! ### Layers and groups -/

section
variable {s : State} {g : Nat}

theorem exec_helloTimer_of_forming (hst : s.fc.dstate = .normal) (hf : (s.group g).st = .forming) :
    exec (.helloTimer g) s = .next ((unheard (s.group g)).foldl (fun s r => sendHello g r true s) s) := by
  simp [exec_helloTimer, execHelloTimer, running_of_normal hst, hf, done]

theorem exec_formationTimeout_of_forming (hst : s.fc.dstate = .normal) (hf : (s.group g).st = .forming) :
    exec (.formationTimeout g) s = .next (setGroup g (fun x => { x with st := .failed, reason := 4, lostRank := firstUnheard (s.group g) }) s) := by
  simp [exec_formationTimeout, execFormationTimeout, running_of_normal hst, hf, groupFail, done]

theorem exec_slotAssign_of_active (hst : s.fc.dstate = .normal) (ha : (s.group g).st = .active) :
    exec (.slotAssign g) s = .next (slotsGive 144 g s) := by
  simp [exec_slotAssign, execSlotAssign, running_of_normal hst, ha, done]

theorem exec_progressTimeout_of_active (hst : s.fc.dstate = .normal) {seq : Nat} {k : Coll} {o : Op} (ha : (s.group g).st = .active)
    (ht : (s.group g).timeout ≠ 15) (hc : s.coll g seq = some (k, o)) (hf : o.finished = false) :
    exec (.progressTimeout g seq) s = .next (groupFail g 1 (awaitedRank (s.group g) k o) false s) := by
  simp [exec_progressTimeout, execProgressTimeout, running_of_normal hst, ha, ht, hc, hf, done]

theorem exec_groupFree_of_drained (hst : s.fc.dstate = .normal) (hd : (s.group g).st = .draining) (hc : (s.group g).colls = [])
    (ht : s.trackers.any (fun t => t.2.use == .purl && t.2.aux.getD 0 4096 == g) = false) :
    exec (.groupFree g) s = .next { s with groups := Tab.del s.groups g } := by
  simp only [exec_groupFree, execGroupFree, running_of_normal hst, hd, hc, ht, done]
  rfl

end

/-- Settles O31: the layer's message is the one that R214 gives, and each timer has its own lemma. -/
theorem layersAndGroupsMoveOn : Obligations.LayersAndGroupsMoveOn := by
  refine ⟨fun s sq idx o qpn l y hst hop hq hl hdone hstage hstop htf h4 ha => ?_, fun s g hst => ⟨fun hf =>
    ⟨exec_helloTimer_of_forming hst hf, exec_formationTimeout_of_forming hst hf⟩, exec_slotAssign_of_active hst,
    fun seq k o ha ht hc hf => exec_progressTimeout_of_active hst ha ht hc hf, exec_groupFree_of_drained hst⟩⟩
  have hw : qpWorks (s.qp qpn) = true := by simp [qpWorks, ha]
  have hgate : (o.done || o.stage != .running || o.stop.isSome || o.skein.trigFail.isSome ||
      decide (4 ≤ (o.skein.layers.filter (fun e => layerOpen e.2)).length) || !qpWorks (s.qp qpn) || !running s) = false := by
    simp [hdone, hstage, hstop, htf, hw, running_of_normal hst, h4]
  simp only [exec_layerOpen, skOpen, hop, hq, hl, hgate, Bool.false_eq_true, if_false]

end Sys2Proof.Machine
end

section
/-! Die-link requests, responses, flits and modules (10 R308; 11 R337-R346), and the package governor (17 R461-R465). -/

namespace Sys2Proof.Machine

theorem exec_rspData (m t st : Nat) (d : List Byte) (s : State) : exec (.rspData m t st d) s = .next (dlAnswer m t false st d s) := rfl
theorem exec_rspAck (m t st : Nat) (s : State) : exec (.rspAck m t st) s = .next (dlAnswer m t true st [] s) := rfl
theorem exec_directLd (m t : Nat) (g : BitVec 24) (a : BitVec 56) (n : Nat) (s : State) :
    exec (.directLd m t g a n) s = execDirectLd m t g a n s := rfl
theorem exec_directSt (m : Nat) (g : BitVec 24) (a : BitVec 56) (d : List Byte) (s : State) :
    exec (.directSt m g a d) s = execDirectSt m g a d s := rfl
theorem exec_markerSig (m t : Nat) (g : BitVec 24) (h : BitVec 32) (o : BitVec 24) (v : Word) (s : State) :
    exec (.markerSig m t g h o v) s = execMarkerSig m t g h o v s := rfl
theorem exec_badFlit (m : Nat) (s : State) : exec (.badFlit m) s = execBadFlit m s := rfl
theorem exec_flitNak (m : Nat) (a : BitVec 8) (s : State) : exec (.flitNak m a) s = execFlitNak m a s := rfl
theorem exec_flitAckTimeout (m : Nat) (s : State) : exec (.flitAckTimeout m) s = execFlitAckTimeout m s := rfl
theorem exec_idleFlit (m : Nat) (a : Option (BitVec 8)) (q r d : Nat) (s : State) : exec (.idleFlit m a q r d) s = execIdleFlit m a q r d s := rfl
theorem exec_moduleLinkLoss (m : Nat) (b : Bool) (s : State) : exec (.moduleLinkLoss m b) s = execModuleLinkLoss m b s := rfl
theorem exec_moduleRetrainTimeout (m : Nat) (s : State) : exec (.moduleRetrainTimeout m) s = execModuleRetrainTimeout m s := rfl
theorem exec_sidebandHello (m : Nat) (k v : BitVec 8) (s : State) : exec (.sidebandHello m k v) s = execSidebandHello m k v s := rfl

/-! ### Responses, direct accesses and signals -/

section
variable {s : State} {m txn : Nat} {r : DlReq}

/-- A response of a request's own kind ends it with what the response says (R340). -/
theorem dlAnswer_of_named (hst : s.fc.dstate ≠ .halted) {wr : Bool} {status : Nat} {data : List Byte}
    (hr : Tab.get ((flitIn m true (ceilDiv data.length 256) s).mod m).reqs txn = some r) (hk : (r.cmd.cmd == 2) = wr)
    (hl : answeredLater r.purp = false) :
    dlAnswer m txn wr status data s = endUses r.purp (answer r.purp r.cmd.addr
      (if status = 0 then .data (slice data 0 (r.cmd.len + 1)) else if status = 2 then .poison (r.cmd.len + 1) caSourcePoison
        else .failed caTargetError 0x3F (r.cmd.len + 1))
      ((if wr then flitIn m true (ceilDiv data.length 256) s
        else histogram 7 (s.ticks - r.since) (flitIn m true (ceilDiv data.length 256) s)).updMod m
          (fun k => { k with reqs := Tab.del k.reqs txn }))) := by
  simp only [dlAnswer, beq_eq_false_iff_ne.2 hst, hr, hk, hl, bne_self_eq_false, Bool.and_false, Bool.false_eq_true, if_false]
  rfl

end

section
variable {s : State} {g : BitVec 24} {c : Nat}

/-- A direct access of an admitted tag that stays in its page joins its context's stream (R308). -/
theorem directTake_of_admitted (h : tagCtx s g = some c) (r : DirectReq) :
    directTake g r false s = directPump 4096 c (s.updXlt (fun x => { x with direct := Tab.upd x.direct c [] (· ++ [r]) })) := by
  simp only [directTake, h, Bool.false_eq_true, if_false]

end

/-- Settles O32, by `dlAnswer_of_named`, `directTake_of_admitted`, and the two cases of a signal's tag. -/
theorem dieLinkRequestsAndResponses : Obligations.DieLinkRequestsAndResponses := by
  refine ⟨fun s m txn data r hst hl hr => ⟨fun hk => ?_, fun hk => ?_, fun hk hd => ?_⟩,
    fun s m txn tag cva c len hst hpos hlen hpage => ⟨fun hc => ?_, fun data hd hc => ?_⟩,
    fun s m txn tag h off v hst => ⟨fun c hc => ?_, fun hc => ?_⟩⟩
  · rw [exec_rspData, dlAnswer_of_named hst hr (beq_eq_false_iff_ne.2 hk) hl]
    rfl
  · rw [exec_rspData, dlAnswer_of_named hst hr (beq_eq_false_iff_ne.2 hk) hl]
    rfl
  · subst hd
    rw [exec_rspAck, dlAnswer_of_named hst hr (beq_iff_eq.2 hk) hl]
    rfl
  · have hbad : (decide (len = 0) || decide (256 < len) || decide (4096 < cva.toNat % 4096 + len)) = false := by
      simp; omega
    simp only [exec_directLd, execDirectLd, whenRunning_of_normal hst, hbad, directTake_of_admitted hc, done]
  · subst hd
    have hbad : (data.isEmpty || decide (4096 < cva.toNat % 4096 + data.length)) = false := by
      have hne : data ≠ [] := List.ne_nil_of_length_pos (by omega)
      simp [hne]; omega
    simp only [exec_directSt, execDirectSt, whenRunning_of_normal hst, hbad, directTake_of_admitted hc, done]
  · simp only [exec_markerSig, execMarkerSig, whenRunning_of_normal hst, hc, done]
  · simp only [exec_markerSig, execMarkerSig, whenRunning_of_normal hst, hc, done]

/-! ### Flits and modules -/

section
variable {s : State} {m : Nat}

/-- A bad flit is counted, and a replay asked for from the last good one (R337). -/
theorem exec_badFlit_of_live (h : moduleLive s m = true) :
    exec (.badFlit m) s = .next (emit (.idleFlit m (s.mod m).lastGood true 0 0 0)
      (count 526 (64 * m + 3) (s.updMod m (fun k => { k with nak := true })))) := by
  have hlast : ((count 526 (64 * m + 3) (s.updMod m (fun k => { k with nak := true }))).mod m).lastGood = (s.mod m).lastGood := by
    change ((s.updMod m (fun k => { k with nak := true })).mod m).lastGood = _
    rw [State.updMod_mod_self]
  simp only [exec_badFlit, execBadFlit, h, Bool.not_true, Bool.false_eq_true, if_false, done]
  rw [hlast]

end

/-- Settles O33: a live module takes each flit, and one that is down comes back or fails. -/
theorem flitsAndModules : Obligations.FlitsAndModules := by
  refine ⟨fun s m h => ⟨exec_badFlit_of_live h, fun a => ?_, ?_, fun a q r d => ?_, ?_, ?_⟩,
    fun s m hst hup => ⟨fun ha => ?_, fun kind ha => ?_, fun kind ha hd => ?_⟩⟩
  · simp only [exec_flitNak, execFlitNak, h, if_true, done]
  · simp only [exec_flitAckTimeout, execFlitAckTimeout, h, if_true, done]
  · simp only [exec_idleFlit, execIdleFlit, h, Bool.not_true, Bool.false_eq_true, if_false, done]
  · simp only [exec_moduleLinkLoss, execModuleLinkLoss, h, Bool.not_true, Bool.false_eq_true, if_false, done]
  · simp only [exec_moduleLinkLoss, execModuleLinkLoss, h, Bool.not_true, Bool.false_eq_true, if_false, if_true, done]
  · simp [exec_moduleRetrainTimeout, execModuleRetrainTimeout, ha, hup, hst, done]
  · simp [exec_sidebandHello, execSidebandHello, ha, hup, hst, done]
  · simp [exec_sidebandHello, execSidebandHello, ha, hup, hst, hd, done]

/-! ### The package governor -/

theorem exec_telemetry (p : Nat) (w : Word) (s : State) : exec (.telemetry p w) s = execTelemetry p w s := rfl
theorem exec_telemetryStale (p : Nat) (b : Bool) (s : State) : exec (.telemetryStale p b) s = execTelemetryStale p b s := rfl
theorem exec_vinOvercurrent (b : Bool) (s : State) : exec (.vinOvercurrent b) s = .next (fastPath b s) := rfl
theorem exec_ocAlert (p : Nat) (r : BitVec 8) (b : Bool) (s : State) :
    exec (.ocAlert p r b) s = .next (if (s.die p).attached then fastPath b s else s) := rfl
theorem exec_governorLoop (own : List Nat) (v : Nat) (s : State) : exec (.governorLoop own v) s = execGovernorLoop own v s := rfl
theorem exec_govFallbackBudget (s : State) : exec .govFallbackBudget s = execGovFallbackBudget s := rfl
theorem exec_sensorThreshold (n r : Nat) (s : State) : exec (.sensorThreshold n r) s = execSensorThreshold n r s := rfl

section
variable {s : State} {p : Nat}

theorem fastPath_of_inService (hst : s.fc.dstate ≠ .halted) (hu : oneUnit s 52 0 = .inService) (b : Bool) :
    fastPath b s = if b then count 529 4 s else
      (diesOn (count 529 3 (updGov (fun g => { g with fastAt := some s.ticks }) s))).foldl
        (fun s p => sendBudget p ((s.die p).budget * 3 / 4) true s) (count 529 3 (updGov (fun g => { g with fastAt := some s.ticks }) s)) := by
  simp only [fastPath, beq_eq_false_iff_ne.2 hst, hu, bne_self_eq_false, Bool.or_self, Bool.false_eq_true, if_false]

/-! A budget goes to its own die, in units of 10 mW; the governor's own record does not change by it (R462). -/

@[simp] theorem sendBudget_gov (p b : Nat) (f : Bool) (s : State) : (sendBudget p b f s).gov = s.gov := rfl

theorem sendBudget_budget_self (p b : Nat) (f : Bool) (s : State) : ((sendBudget p b f s).die p).budget = b / 10 * 10 := by
  change ((s.updDie p (fun d => { d with budget := b / 10 * 10, fast := f, budgetRow := (s.die p).budgetRow + 1 })).die p).budget = _
  rw [State.updDie_die_self]

theorem sendBudget_die_ne {p q : Nat} (h : q ≠ p) (b : Nat) (f : Bool) (s : State) : (sendBudget p b f s).die q = s.die q :=
  State.updDie_die_ne s (fun d => { d with budget := b / 10 * 10, fast := f, budgetRow := (s.die p).budgetRow + 1 }) h

/-- The budgets of a list reach their dies: none of its dies comes twice. -/
def sendBudgets (l : List (Nat × Nat)) (s : State) : State := l.foldl (fun s b => sendBudget b.1 b.2 false s) s

@[simp] theorem sendBudgets_gov (l : List (Nat × Nat)) (s : State) : (sendBudgets l s).gov = s.gov := by
  induction l generalizing s with
  | nil => rfl
  | cons b l ih => exact ih _

theorem sendBudgets_die_of_not_mem {l : List (Nat × Nat)} {q : Nat} (h : q ∉ l.map (·.1)) (s : State) : (sendBudgets l s).die q = s.die q := by
  induction l generalizing s with
  | nil => rfl
  | cons b l ih =>
    rw [List.map_cons, List.mem_cons, not_or] at h
    exact (ih h.2 _).trans (sendBudget_die_ne h.1 ..)

theorem sendBudgets_budget {l : List (Nat × Nat)} (hl : (l.map (·.1)).Nodup) {q b : Nat} (h : (q, b) ∈ l) (s : State) :
    ((sendBudgets l s).die q).budget = b / 10 * 10 := by
  induction l generalizing s with
  | nil => cases h
  | cons x l ih =>
    rw [List.map_cons, List.nodup_cons] at hl
    rcases List.mem_cons.1 h with rfl | h
    · exact (congrArg DiePort.budget (sendBudgets_die_of_not_mem hl.1 _)).trans (sendBudget_budget_self ..)
    · exact ih hl.2 h _

/-- A budget of the loop is a whole number of 10 mW. -/
theorem govBudget_units (s : State) (avail : Int) (p : Nat) : govBudget s avail p / 10 * 10 = govBudget s avail p := by
  simp only [govBudget, Nat.mul_div_cancel _ (by decide : 0 < 10)]

theorem nodup_diesOn (s : State) : (diesOn s).Nodup := List.nodup_range.filter _

/-- What the loop has left to give out: the envelope less its own draw and a fiftieth (R463). -/
def govAvail (own : List Nat) (s : State) : Int := (s.gov.envelope : Int) - ((own.foldl max 0 : Nat) : Int) - ((s.gov.envelope / 50 : Nat) : Int)

/-- The state in which a loop has taken the new envelope. -/
def govTaken (s : State) : State := updGov (fun g => { g with envelope := g.next.getD g.envelope, next := none }) s

/-- A loop of a governor in service sends every die its budget, and changes beyond that only its own record (R463). -/
theorem exec_governorLoop_of_inService (hst : s.fc.dstate ≠ .halted) (hu : oneUnit s 52 0 = .inService) (own : List Nat) (vin : Nat) :
    ∃ t, exec (.governorLoop own vin) s = .next t ∧ t.gov.envelope = (govTaken s).gov.envelope ∧ t.gov.next = none ∧
      t.gov.loops = s.gov.loops + 1 ∧
      ∀ q, t.die q = (sendBudgets ((diesOn s).map (fun p => (p, govBudget (govTaken s) (govAvail own (govTaken s)) p))) (govTaken s)).die q := by
  simp only [exec_governorLoop, execGovernorLoop, beq_eq_false_iff_ne.2 hst, hu, bne_self_eq_false, Bool.or_self, Bool.false_eq_true, if_false,
    done]
  change ∃ t, Host.Outcome.next (updGov _ (count 529 2 (sendBudgets
    ((diesOn s).map (fun p => (p, govBudget (govTaken s) (govAvail own (govTaken s)) p))) (govTaken s)))) = .next t ∧ _
  have hgov := sendBudgets_gov ((diesOn s).map (fun p => (p, govBudget (govTaken s) (govAvail own (govTaken s)) p))) (govTaken s)
  generalize sendBudgets ((diesOn s).map (fun p => (p, govBudget (govTaken s) (govAvail own (govTaken s)) p))) (govTaken s) = x at hgov ⊢
  refine ⟨_, rfl, ?_, ?_, ?_, fun q => rfl⟩
  · rw [← hgov]
    exact (apply_ite Governor.envelope _ _ _).trans (ite_self _)
  · exact (apply_ite Governor.next _ _ _).trans ((ite_self _).trans (congrArg Governor.next hgov))
  · exact (apply_ite Governor.loops _ _ _).trans ((ite_self _).trans (show x.gov.loops + 1 = (govTaken s).gov.loops + 1 by rw [hgov]))

end

/-- Settles O34, by one lemma for each path; the loop's budgets by `sendBudgets_budget`. -/
theorem governorActs : Obligations.GovernorActs := by
  intro s hst
  have hst' := beq_eq_false_iff_ne.2 hst
  refine ⟨fun p w ha hh => ?_, fun p ha hs => ?_, fun p ha hs => ?_, fun hu => ⟨?_, ?_, fun p row ha => ?_⟩, fun own vin hu => ?_, fun hu => ?_,
    fun n r hh ht hr => ?_, fun n r hh ht hlo hhi => ?_⟩
  · simp [exec_telemetry, execTelemetry, ha, hh, hst, done]
  · simp [exec_telemetryStale, execTelemetryStale, ha, hs, hst, done]
  · simp [exec_telemetryStale, execTelemetryStale, ha, hs, hst, done]
  · rw [exec_vinOvercurrent, fastPath_of_inService hst hu]; rfl
  · rw [exec_vinOvercurrent, fastPath_of_inService hst hu]; rfl
  · rw [exec_ocAlert, ha, fastPath_of_inService hst hu]; rfl
  · obtain ⟨t, ht, henv, hnext, hloops, hdie⟩ := exec_governorLoop_of_inService hst hu own vin
    refine ⟨t, ht, henv, hnext, hloops, fun p hp => ?_⟩
    have hmem := List.mem_map_of_mem (f := fun p => (p, govBudget (govTaken s) (govAvail own (govTaken s)) p)) hp
    have hnodup : (((diesOn s).map (fun p => (p, govBudget (govTaken s) (govAvail own (govTaken s)) p))).map (·.1)).Nodup := by
      rw [List.map_map]
      exact (List.map_id _).symm ▸ nodup_diesOn s
    rw [hdie, sendBudgets_budget hnodup hmem, govBudget_units]
    rfl
  · simp [exec_govFallbackBudget, execGovFallbackBudget, hst, hu, done]
  · have hcool : ¬ 420 ≤ r := by omega
    have hcool' : ¬ 500 ≤ r := by omega
    simp [exec_sensorThreshold, execSensorThreshold, hst, hh, ht, hr, hcool, hcool', done]
  · have hcool : ¬ 500 ≤ r := by omega
    simp [exec_sensorThreshold, execSensorThreshold, hst, hh, ht, hlo, hcool, done]

end Sys2Proof.Machine
end

section
/-! Fabric ports (11 R328-R332; 14 R402): native blocks, training, lanes, widths and sub-ports. -/

namespace Sys2Proof.Machine

theorem exec_nativeDataBlock (b : NativeBlk) (s : State) : exec (.nativeDataBlock b) s = execNativeDataBlock b s := rfl
theorem exec_blockNak (lp : Nat) (a : BitVec 8) (s : State) : exec (.blockNak lp a) s = execBlockNak lp a s := rfl
theorem exec_idleBlock (lp : Nat) (a : Option (BitVec 8)) (s : State) : exec (.idleBlock lp a) s = execIdleBlock lp a s := rfl
theorem exec_blockAckTimeout (lp : Nat) (s : State) : exec (.blockAckTimeout lp) s = execBlockAckTimeout lp s := rfl
theorem exec_tsEq (lp lane : Nat) (q st : BitVec 8) (peer mine : Bool) (s : State) :
    exec (.tsEq lp lane q st peer mine) s = execTsEq lp lane q st peer mine s := rfl
theorem exec_tsAlign (lp : Nat) (m : BitVec 8) (o : Nat) (s : State) : exec (.tsAlign lp m o) s = execTsAlign lp m o s := rfl
theorem exec_ieeeLinkUp (lp w : Nat) (s : State) : exec (.ieeeLinkUp lp w) s = execIeeeLinkUp lp w s := rfl
theorem exec_trainingRetry (lp : Nat) (s : State) : exec (.trainingRetry lp) s = .next (trainStart lp s) := rfl
theorem exec_laneFail (lp lane : Nat) (s : State) : exec (.laneFail lp lane) s = execLaneFail lp lane s := rfl
theorem exec_widthReq (lp : Nat) (a m : BitVec 8) (s : State) : exec (.widthReq lp a m) s = execWidthReq lp a m s := rfl
theorem exec_widthAck (lp : Nat) (a m : BitVec 8) (s : State) : exec (.widthAck lp a m) s = execWidthAck lp a m s := rfl
theorem exec_laneRetrain (lp lane : Nat) (b : Bool) (s : State) : exec (.laneRetrain lp lane b) s = execLaneRetrain lp lane b s := rfl
theorem exec_subportDown (lp : Nat) (s : State) : exec (.subportDown lp) s = execSubportDown lp s := rfl
theorem exec_subportUp (lp : Nat) (s : State) : exec (.subportUp lp) s = execSubportUp lp s := rfl

/-! ### Native blocks (R328, R329) -/

section
variable {s : State} {b : NativeBlk}

theorem exec_nativeDataBlock_of_bad (h : nativeUp s b.lport = true) (hb : b.bad = true) :
    exec (.nativeDataBlock b) s = .next (sendBlockNak b.lport (count 524 (32 * b.lport + 7) s)) := by
  simp only [exec_nativeDataBlock, execNativeDataBlock, h, hb, Bool.not_true, Bool.false_eq_true, if_false, if_true, done]

/-- A block in order is handed on and acknowledged; one that was seen is acknowledged; one after a gap draws a NAK. -/
theorem exec_nativeDataBlock_of_good (h : nativeUp s b.lport = true) (hb : b.bad = false) (ha : b.ack = none) :
    exec (.nativeDataBlock b) s = .next (
      if b.seq = (s.lport b.lport).rxSeq then sendIdle b.lport (countBy 524 (32 * b.lport + 1) b.frames.length
        (s.updLport b.lport (fun l => { l with rxSeq := l.rxSeq + 1, nakFor := none, gotAny := true })))
      else if ((s.lport b.lport).rxSeq - b.seq).toNat ≤ 64 then sendIdle b.lport s
      else sendBlockNak b.lport s) := by
  simp only [exec_nativeDataBlock, execNativeDataBlock, h, hb, ha, Bool.not_true, Bool.false_eq_true, if_false, beq_iff_eq, done]

end

/-! ### Training (R331) -/

section
variable {s : State} {lp : Nat}

theorem exec_tsEq_of_equalise (hmay : lpMayRun s lp = true) (hm : portMode s (lpPort lp) = 0) (ht : (s.lport lp).train = .equalise)
    {lane : Nat} (hl : lane < lpWidth s lp) (q st : BitVec 8) (peer mine : Bool) :
    exec (.tsEq lp lane q st peer mine) s = .next (
      let t := sendEq lp lane mine (updLane lp lane (fun x => { x with localReady := mine, peerReady := peer }) s)
      let ls := (List.range (lpWidth t lp)).filter (fun i => !((t.lport lp).lane i).failed)
      if !ls.isEmpty && ls.all (fun i => ((t.lport lp).lane i).localReady && ((t.lport lp).lane i).peerReady) then
        sendAlign lp (t.updLport lp (fun l => { l with train := .align })) else t) := by
  have hgate : (decide (portMode s (lpPort lp) ≠ 0) || !lpMayRun s lp || decide (lpWidth s lp ≤ lane)) = false := by
    simp [hm, hmay, hl]
  simp only [exec_tsEq, execTsEq, hgate, ht, Bool.false_eq_true, if_false, done]

theorem exec_tsAlign_of_align (hmay : lpMayRun s lp = true) (hm : portMode s (lpPort lp) = 0) (ht : (s.lport lp).train = .align)
    {mask : BitVec 8} {offer : Nat} {g : Nat × Nat} (hg : bestGroup (lpWidth s lp) (min (lpWidth s lp) offer) (fun i =>
      ((s.lport lp).lane i).localReady && ((s.lport lp).lane i).peerReady && !((s.lport lp).lane i).failed && mask.getLsbD i) = some g) :
    exec (.tsAlign lp mask offer) s = .next (portUp lp g.1 (groupMask g) s) := by
  have hgate : (decide (portMode s (lpPort lp) ≠ 0) || !lpMayRun s lp ||
      !((s.lport lp).train == .equalise || (s.lport lp).train == .align)) = false := by
    simp [hm, hmay, ht]
  simp only [exec_tsAlign, execTsAlign, hgate, hg, Bool.false_eq_true, if_false, done]
  rw [ht]
  rfl

theorem exec_ieeeLinkUp_of_down (hmay : lpMayRun s lp = true) (hm : portMode s (lpPort lp) ≠ 0) (hu : lportUp s lp = false) {w k : Nat}
    (hw : w = 1 ∨ w = 2 ∨ w = 4 ∨ w = 8) (hg : bestGroup (lpWidth s lp) w (fun i => !((s.lport lp).lane i).failed) = some (w, k)) :
    exec (.ieeeLinkUp lp w) s = .next (portUp lp w (groupMask (w, k)) s) := by
  have hgate : (decide (portMode s (lpPort lp) = 0) || !lpMayRun s lp || lportUp s lp || !([1, 2, 4, 8].contains w)) = false := by
    simp [hm, hmay, hu, hw]
  simp only [exec_ieeeLinkUp, execIeeeLinkUp, hgate, hg, Bool.false_eq_true, if_false, if_true, done]

end

/-- Settles O35: blocks by their sequence, training by its steps. -/
theorem blocksAndTraining : Obligations.BlocksAndTraining := by
  refine ⟨fun s b h => ⟨exec_nativeDataBlock_of_bad h, fun hb ha hs => ?_, fun hb ha hs hn => ?_, fun hb ha hs hn => ?_⟩,
    fun s lp a h => ⟨?_, ?_, fun b rest hr => ?_⟩,
    fun s lp hmay => ⟨fun lane q st peer mine hm ht hl => exec_tsEq_of_equalise hmay hm ht hl q st peer mine,
      fun mask offer g hm ht hg => exec_tsAlign_of_align hmay hm ht hg, fun w k hm hu hw hg => exec_ieeeLinkUp_of_down hmay hm hu hw hg,
      exec_trainingRetry lp s⟩⟩
  · rw [exec_nativeDataBlock_of_good h hb ha, if_pos hs]
  · rw [exec_nativeDataBlock_of_good h hb ha, if_neg hs, if_pos hn]
  · rw [exec_nativeDataBlock_of_good h hb ha, if_neg hs, if_neg (Nat.not_le.2 hn)]
  · simp only [exec_blockNak, execBlockNak, h, if_true, done]
  · simp only [exec_idleBlock, execIdleBlock, h, if_true, done]
  · simp only [exec_blockAckTimeout, execBlockAckTimeout, hr, h, if_true, done]

/-- Settles O36: each command's own test, and what it then does. -/
theorem lanesWidthsAndSubports : Obligations.LanesWidthsAndSubports := by
  refine ⟨fun s lp lane hst hmay hl => ?_, fun s lp h => ⟨fun a m g hg => ?_, fun a m g hp hg => ?_, fun lane hf hl ht => ⟨?_, ?_⟩⟩,
    fun s lp hu => ⟨fun hst => ?_, fun hst => ?_⟩⟩
  · simp [exec_laneFail, execLaneFail, hst, hmay, hl.not_ge, done]
  · simp only [exec_widthReq, execWidthReq, h, hg, Bool.not_true, Bool.false_eq_true, if_false, done]
  · simp only [exec_widthAck, execWidthAck, h, hp, hg, beq_self_eq_true, Bool.and_self, if_true, done]
  · simp [exec_laneRetrain, execLaneRetrain, h, hf, ht, hl.not_ge, done]
  · simp [exec_laneRetrain, execLaneRetrain, h, hf, ht, hl.not_ge, done]
  · simp [exec_subportDown, execSubportDown, hu, hst, done]
  · simp [exec_subportUp, execSubportUp, hu, hst, done]

end Sys2Proof.Machine
end

section
/-! Host windows, snoops, answers and links (10 R293-R304, R311-R316). -/

namespace Sys2Proof.Machine

theorem exec_bar2Read (r : Bar2Req) (n : Nat) (s : State) : exec (.bar2Read r n) s = execBar2Read r n s := rfl
theorem exec_bar2Write (r : Bar2Req) (d : List Byte) (b : Bool) (s : State) : exec (.bar2Write r d b) s = execBar2Write r d b s := rfl
theorem exec_bar2Atomic (r : Bar2Req) (o : HostAtomic) (x y : BitVec 128) (s : State) :
    exec (.bar2Atomic r o x y) s = execBar2Atomic r o x y s := rfl
theorem exec_cxlMemRead (l t h : Nat) (x : Bool) (s : State) : exec (.cxlMemRead l t h x) s = execCxlMemRead l t h x s := rfl
theorem exec_cxlMemWrite (l t h : Nat) (d : List Byte) (s : State) : exec (.cxlMemWrite l t h d) s = execCxlMemWrite l t h d s := rfl
theorem exec_linkReset (l : Nat) (k : LinkResetKind) (s : State) : exec (.linkReset l k) s = execLinkReset l k s := rfl
theorem exec_linkLossTimeout (l : Nat) (s : State) : exec (.linkLossTimeout l) s = execLinkLossTimeout l s := rfl
theorem exec_dataLinkLayerUp (l : Nat) (cx ca fl : Bool) (r w : Nat) (s : State) :
    exec (.dataLinkLayerUp l cx ca fl r w) s = execDataLinkLayerUp l cx ca fl r w s := rfl
theorem exec_configurationRequest (l : Nat) (a : CfgAccess) (s : State) :
    exec (.configurationRequest l a) s = execConfigurationRequest l a s := rfl

/-! ### BAR 2 and CXL.mem -/

section
variable {s : State} {r : Bar2Req} {k : BarKind} {n : Nat} {tag : Option Nat}

/-- An admitted request inside HBM and outside the stash reaches its own work (R301-R303). -/
theorem barGate_of_admitted (hst : s.fc.dstate ≠ .halted) (ha : barAdmits s r k = true) (hs : inStash s (barDpa s r.link r.offset) n = false)
    (hh : inHbm s (barDpa s r.link r.offset) n = true) (go : Nat → State → State) :
    barGate r k n tag go s = go (barDpa s r.link r.offset) s := by
  simp only [barGate, beq_eq_false_iff_ne.2 hst, ha, hs, hh, Bool.not_true, Bool.false_eq_true, if_false]

/-- One that no filter entry admits is refused and counted. -/
theorem barGate_of_refused (hst : s.fc.dstate ≠ .halted) (ha : barAdmits s r k = false) (go : Nat → State → State) :
    barGate r k n tag go s = barRefuse r.link tag s := by
  simp only [barGate, beq_eq_false_iff_ne.2 hst, ha, Bool.not_false, Bool.false_eq_true, if_false, if_true]

end

/-- Settles O37: BAR 2 through its gate, CXL.mem by its own tests. -/
theorem hostWindowsReachHbm : Obligations.HostWindowsReachHbm := by
  refine ⟨fun r s hst => ⟨fun len ha hs hh => ⟨fun hx => ?_, fun hx => ?_⟩, fun data ha hs hh => ?_, fun op aop n x y hop ha hs hh hal hx => ?_,
    fun len ha => ?_⟩, fun link tag hpa s hst hb hs hh => ⟨fun x hx => ?_, fun x hx => ?_, fun data => ?_⟩⟩
  · simp only [exec_bar2Read, execBar2Read, barGate_of_admitted hst ha hs hh, hx, if_true, done]
  · simp only [exec_bar2Read, execBar2Read, barGate_of_admitted hst ha hs hh, hx, Bool.false_eq_true, if_false, done]
    cases dlIssue (.bar2 r.link r.tag len) (cmdRead 0 2 (barDpa s r.link r.offset) len) s <;> rfl
  · simp only [exec_bar2Write, execBar2Write, barGate_of_admitted hst ha hs hh, Bool.false_eq_true, if_false, done]
  · simp only [exec_bar2Atomic, execBar2Atomic, hop, barGate_of_admitted hst ha hs hh, hal, hx, ne_eq, not_true_eq_false,
      Bool.false_eq_true, if_false, done]
    cases dlIssue (.bar2Atomic r.link r.tag) (cmdAtomic 0 2 (barDpa s r.link r.offset) n aop x y) s <;> rfl
  · simp only [exec_bar2Read, execBar2Read, barGate_of_refused hst ha, barRefuse, done]
  · simp only [exec_cxlMemRead, execCxlMemRead, beq_eq_false_iff_ne.2 hst, hs, hh, hx, decide_eq_false (Nat.not_lt.2 hb), Bool.not_true,
      Bool.or_self, Bool.false_eq_true, if_false, if_true, done]
  · simp only [exec_cxlMemRead, execCxlMemRead, beq_eq_false_iff_ne.2 hst, hs, hh, hx, decide_eq_false (Nat.not_lt.2 hb), Bool.not_true,
      Bool.or_self, Bool.false_eq_true, if_false, done]
  · simp only [exec_cxlMemWrite, execCxlMemWrite, beq_eq_false_iff_ne.2 hst, hs, hh, decide_eq_false (Nat.not_lt.2 hb), Bool.not_true,
      Bool.or_self, Bool.false_eq_true, if_false, done]

/-! ### An answer of the host's cache also ends the uses of the accesses that waited for it -/

/-- A direct store of one byte that waits for a line of the coherent window cache. -/
def waitingStore : DirectReq := { module := 0, txn := 0, store := true, cva := 0, len := 1, data := [0] }

/-- A state in which context 0 waits for line 0 of link 0, and holds a use of its panel 0 for that. -/
def cacheWaitState : State :=
  { State.reset with
    directWait := [(0, waitingStore, cwcKey 0 0)], xuses := [(.directWait 0, { ctx := 0, panel := 0, tgen := 0 })] }

/-- The uses that a next state keeps for accesses. -/
def keptUses : Host.Outcome State Fault Refusal → Nat
  | .next s => s.xuses.length
  | _ => 0

/-- Refutes O38: a filled line also ends the uses that the waiting accesses held (R128), which its second clause leaves out. In
`cacheWaitState` the answer leaves no use, and the state that the clause names keeps one. -/
theorem not_hostAnswersAndSnoops : ¬ Obligations.HostAnswersAndSnoops := by
  unfold Obligations.HostAnswersAndSnoops
  rintro ⟨-, hcache, -⟩
  have h := congrArg keptUses (hcache cacheWaitState 0 0 [] (0, waitingStore, cwcKey 0 0) [] (by decide) (by decide))
  exact absurd h (by decide)

/-! ### Host links (R293-R297, R314-R316) -/

/-- Settles O39: each command is its own case of the link's or the device's rules. -/
theorem hostLinksComeAndGo : Obligations.HostLinksComeAndGo := by
  intro s link
  refine ⟨rfl, rfl, rfl, rfl, fun hup hl => ?_, rfl, fun cx ca fl rate w hp hf hc => ?_, fun d3 => rfl, rfl, fun ha hp => ?_⟩
  · have hl' : (s.link link).lostAt.isSome = true := Option.isSome_iff_ne_none.2 hl
    simp only [exec_linkLossTimeout, execLinkLossTimeout, hup, hl', Bool.not_false, Bool.and_self, if_true, done]
  · simp only [exec_dataLinkLayerUp, execDataLinkLayerUp, hp, hf, Bool.not_true, Bool.false_eq_true, if_false, if_true, done]
  · simp only [exec_configurationRequest, execConfigurationRequest, ha, hp, Bool.not_true, Bool.or_self, Bool.false_eq_true, if_false, done,
      implies_true, and_self]

end Sys2Proof.Machine
end

section
/-! The fault collector (14 R391-R398), the steps of a warm re-init (14 R406-R410) and the State Cache (15 R421-R424, R469). -/

namespace Sys2Proof.Machine

theorem exec_faultEvent (f : FaultEv) (s : State) : exec (.faultEvent f) s = execFaultEvent f s := rfl
theorem exec_escalationTimer (n : Nat) (b : Bool) (s : State) : exec (.escalationTimer n b) s = execEscalationTimer n b s := rfl
theorem exec_unitResetDone (n u : Nat) (s : State) : exec (.unitResetDone n u) s = execUnitResetDone n u s := rfl
theorem exec_swatchDone (n u : Nat) (b : Bool) (s : State) : exec (.swatchDone n u b) s = execSwatchDone n u b s := rfl
theorem exec_fcStatus (w : RegWrite) (s : State) : exec (.fcStatus w) s = execFcStatus w s := rfl
theorem exec_reinitQuiesce (s : State) : exec .reinitQuiesce s = execReinitQuiesce s := rfl
theorem exec_reinitReset (a b : Bool) (s : State) : exec (.reinitReset a b) s = execReinitReset a b s := rfl
theorem exec_reinitVerify (a b : List Byte) (s : State) : exec (.reinitVerify a b) s = execReinitVerify a b s := rfl
theorem exec_reinitRestart (a b : List Nat) (f : List (Nat × Nat)) (s : State) : exec (.reinitRestart a b f) s = execReinitRestart a b f s := rfl
theorem exec_reinitResume (s : State) : exec .reinitResume s = execReinitResume s := rfl
theorem exec_refclkAbsentTimeout (s : State) : exec .refclkAbsentTimeout s = execRefclkAbsentTimeout s := rfl
theorem exec_scrubLine (h f : Nat) (s : State) : exec (.scrubLine h f) s = execScrubLine h f s := rfl
theorem exec_wayDisable (h w : Nat) (s : State) : exec (.wayDisable h w) s = execWayDisable h w s := rfl
theorem exec_scClean (w : RegWrite) (s : State) : exec (.scClean w) s = scStart 1 w s := rfl
theorem exec_scInvalidate (w : RegWrite) (s : State) : exec (.scInvalidate w) s = scStart 2 w s := rfl
theorem exec_scCleanInvalidate (w : RegWrite) (s : State) : exec (.scCleanInvalidate w) s = scStart 3 w s := rfl
theorem exec_scMaintComplete (s : State) : exec .scMaintComplete s = execScMaintComplete s := rfl
theorem exec_scMaintAddr (w : RegWrite) (s : State) : exec (.scMaintAddr w) s = execScMaintAddr w s := rfl

/-! ### The fault collector -/

section
variable {s : State}

/-- An event without a context, of a source that is no State Cache half, is handled as its class says (R391). -/
theorem exec_faultEvent_of_no_ctx {f : FaultEv} (hc : f.ctx = none) (h36 : f.source ≠ 36) (h37 : f.source ≠ 37) :
    exec (.faultEvent f) s = .next (onEvent (some f.twoRecent)
      { source := f.source, cls := f.cls, detail := f.detail, unit := f.unit, ctx := none, slice := f.slice, active := f.causeActive
        stamp := f.unitStamp } (updSrc f.source (fun c => { c with causeActive := f.causeActive }) s)) := by
  simp only [exec_faultEvent, execFaultEvent, hc, h36, h37, or_self, false_and, if_false, ite_self, done]

/-- The timer of a source whose status still stands escalates it once (R394). -/
theorem exec_escalationTimer_of_standing (hst : s.fc.dstate = .normal) {n : Nat} (ht : s.fc.timers.contains n = true)
    (hb : statusBit s n = true) (he : (fcSrc s n).escalated = false) (two : Bool) :
    exec (.escalationTimer n two) s = .next (
      let t := s.updFc (fun c => { c with timers := c.timers.filter (· ≠ n) })
      let x := ownEv n 2 (fcSrc t n).detail (fcSrc t n).unit none (updSrc n (fun c => { c with escalated := true }) t)
      act (some two) (reactEsc t n) { x.1 with injected := (fcSrc t n).injected } x.2) := by
  have hgate : (!statusBit (s.updFc (fun c => { c with timers := c.timers.filter (· ≠ n) })) n ||
      (fcSrc (s.updFc (fun c => { c with timers := c.timers.filter (· ≠ n) })) n).escalated ||
      (s.updFc (fun c => { c with timers := c.timers.filter (· ≠ n) })).fc.dstate == .halted) = false := by
    change (!statusBit s n || (fcSrc s n).escalated || s.fc.dstate == .halted) = false
    rw [hb, he, hst]
    rfl
  simp only [exec_escalationTimer, execEscalationTimer, ht, hgate, Bool.not_true, Bool.false_eq_true, if_false, done]

end

/-- Settles O40, by what each command of the collector tests. -/
theorem faultCollectorCommands : Obligations.FaultCollectorCommands := by
  intro s hst
  refine ⟨fun f hc h36 h37 => exec_faultEvent_of_no_ctx hc h36 h37, fun n two ht hb he => exec_escalationTimer_of_standing hst ht hb he two,
    fun n u ha => ?_, fun n u => ?_, fun n u => ?_, fun w hl ha => ?_⟩
  · simp only [exec_unitResetDone, execUnitResetDone, ha, hst, beq_self_eq_true, Bool.and_self, if_true, done]
  · simp [exec_swatchDone, execSwatchDone, hst, done]
  · simp [exec_swatchDone, execSwatchDone, hst, done]
  · simp only [exec_fcStatus, execFcStatus, fcReg_of_taken (by rw [hst]; decide) hl ha, done]

/-! ### The steps of a warm re-init -/

section
variable {s : State}

theorem exec_reinitReset_of_step (h : reinitAt s .reset = true) {cool : Bool} (hc : s.fc.cause = 0x1A → cool = true) (refclk : Bool) :
    exec (.reinitReset cool refclk) s = .next (if refclk then reinitStep .verify (coreReset s) else s) := by
  have hcool : (s.fc.cause == 0x1A && !cool) = false := by
    rw [Bool.and_eq_false_imp]
    exact fun hk => by rw [hc (by simpa using hk)]; rfl
  cases refclk <;> simp only [exec_reinitReset, execReinitReset, h, hcool, done] <;> rfl

theorem exec_reinitVerify_of_step (h : reinitAt s .verify = true) (a b : List Byte) :
    exec (.reinitVerify a b) s = .next (
      if (imageReason s.sec (leAt a 8 8) a == 0) || (imageReason s.sec (leAt b 8 8) b == 0) then reinitStep .restart s
      else ftReport none (ownEv 51 3 0x13 0 none s).1 (ownEv 51 3 0x13 0 none s).2) := by
  simp only [exec_reinitVerify, execReinitVerify, h, Bool.not_true, Bool.false_eq_true, if_false, done]

/-- With no line lost, Restart tests every unit that was fenced (R410). -/
theorem exec_reinitRestart_of_intact (h : reinitAt s .restart = true) (fails : List (Nat × Nat)) :
    exec (.reinitRestart [] [] fails) s = .next (reinitStep .resume ((restartUnits s).foldl (fun s u =>
      if fails.contains u then countUnnamed s else countUnnamed (unitReturns u.1 u.2 s)) { s with heldLost := [] })) := by
  simp only [exec_reinitRestart, execReinitRestart, h, Bool.not_true, Bool.false_eq_true, if_false, done]
  rfl

end

/-- Settles O41: each step tests that it is its turn. -/
theorem reinitStepsInOrder : Obligations.ReinitStepsInOrder := by
  intro s
  refine ⟨fun h => ?_, fun cool h hc => ⟨?_, ?_⟩, fun a b h => exec_reinitVerify_of_step h a b, fun fails h => exec_reinitRestart_of_intact h fails,
    fun h hi => ?_, fun h => ?_⟩
  · simp only [exec_reinitQuiesce, execReinitQuiesce, h, if_true, done]
  · rw [exec_reinitReset_of_step h hc, if_pos rfl]
  · rw [exec_reinitReset_of_step h hc]; rfl
  · simp only [exec_reinitResume, execReinitResume, h, hi, Bool.not_true, Bool.false_eq_true, if_false, done]
  · simp only [exec_refclkAbsentTimeout, execRefclkAbsentTimeout, h, beq_self_eq_true, if_true, done]

/-! ### The State Cache -/

/-- The operation's field lies in the bits that the register keeps. -/
theorem fld_scCmd_op (v : Word) : fld (BitVec.ofNat 20 v.toNat) 1 0 = fld v 1 0 := by
  simp only [fld, bits, BitVec.toNat_ofNat]
  exact Nat.mod_mod_of_dvd v.toNat (by decide)

section
variable {s : State} {w : RegWrite}

/-- A maintenance write names its own operation, and is taken where none runs (R469). -/
theorem scStart_of_named (h : regTaken s w) (hb : s.sc.busy = false) {op : Nat} (hop : fld (freshReg w) 1 0 = op) {x : List Nat × Nat}
    (hx : scNamed (updSc (fun c => { c with cmd := BitVec.ofNat 20 (freshReg w).toNat, linesDone := 0, result := 0 }) s) = .inr x) :
    scStart op w s = .next (updSc (fun c => { c with busy := true })
      (updSc (fun c => { c with cmd := BitVec.ofNat 20 (freshReg w).toNat, linesDone := 0, result := 0 }) s)) := by
  simp only [scStart, scReg_of_taken h, fld_scCmd_op, hop, ne_eq, not_true_eq_false, hb, hx, Bool.false_eq_true, if_false, done]

theorem scStart_of_busy (h : regTaken s w) (hb : s.sc.busy = true) {op : Nat} (hop : fld (freshReg w) 1 0 = op) :
    scStart op w s = .next (count 527 3 s) := by
  simp only [scStart, scReg_of_taken h, fld_scCmd_op, hop, ne_eq, not_true_eq_false, hb, if_false, if_true, done]

end

/-- Settles O42: the scrubber, the way and the maintenance operation by what each tests. -/
theorem stateCacheCommands : Obligations.StateCacheCommands := by
  intro s hst
  refine ⟨fun half hon => ?_, fun half way hd => ?_, fun w h hb x hx => ⟨fun hop => ?_, fun hop => ?_, fun hop => ?_⟩, fun w h hb hop => ?_,
    fun ks n hb hn => ?_, fun w h hb => ?_⟩
  · simp only [exec_scrubLine, execScrubLine, hon, running_of_normal hst, done]
    rfl
  · simp only [exec_wayDisable, execWayDisable, hd, running_of_normal hst, Bool.not_true, Bool.or_self, Bool.false_eq_true, if_false, done]
  · rw [exec_scClean, scStart_of_named h hb hop hx]
  · rw [exec_scInvalidate, scStart_of_named h hb hop hx]
  · rw [exec_scCleanInvalidate, scStart_of_named h hb hop hx]
  · rw [exec_scClean, scStart_of_busy h hb hop]
  · simp only [exec_scMaintComplete, execScMaintComplete, hb, hn, running_of_normal hst, Bool.not_true, Bool.or_self, Bool.false_eq_true,
      if_false, done]
  · simp only [exec_scMaintAddr, execScMaintAddr, scReg_of_taken h, hb, Bool.false_eq_true, if_false, done]

end Sys2Proof.Machine
end

section
/-! Register writes (18 R470; 06; 11; 15 R424). -/

namespace Sys2Proof.Machine

theorem exec_netPortCfg (n : Nat) (w : RegWrite) (s : State) : exec (.netPortCfg n w) s = execNetPortCfg n w s := rfl
theorem exec_netErtUdpPort (w : RegWrite) (s : State) : exec (.netErtUdpPort w) s = execNetErtUdpPort w s := rfl
theorem exec_netTrkRsv (w : RegWrite) (s : State) : exec (.netTrkRsv w) s = execNetTrkRsv w s := rfl
theorem exec_netPfcCfg (w : RegWrite) (s : State) : exec (.netPfcCfg w) s = execNetPfcCfg w s := rfl
theorem exec_dlRoute (w : RegWrite) (s : State) : exec (.dlRoute w) s = execDlRoute w s := rfl

/-! ### Where a register's offset leads -/

theorem exec_registerWrite_tcWeight (w : RegWrite) (s : State) : exec (.registerWrite 0x2008 w) s =
    .next (mgrReg (.registerWrite 0x2008 w) w (fun s => { s with tcWeight := mergeReg w s.tcWeight }) s) := rfl
theorem exec_registerWrite_tension (w : RegWrite) (s : State) : exec (.registerWrite 0x2018 w) s =
    .next (mgrReg (.registerWrite 0x2018 w) w (fun s => { s with
      tension := tensionNext s.tension (BitVec.ofNat 22 (mergeReg w (s.tension.setWidth 64)).toNat) }) s) := rfl
theorem exec_registerWrite_fcCtl (w : RegWrite) (s : State) : exec (.registerWrite 0xC00008 w) s = .next (fcRegion 8 w s) := rfl
theorem exec_registerWrite_scrub (w : RegWrite) (s : State) : exec (.registerWrite 0xD00020 w) s = .next (scRegion 0x20 w s) := rfl

theorem fcRegion_ctl (w : RegWrite) (s : State) : fcRegion 8 w s = fcReg w (fun t => t.updFc (fun c => { c with
    ftErrn := (mergeReg w (BitVec.ofNat 64 (b2n s.fc.ftErrn + s.fc.fenceLimit * 2 + b2n s.fc.traceFreeze * 32))).getLsbD 0
    fenceLimit := fld (mergeReg w (BitVec.ofNat 64 (b2n s.fc.ftErrn + s.fc.fenceLimit * 2 + b2n s.fc.traceFreeze * 32))) 4 1
    traceFreeze := (mergeReg w (BitVec.ofNat 64 (b2n s.fc.ftErrn + s.fc.fenceLimit * 2 + b2n s.fc.traceFreeze * 32))).getLsbD 5 })) s := by
  simp only [fcRegion, if_true]

theorem scRegion_scrub (w : RegWrite) (s : State) : scRegion 0x20 w s = scReg w (scrubCfg w) s :=
  (if_neg (by decide)).trans (if_pos rfl)

/-! ### Writes that are held or dropped -/

section
variable {s : State} {w : RegWrite}

/-- A warm re-init holds a write to the manager page region while it has room (R409). -/
theorem mgrReg_of_reinit (hst : s.fc.dstate = .reinit) (hl : w.link = mgrLink s) (ha : w.aligned = true)
    (hroom : s.heldWrites.length < 1024) (i : Instr) (f : State → State) :
    mgrReg i w f s = { s with heldWrites := s.heldWrites ++ [i] } := by
  simp only [mgrReg, heldReg, hl, ha, hst, hroom, beq_self_eq_true, Bool.not_true, Bool.or_self, Bool.false_eq_true, if_false, if_true]

/-- A halted device, another link, or a write that is not aligned: the write is dropped and counted (R470). -/
theorem mgrReg_of_dropped (h : s.fc.dstate = .halted ∨ w.link ≠ mgrLink s ∨ w.aligned = false) (i : Instr) (f : State → State) :
    mgrReg i w f s = count 520 1 s := by
  rcases h with h | h | h
  · simp only [mgrReg, heldReg, h, ite_self, dropWrite]
  · simp [mgrReg, heldReg, h, dropWrite]
  · simp [mgrReg, heldReg, h, dropWrite]

theorem fcReg_of_dropped (h : s.fc.dstate = .halted ∨ w.link ≠ mgrLink s ∨ w.aligned = false) (f : State → State) :
    fcReg w f s = count 520 1 s := by
  rcases h with h | h | h <;> simp [fcReg, h, dropWrite]

end

/-! ### Registers of the network and the die links -/

section
variable {s : State} {w : RegWrite}

theorem exec_netTrkRsv_of_taken (h : regTaken s w) :
    exec (.netTrkRsv w) s = .next (if 128 < rsvSum (mergeReg w s.trkRsv) then count 523 0 s else { s with trkRsv := mergeReg w s.trkRsv }) := by
  simp only [exec_netTrkRsv, execNetTrkRsv, mgrReg_of_taken h, done]

/-- The UDP port of ERT changes only while no ERT QP is connected (R151). -/
theorem exec_netErtUdpPort_of_taken (h : regTaken s w) {busy : Bool}
    (hb : s.qps.any (fun q => q.2.mode == .ert && (q.2.st == .active || q.2.st == .held || q.2.st == .draining)) = busy) :
    exec (.netErtUdpPort w) s = .next (if busy then count 523 7 s
      else if BitVec.ofNat 16 (mergeReg w (s.ertPort.setWidth 64)).toNat = 4791 then s
      else { s with ertPort := BitVec.ofNat 16 (mergeReg w (s.ertPort.setWidth 64)).toNat }) := by
  simp only [exec_netErtUdpPort, execNetErtUdpPort, mgrReg_of_taken h, hb, done]

theorem exec_netPfcCfg_of_ordered (h : regTaken s w) (h0 : fld (mergeReg w (pfcReg s)) 25 16 ≠ 0)
    (hlt : fld (mergeReg w (pfcReg s)) 41 32 < fld (mergeReg w (pfcReg s)) 25 16) :
    exec (.netPfcCfg w) s = .next { pfcClear { s with
      pfcEn := BitVec.ofNat 12 (fld (mergeReg w (pfcReg s)) 11 0), pfcPrio := fld (mergeReg w (pfcReg s)) 14 12 } with
        xoff := fld (mergeReg w (pfcReg s)) 25 16, xon := fld (mergeReg w (pfcReg s)) 41 32 } := by
  simp only [exec_netPfcCfg, execNetPfcCfg, mgrReg_of_taken h, keepField, h0, ne_eq, not_false_eq_true, decide_true, if_true,
    if_neg (Nat.not_le.2 hlt), done]

/-- The die-link route changes only while no context is ACTIVE (R335). -/
theorem exec_dlRoute_of_taken (h : regTaken s w) {busy : Bool} (hb : s.ctxs.any (fun c => c.2.st == .active) = busy) :
    exec (.dlRoute w) s = .next (if busy then count 526 1536 s else { s with dlRoute := mergeReg w s.dlRoute }) := by
  simp only [exec_dlRoute, execDlRoute, mgrReg_of_taken h, hb, done]

end

/-- Settles O43, by each register's rule, and by what holds or drops a write. -/
theorem registerWritesFollowTheirRules : Obligations.RegisterWritesFollowTheirRules := by
  refine ⟨fun s w h => ⟨fun n hn => ?_, ⟨fun hq hv => ?_, fun n q hq hm ha => ?_⟩, fun hr => ?_, fun hr => ?_, exec_netPfcCfg_of_ordered h,
    fun hc => ?_, fun ⟨c, hc, ha⟩ => ?_, ?_, ?_, ?_, ?_⟩, fun s w hst hl ha hroom => ⟨?_, ?_⟩, fun s w h => ⟨?_, ?_, ?_⟩⟩
  · simp only [exec_netPortCfg, execNetPortCfg, if_neg (Nat.not_le.2 hn), mgrReg_of_taken h, done]
  · rw [exec_netErtUdpPort_of_taken h (busy := false) (by rw [hq]; rfl), if_neg (by decide), if_neg hv]
  · rw [exec_netErtUdpPort_of_taken h (busy := true) (by simp [hq, hm, ha]), if_pos rfl]
  · rw [exec_netTrkRsv_of_taken h, if_neg (Nat.not_lt.2 hr)]
  · rw [exec_netTrkRsv_of_taken h, if_pos hr]
  · rw [exec_dlRoute_of_taken h (busy := false) (by simpa using hc), if_neg (by decide)]
  · rw [exec_dlRoute_of_taken h (busy := true) (by simpa using ⟨_, _, hc, ha⟩), if_pos rfl]
  · rw [exec_registerWrite_tcWeight, mgrReg_of_taken h]
  · rw [exec_registerWrite_tension, mgrReg_of_taken h]
  · rw [exec_registerWrite_fcCtl, fcRegion_ctl, fcReg_of_taken (by rw [h.1]; decide) h.2.1 h.2.2]
  · rw [exec_registerWrite_scrub, scRegion_scrub, scReg_of_taken h]
  · simp only [exec_netTrkRsv, execNetTrkRsv, mgrReg_of_reinit hst hl ha hroom, done]
  · rw [exec_registerWrite_tcWeight, mgrReg_of_reinit hst hl ha hroom]
  · simp only [exec_netTrkRsv, execNetTrkRsv, mgrReg_of_dropped h, done]
  · simp only [exec_dlRoute, execDlRoute, mgrReg_of_dropped h, done]
  · simp only [exec_fcStatus, execFcStatus, fcReg_of_dropped h, done]

end Sys2Proof.Machine
end

section
/-! The mailbox doorbell (13 R373), and the device and slice commands (12; 13). -/

namespace Sys2Proof.Machine

theorem exec_mbDb (mb : Mbox) (l : Nat) (b : Bool) (v : Word) (s : State) : exec (.mbDb mb l b v) s = execMbDb mb l b v s := rfl
theorem exec_sliceFree (n : Nat) (s : State) : exec (.sliceFree n) s = execSliceFree n s := rfl
theorem exec_sliceDrainTimeout (n : Nat) (s : State) : exec (.sliceDrainTimeout n) s = execSliceDrainTimeout n s := rfl

/-! ### The mailbox doorbell -/

section
variable {s : State} {n : Nat} {v : Word} {irq : Bool}

/-- The next sequence number of an idle mailbox has the request copied. -/
theorem mbDoorbell_of_next (hr : (s.mbox n).running = false) (hs : BitVec.ofNat 16 (fld v 15 0) = (s.mbox n).lastSeq + 1)
    (ho : mbOpcodes.contains (fld (Tab.getD (s.mbox n).page 0 0) 15 0) = true) :
    mbDoorbell n v irq s = count 528 0 (s.updMbox n (fun k => { k with
      lastSeq := BitVec.ofNat 16 (fld v 15 0), running := true, started := false
      req := (s.mbox n).words (2 + min 510 (fld (Tab.getD (s.mbox n).page 0 0) 31 16 / 8)), irq := irq, since := s.ticks })) := by
  have hne : (BitVec.ofNat 16 (fld v 15 0) == (s.mbox n).lastSeq) = false := by
    rw [hs, beq_eq_false_iff_ne]
    bv_omega
  simp only [mbDoorbell, hr, hne, Bool.false_and, Bool.false_eq_true, if_false, beq_iff_eq.2 hs, if_true, ho]

/-- A repeated sequence number has the response that was kept written again. -/
theorem mbDoorbell_of_repeated (hr : (s.mbox n).running = false) (hs : BitVec.ofNat 16 (fld v 15 0) = (s.mbox n).lastSeq) {ws : List Word}
    (hk : (s.mbox n).kept = some ws) :
    mbDoorbell n v irq s = if irq then mbVector n (mbWrite n ws s) else mbWrite n ws s := by
  simp only [mbDoorbell, hr, beq_iff_eq.2 hs, hk, Option.isSome_some, Bool.and_self, if_true, Bool.false_eq_true, if_false, Option.getD_some]

/-- Any other sequence number is BAD_SEQ. -/
theorem mbDoorbell_of_other (hr : (s.mbox n).running = false) (hs : BitVec.ofNat 16 (fld v 15 0) ≠ (s.mbox n).lastSeq)
    (hs' : BitVec.ofNat 16 (fld v 15 0) ≠ (s.mbox n).lastSeq + 1) :
    mbDoorbell n v irq s =
      (fun t => if irq then mbVector n t else t) (mbWrite n (mbResponse (Tab.getD (s.mbox n).page 0 0)
        (BitVec.ofNat 16 (fld v 15 0)).toNat 3 (s.mbox n).lastSeq.toNat []) s) := by
  simp only [mbDoorbell, hr, beq_eq_false_iff_ne.2 hs, beq_eq_false_iff_ne.2 hs', Bool.false_and, Bool.false_eq_true, if_false]

theorem mbDoorbell_of_running (hr : (s.mbox n).running = true) (hs : BitVec.ofNat 16 (fld v 15 0) = (s.mbox n).lastSeq) :
    mbDoorbell n v irq s = s := by
  simp only [mbDoorbell, hr, if_true, beq_iff_eq.2 hs]

end

section
variable {s : State} {mb : Mbox} {link : Nat} {v : Word}

theorem exec_mbDb_of_normal (hst : s.fc.dstate = .normal) (hlive : mbLive s (mbNum mb) = true) (hl : link = mbLink s (mbNum mb)) :
    exec (.mbDb mb link true v) s = .next (mbDoorbell (mbNum mb) v (v.getLsbD 16) s) := by
  simp [exec_mbDb, execMbDb, hst, hlive, hl, done]

end

/-- Settles O44: an idle mailbox by the sequence number, and what a halted device or a re-init does. -/
theorem mailboxDoorbell : Obligations.MailboxDoorbell := by
  intro s mb link v hlive hl
  refine ⟨fun hst hr hs ho => ?_, fun ws hst hr hs hk => ?_, fun hst hr hs hs' => ?_, fun hst hr hs => ?_, fun hst => ?_, fun hst hm => ?_,
    fun hst => ?_⟩
  · rw [exec_mbDb_of_normal hst hlive hl, mbDoorbell_of_next hr hs ho]
  · rw [exec_mbDb_of_normal hst hlive hl, mbDoorbell_of_repeated hr hs hk]
  · rw [exec_mbDb_of_normal hst hlive hl, mbDoorbell_of_other hr hs hs']
  · rw [exec_mbDb_of_normal hst hlive hl, mbDoorbell_of_running hr hs]
  · simp only [exec_mbDb, execMbDb, hst, beq_self_eq_true, if_true, done]
  · simp [exec_mbDb, execMbDb, hst, hlive, hl, hm, done]
  · simp [exec_mbDb, execMbDb, hst, hlive, dropWrite, done]

/-! ### Device and slice commands -/

section
variable {s : State} {mb : Mbox} {c : Caller} {a : List Word}

theorem exec_devInfo_of (h : cmdAdmitted s mb cmdDevInfo c a) :
    exec (.devInfo mb) s = .next (answered mb [0xB0, rw s.rumel.toNat, rw (b2n s.fleet), rw s.hbmGib,
      rw (((List.range 4).map (fun n => if linkPresent s n then 2 ^ n else 0)).foldl (· + ·) 0)] s) :=
  runCmd_ok h rfl

theorem exec_devPortAddr_of (h : cmdAdmitted s mb cmdDevPortAddr c a) (h0 : argN a 0 < 96) (h3 : argN a 3 ≤ 128) (h6 : argN a 6 ≤ 32)
    (hq : s.qps.find? (fun q => q.2.localPorts.contains (argN a 0) && (q.2.st == .active || q.2.st == .held || q.2.st == .draining)) = none) :
    exec (.devPortAddr mb) s = .next (answered mb [] (s.updLport (argN a 0) (fun l => { l with
      ipv6 := addrOf (arg a 1) (arg a 2), prefix6 := argN a 3
      ipv4 := BitVec.ofNat 32 ((addrOf (arg a 4) (arg a 5)).toNat >>> 96), prefix4 := argN a 6 }))) := by
  refine runCmd_ok h ?_
  simp only [cmdDevPortAddr, if_neg (Nat.not_le.2 h0), if_neg (Nat.not_lt.2 h3), if_neg (Nat.not_lt.2 h6), hq, okRes]

theorem exec_sliceCreate_of {n : Nat} (h : cmdAdmitted s mb cmdSliceCreate c a) (h0 : argN a 0 < 512 ∨ argN a 0 = 0x3FF)
    (hn : sliceSlot s (argN a 0) = some n) (h1 : argN a 1 < 4) (hp : linkPresent s (argN a 1) = true) (hu : (s.link (argN a 1)).up = true)
    (h2 : 0 < argN a 2) (h2' : argN a 2 < 1048576) (h3 : 16 ≤ argN a 3) (h4 : 0 < argN a 4) (h4' : argN a 4 ≤ 1024)
    (hok : (List.range 11).find? (fun i => !quotaOk i (((List.range 11).map (fun i => argN a (5 + i))).getD i 0)) = none)
    (hclash : sliceClash s (argN a 1) (argN a 2) (argN a 3) (argN a 4) = none)
    (hbreaks : quotaBreaks s n ((List.range 11).map (fun i => argN a (5 + i))) = none) :
    exec (.sliceCreate mb) s = .next (
      let t := s.updSlice n (fun _ => { st := .active, gen := (s.slice n).gen, link := argN a 1, pasid := argN a 2, msixBase := argN a 3
                                        msixCount := argN a 4, rights := 0xFF, targets := 7, quota := (List.range 11).map (fun i => argN a (5 + i)) })
      answered mb [rw n, rw (s.slice n).gen.toNat] (zeroCounters n { t.updMbox n (fun _ => {}) with cm := Tab.del t.cm n })) := by
  refine runCmd_ok h ?_
  have g0 : (decide (512 ≤ argN a 0) && decide (argN a 0 ≠ 0x3FF)) = false := by simp; omega
  have g1 : (decide (4 ≤ argN a 1) || !linkPresent s (argN a 1) || !(s.link (argN a 1)).up) = false := by simp [h1, hp, hu]
  have g2 : (decide (argN a 2 = 0) || decide (1048576 ≤ argN a 2)) = false := by simp; omega
  have g4 : (decide (argN a 4 = 0) || decide (1024 < argN a 4)) = false := by simp; omega
  simp only [cmdSliceCreate, g0, g1, g2, g4, hn, if_neg (Nat.not_lt.2 h3), hok, hclash, hbreaks, Bool.false_eq_true, if_false]

theorem exec_sliceDestroy_of (h : cmdAdmitted s mb cmdSliceDestroy c a) (h0 : argN a 0 < 512) (h1 : argN a 1 ≤ 1)
    (ha : (s.slice (argN a 0)).st = .active) :
    exec (.sliceDestroy mb) s = .next (answered mb [] (bindOff (argN a 0) (argN a 1 == 1) s)) := by
  refine runCmd_ok h ?_
  simp only [cmdSliceDestroy, if_neg (Nat.not_le.2 h0), if_neg (Nat.not_lt.2 h1), ha, okRes]

theorem exec_sliceSetQuota_of (h : cmdAdmitted s mb cmdSliceSetQuota c a) (h0 : argN a 0 < 512) (ha : (s.slice (argN a 0)).st = .active)
    (h1 : argN a 1 < 2 ^ 11)
    (hok : (List.range 11).find? (fun i => (arg a 1).getLsbD i && !quotaOk i (((List.range 11).map (fun i =>
      if (arg a 1).getLsbD i then argN a (2 + i) else (s.slice (argN a 0)).quota.getD i 0)).getD i 0)) = none)
    (hsum : (List.range 10).find? (fun i => decide ((s.slice (argN a 0)).quota.getD i 0 < ((List.range 11).map (fun i =>
        if (arg a 1).getLsbD i then argN a (2 + i) else (s.slice (argN a 0)).quota.getD i 0)).getD i 0) &&
      decide (quotaTotals.getD i 0 < quotaSum s (argN a 0) i + ((List.range 11).map (fun i =>
        if (arg a 1).getLsbD i then argN a (2 + i) else (s.slice (argN a 0)).quota.getD i 0)).getD i 0)) = none) :
    exec (.sliceSetQuota mb) s = .next (answered mb [] (s.updSlice (argN a 0) (fun x => { x with quota := (List.range 11).map (fun i =>
      if (arg a 1).getLsbD i then argN a (2 + i) else (s.slice (argN a 0)).quota.getD i 0) }))) := by
  refine runCmd_ok h ?_
  have g1 : ¬ 2 ^ 11 ≤ (arg a 1).toNat := Nat.not_le.2 h1
  simp only [cmdSliceSetQuota, if_neg (Nat.not_le.2 h0), ha, bne_self_eq_false, Bool.false_eq_true, if_false, if_neg g1, hok, hsum, okRes]

theorem exec_sliceSetRights_of (h : cmdAdmitted s mb cmdSliceSetRights c a) (h0 : argN a 0 < 512) (ha : (s.slice (argN a 0)).st = .active)
    (h1 : argN a 1 < 256) (h2 : argN a 2 < 16) :
    exec (.sliceSetRights mb) s = .next (answered mb [] (s.updSlice (argN a 0) (fun x =>
      { x with rights := BitVec.ofNat 8 (argN a 1), targets := BitVec.ofNat 4 (argN a 2) }))) := by
  refine runCmd_ok h ?_
  simp only [cmdSliceSetRights, if_neg (Nat.not_le.2 h0), ha, bne_self_eq_false, Bool.false_eq_true, if_false, if_neg (Nat.not_le.2 h1),
    if_neg (Nat.not_le.2 h2), okRes]

/-- A query draws two free words beyond the slice's record, its quotas and their use. -/
theorem exec_sliceQuery_of (h : cmdAdmitted s mb cmdSliceQuery c a) (h0 : argN a 0 < 512) :
    exec (.sliceQuery mb) s = .next (answered mb
      ([rw (match (s.slice (argN a 0)).st with | .free => 0 | .active => 1 | .draining => 2), rw (s.slice (argN a 0)).gen.toNat,
        rw (s.slice (argN a 0)).link, rw (s.slice (argN a 0)).pasid, rw (s.slice (argN a 0)).msixBase, rw (s.slice (argN a 0)).msixCount,
        rw (s.slice (argN a 0)).rights.toNat, rw (s.slice (argN a 0)).targets.toNat] ++
        (List.range 11).map (fun i => rw ((s.slice (argN a 0)).quota.getD i 0)) ++ (sliceUse s (argN a 0)).map rw ++
        [Config.freeWord (drawFree s).1, Config.freeWord (drawFree (drawFree s).2).1]) (drawFree (drawFree s).2).2) := by
  refine runCmd_ok h ?_
  simp only [cmdSliceQuery, if_neg (Nat.not_le.2 h0)] <;> rfl

theorem exec_sliceFree_of_drained {n : Nat} (hst : s.fc.dstate = .normal) (hd : (s.slice n).st = .draining) (h3 : (s.slice n).step3 = true)
    (h4 : (s.slice n).step4 = true) (hc : sliceCtxs s n = []) : exec (.sliceFree n) s =
      .next { s with slices := Tab.put s.slices n { gen := (s.slice n).gen }, mailboxes := Tab.del s.mailboxes n } := by
  simp only [exec_sliceFree, execSliceFree, running_of_normal hst, hd, h3, h4, hc, beq_self_eq_true, List.isEmpty_nil, Bool.and_self,
    if_true, done]

theorem exec_sliceDrainTimeout_of_draining {n : Nat} (hst : s.fc.dstate = .normal) (hd : (s.slice n).st = .draining)
    (ha : (s.slice n).abort = false) : exec (.sliceDrainTimeout n) s = .next (sliceAbort n s) := by
  simp only [exec_sliceDrainTimeout, execSliceDrainTimeout, running_of_normal hst, hd, ha, beq_self_eq_true, Bool.not_false, Bool.and_self,
    if_true, done]

end

theorem length_sliceUse (s : State) (n : Nat) : (sliceUse s n).length = 9 := rfl

/-- Settles O45, by one lemma for each command. -/
theorem deviceAndSliceCommands : Obligations.DeviceAndSliceCommands := by
  refine ⟨fun s mb c a => ⟨exec_devInfo_of, exec_devPortAddr_of, fun n h h0 hn h1 hp hu h2 h2' h3 h4 h4' hok hclash hbreaks =>
    exec_sliceCreate_of h h0 hn h1 hp hu h2 h2' h3 h4 h4' hok hclash hbreaks, exec_sliceDestroy_of, exec_sliceSetQuota_of,
    exec_sliceSetRights_of, fun h h0 => ⟨_, _, exec_sliceQuery_of h h0, ?_, ?_, ?_⟩⟩,
    fun s n hst hd => ⟨exec_sliceFree_of_drained hst hd, exec_sliceDrainTimeout_of_draining hst hd⟩⟩
  · simp [length_sliceUse]
  · rfl
  · rfl

end Sys2Proof.Machine
end

section
/-! Context and queue commands (13; 02; 03; 04). -/

namespace Sys2Proof.Machine

/-! ### Context commands -/

theorem cmdMark_zero (c : Caller) (s : State) : cmdMark c 0 s = (.none, s) := rfl

/-- What an INVALIDATE of a mailbox waits for, where it begins: the old uses of its own panel (R128). -/
theorem invAnswer_invBegin (mb n p : Nat) (pages : Option (Nat × Nat)) (s : State) :
    invAnswer mb n (invBegin mb n p pages s) =
      if drained (invBegin mb n p pages s) n p (((invBegin mb n p pages s).ctx n).panel p).tgen then (.ok [], invBegin mb n p pages s)
      else (.wait, invBegin mb n p pages s) := by
  have hinv : ((invBegin mb n p pages s).mbox mb).inv = (p, (((invBegin mb n p pages s).ctx n).panel p).tgen) := by
    simp only [invBegin, State.updMbox_mbox_self, State.updMbox_ctx_other]
  simp only [invAnswer, hinv, okRes]

section
variable {s : State} {mb : Mbox} {c : Caller} {a : List Word}

/-- An admitted command that ends OK and does nothing after its answer. -/
theorem runCmd_answers {k : Cmd} (h : cmdAdmitted s mb k c a) (ha : k.after = fun _ s => s) {rs : List Word} {t : State}
    (hb : k.body c a s = (.ok rs, t)) : runCmd mb k s = .next (answered mb rs t) := by
  rw [runCmd_ok h hb, ha]

/-- A command that answers an INVALIDATE answers OK once the old uses have ended, and waits until then. -/
theorem runCmd_of_invAnswer {k : Cmd} (h : cmdAdmitted s mb k c a) (ha : k.after = fun _ s => s) {n p : Nat} {pages : Option (Nat × Nat)}
    {t : State} (hb : k.body c a s = invAnswer c.mb n (invBegin c.mb n p pages t)) :
    runCmd mb k s = .next (if drained (invBegin c.mb n p pages t) n p (((invBegin c.mb n p pages t).ctx n).panel p).tgen
      then answered mb [] (invBegin c.mb n p pages t) else invBegin c.mb n p pages t) := by
  rw [invAnswer_invBegin] at hb
  split at hb
  · next hd => rw [runCmd_ok h hb, ha, if_pos hd]
  · next hd => rw [runCmd_wait h hb, if_neg hd]

theorem exec_ctxCreate_of (h : cmdAdmitted s mb cmdCtxCreate c a) (h0 : argN a 0 < 0x1000) (h2 : argN a 2 ≤ 15) (h3 : argN a 3 = 0)
    (hf : (s.ctx (argN a 0)).st = .free) (hq : quotaFull s c.sl 0 = false) :
    exec (.ctxCreate mb) s = .next (answered mb [rw (argN a 0), rw ((s.ctx (argN a 0)).epoch + 1).toNat] (touchCtx (argN a 0)
      (tagUpdate (argN a 0) true (s.updCtx (argN a 0) (fun _ =>
        { st := .active, epoch := (s.ctx (argN a 0)).epoch + 1, slice := c.sl, panels := [], seed := arg a 1, resTimeout := argN a 2 }))))) := by
  refine runCmd_answers h rfl ?_
  have hne : argN a 0 ≠ 0x1000 := by omega
  have hle : ¬ 4096 < argN a 0 := by omega
  simp only [cmdCtxCreate, if_neg hne, if_neg hle, if_neg (Nat.not_lt.2 h2), h3, hf, hq, bne_self_eq_false, Bool.false_eq_true, if_false]
  rfl

theorem exec_ctxSetPanel_of_started (h : cmdAdmitted s mb cmdCtxSetPanel c a) (hs : (s.mbox c.mb).started = true)
    (hd : drained s (argN a 0) (s.mbox c.mb).inv.1 (s.mbox c.mb).inv.2 = true) : exec (.ctxSetPanel mb) s = .next (answered mb [] s) := by
  refine runCmd_answers h rfl ?_
  simp only [cmdCtxSetPanel, hs, if_true, invAnswer, hd, okRes]

theorem exec_ctxSetPanel_of_new (h : cmdAdmitted s mb cmdCtxSetPanel c a) (hs : (s.mbox c.mb).started = false)
    (hn : ctxNamed s c (argN a 0) = true) (ha : (s.ctx (argN a 0)).st = .active) (h1 : argN a 1 < 8)
    (hheld : panelHeld s (argN a 0) (argN a 1) = false)
    (hbad : panelBad s c.sl (((s.ctx (argN a 0)).panels.filter (fun e => e.1 != argN a 1)).map (·.2)) (panelArg a 2) = none)
    (hcan : canInvalidate s (argN a 0) (argN a 1) = true) :
    exec (.ctxSetPanel mb) s = .next (
      let t := invBegin c.mb (argN a 0) (argN a 1) none (replacePanel (argN a 0) (argN a 1) (panelArg a 2) s)
      if drained t (argN a 0) (argN a 1) ((t.ctx (argN a 0)).panel (argN a 1)).tgen then answered mb [] t else t) := by
  refine runCmd_of_invAnswer (n := argN a 0) (p := argN a 1) (pages := none)
    (t := replacePanel (argN a 0) (argN a 1) (panelArg a 2) s) h rfl ?_
  simp only [cmdCtxSetPanel, hs, hn, ha, if_neg (Nat.not_le.2 h1), hheld, hbad, hcan, bne_self_eq_false, Bool.not_true, Bool.false_eq_true,
    if_false]

theorem exec_ctxQuery_of (h : cmdAdmitted s mb cmdCtxQuery c a) (ho : ownCtx s c (argN a 0) = true) :
    exec (.ctxQuery mb) s = .next (answered mb ([rw (ctxStateCode (s.ctx (argN a 0)).st), rw (s.ctx (argN a 0)).epoch.toNat,
      rw (s.ctx (argN a 0)).lostCause, rw (s.ctx (argN a 0)).slice] ++ (List.range 8).flatMap (fun i =>
        [((s.ctx (argN a 0)).panel i).p0, ((s.ctx (argN a 0)).panel i).p1, ((s.ctx (argN a 0)).panel i).p2, ((s.ctx (argN a 0)).panel i).p3])) s) := by
  refine runCmd_answers h rfl ?_
  simp only [cmdCtxQuery, ho, Bool.not_true, Bool.false_eq_true, if_false]

theorem exec_ctxDestroy_of (h : cmdAdmitted s mb cmdCtxDestroy c a) (hn : ctxNamed s c (argN a 0) = true)
    (hst : (s.ctx (argN a 0)).st = .active ∨ (s.ctx (argN a 0)).st = .lost) (h1 : argN a 1 ≤ 1) (h2 : arg a 2 = 0) :
    exec (.ctxDestroy mb) s = .next (answered mb []
      (touchCtx (argN a 0) (drainCtx (argN a 0) (argN a 1 == 1) false (s.updCtx (argN a 0) (fun x => { x with doneMark := none }))))) := by
  refine runCmd_answers h rfl ?_
  have hgate : ((s.ctx (argN a 0)).st != .active && (s.ctx (argN a 0)).st != .lost) = false := by
    rcases hst with h | h <;> rw [h] <;> rfl
  simp only [cmdCtxDestroy, hn, hgate, if_neg (Nat.not_lt.2 h1), h2, cmdMark_zero, Bool.not_true, Bool.false_eq_true, if_false, okRes]

theorem exec_ctxInvalidate_of_panel (h : cmdAdmitted s mb cmdCtxInvalidate c a) (hs : (s.mbox c.mb).started = false) (h0 : argN a 0 < 4096)
    (hf : (s.ctx (argN a 0)).st ≠ .free) (hd : (s.slice (s.ctx (argN a 0)).slice).st ≠ .draining) (h1 : argN a 1 = 0) (h2 : argN a 2 < 8)
    (hcan : canInvalidate s (argN a 0) (argN a 2) = true) :
    exec (.ctxInvalidate mb) s = .next (
      let t := invBegin c.mb (argN a 0) (argN a 2) none s
      if drained t (argN a 0) (argN a 2) ((t.ctx (argN a 0)).panel (argN a 2)).tgen then answered mb [] t else t) := by
  refine runCmd_of_invAnswer (n := argN a 0) (p := argN a 2) (pages := none) (t := s) h rfl ?_
  have g0 : (decide (4096 ≤ argN a 0) || (s.ctx (argN a 0)).st == .free) = false := by simp [hf]; omega
  simp only [cmdCtxInvalidate, hs, g0, beq_eq_false_iff_ne.2 hd, h1, if_neg (Nat.not_le.2 h2), invalidatePanel, hcan, Bool.not_false,
    Bool.not_true, Bool.true_and, Bool.false_and, Bool.false_eq_true, if_false]

theorem exec_ctxLose_of (h : cmdAdmitted s mb cmdCtxLose c a) (h0 : argN a 0 < 4096) (ha : (s.ctx (argN a 0)).st = .active)
    (hd : (s.slice (s.ctx (argN a 0)).slice).st ≠ .draining) :
    exec (.ctxLose mb) s = .next (answered mb [] (touchCtx (argN a 0) (contextLost (argN a 0) 7 s))) := by
  refine runCmd_answers h rfl ?_
  simp only [cmdCtxLose, if_neg (Nat.not_le.2 h0), ha, beq_eq_false_iff_ne.2 hd, bne_self_eq_false, Bool.and_false, Bool.false_eq_true,
    if_false, okRes]

end

/-- Settles O46, by one lemma for each command. -/
theorem contextCommands : Obligations.ContextCommands := fun _ _ _ _ =>
  ⟨exec_ctxCreate_of, exec_ctxSetPanel_of_started, exec_ctxSetPanel_of_new, exec_ctxQuery_of, exec_ctxDestroy_of, exec_ctxInvalidate_of_panel,
    exec_ctxLose_of⟩

/-! ### Queue commands -/

section
variable {s : State} {mb : Mbox} {c : Caller} {a : List Word}

theorem exec_queueCreate_of_sq (h : cmdAdmitted s mb cmdQueueCreate c a) {n : Nat} (hbad : queueBad s c a = none)
    (hn : queueSlot s (argN a 1 == 0) = some n) (h1 : argN a 1 = 0) (hq : quotaFull s c.sl 2 = false) :
    exec (.queueCreate mb) s = .next (answered mb [rw n] (writeShadow n (touchSq n
      (s.updSq n (fun _ => { st := .active, size := 2 ^ argN a 3, ctx := argN a 0, locl := argN a 2, ringMo := dLo (arg a 4)
                             ringOff := argN a 5 - (s.moOf (dLo (arg a 4))).base, shadowMo := dLo (arg a 6)
                             shadowOff := argN a 7 - (s.moOf (dLo (arg a 6))).base, cq := argN a 8 }))))) := by
  refine runCmd_answers h rfl ?_
  simp only [h1, beq_self_eq_true] at hn
  simp only [cmdQueueCreate, hbad, h1, beq_self_eq_true, hn, if_true, hq, Bool.false_eq_true, if_false]

theorem exec_queueCreate_of_cq (h : cmdAdmitted s mb cmdQueueCreate c a) {n : Nat} (hbad : queueBad s c a = none)
    (hn : queueSlot s (argN a 1 == 0) = some n) (h1 : argN a 1 ≠ 0) (hq : quotaFull s c.sl 3 = false) :
    exec (.queueCreate mb) s = .next (answered mb [rw n] (touchCq n
      (s.updCq n (fun _ => { active := true, size := 2 ^ argN a 3, ctx := argN a 0, locl := argN a 2, ringMo := dLo (arg a 4)
                             ringOff := argN a 5 - (s.moOf (dLo (arg a 4))).base, vector := (s.slice c.sl).msixBase + argN a 9 })))) := by
  refine runCmd_answers h rfl ?_
  have h1' := beq_eq_false_iff_ne.2 h1
  rw [h1'] at hn
  simp only [cmdQueueCreate, hbad, h1', hn, hq, Bool.false_eq_true, if_false]

/-- A queue that is named and not CLOSED is closed, and its armed triggers end (R76, log 113). -/
theorem exec_queueDestroy_of_sq (h : cmdAdmitted s mb cmdQueueDestroy c a) (hn : sqNamed s c (argN a 0) = true)
    (hc : (s.sq (argN a 0)).st ≠ .closed) (h1 : argN a 1 ≤ 1) :
    exec (.queueDestroy mb) s = .next (answered mb [] (
      let t := touchSq (argN a 0) (writeShadow (argN a 0) ((closeSq (argN a 0) (argN a 1 == 1) s).updSq (argN a 0)
        (fun q => { q with destroyed := true })))
      if argN a 1 == 1 then endArmed (argN a 0) true (endUnstarted (argN a 0) stAborted t)
      else pumpFetch (argN a 0) (endArmed (argN a 0) false t))) := by
  refine runCmd_answers h rfl ?_
  simp only [cmdQueueDestroy, hn, beq_eq_false_iff_ne.2 hc, if_neg (Nat.not_lt.2 h1), Bool.not_true, Bool.false_and, Bool.false_eq_true,
    if_false, if_true, okRes]

theorem exec_queueDestroy_of_cq (h : cmdAdmitted s mb cmdQueueDestroy c a) (hn : sqNamed s c (argN a 0) = false)
    (hc : cqNamed s c (argN a 0) = true) (h1 : argN a 1 = 0) (hs : s.sqs.any (fun e => e.2.st != .free && e.2.cq == argN a 0) = false)
    (hq : s.qps.any (fun e => e.2.rxMo != 0 && e.2.rxCq == argN a 0) = false) :
    exec (.queueDestroy mb) s = .next (answered mb [] (touchCq (argN a 0) { s with cqs := Tab.del s.cqs (argN a 0) })) := by
  refine runCmd_answers h rfl ?_
  simp only [cmdQueueDestroy, hn, hc, if_neg (show ¬ 1 < argN a 1 by omega), hs, hq, Bool.not_true, Bool.and_false, Bool.or_self,
    Bool.false_eq_true, if_false, okRes]

theorem exec_queueHold_of (h : cmdAdmitted s mb cmdQueueHold c a) (hn : sqNamed s c (argN a 0) = true) (ha : (s.sq (argN a 0)).st = .active) :
    exec (.queueHold mb) s = .next (answered mb [] (touchSq (argN a 0) (holdSq (argN a 0) .command s))) := by
  refine runCmd_answers h rfl ?_
  simp only [cmdQueueHold, hn, ha, bne_self_eq_false, Bool.not_true, Bool.false_eq_true, if_false, okRes]

theorem exec_queueResume_of (h : cmdAdmitted s mb cmdQueueResume c a) (hn : sqNamed s c (argN a 0) = true) (hh : (s.sq (argN a 0)).st = .held)
    (h1 : argN a 1 = 0) :
    exec (.queueResume mb) s = .next (answered mb [] (pumpFetch (argN a 0)
      ((touchSq (argN a 0) (resumeSq (argN a 0) s)).updSq (argN a 0) (fun q => { q with flush := false })))) := by
  refine runCmd_answers h rfl ?_
  simp only [cmdQueueResume, hn, hh, h1, bne_self_eq_false, Bool.not_true, Bool.false_eq_true, if_false, okRes]
  rfl

end

/-- Settles O47, by one lemma for each command. -/
theorem queueCommands : Obligations.QueueCommands := by
  intro s mb c a
  refine ⟨fun n h hbad hn => ⟨exec_queueCreate_of_sq h hbad hn, exec_queueCreate_of_cq h hbad hn⟩, fun h hn hc => ⟨fun h1 => ?_, fun h1 => ?_⟩,
    exec_queueDestroy_of_cq, exec_queueHold_of, exec_queueResume_of⟩
  · have hb : (argN a 1 == 1) = false := by rw [h1]; rfl
    rw [exec_queueDestroy_of_sq h hn hc (by omega)]
    simp only [hb, Bool.false_eq_true, if_false]
  · have hb : (argN a 1 == 1) = true := by rw [h1]; rfl
    rw [exec_queueDestroy_of_sq h hn hc (by omega)]
    simp only [hb, if_true]

end Sys2Proof.Machine
end

section
/-! QP and datagram commands (13; 05). -/

namespace Sys2Proof.Machine

/-! ### QP commands -/

section
variable {s : State} {mb : Mbox} {c : Caller} {a : List Word}

theorem get_qps_of_qpNamed {n : Nat} (h : qpNamed s c n = true) : ∃ q, Tab.get s.qps n = some q := by
  unfold qpNamed at h
  split at h
  · next q hq => exact ⟨q, hq⟩
  · cases h

/-- What `qp_init` makes of the QP it names. -/
def qpInited (a : List Word) (q : Qp) : Qp :=
  { q with
    st := .init
    localPorts := portsArg a
    npaths := argN a 3
    sportBase := argN a 4
    payloadMax := argN a 5
    ipv4 := argN a 6 == 1
    rxMo := dLo (arg a 7)
    rxOff := argN a 8
    rxLog2 := argN a 9
    rxCq := argN a 10
    sickHold := argN a 11
    roce := { q.roce with maxRetry := fld (arg a 12) 2 0, maxRnr := fld (arg a 12) 5 3, ackTimeout := fld (arg a 12) 10 6 } }

theorem qp_updQp_of_qpNamed {n : Nat} (h : qpNamed s c n = true) (f : Qp → Qp) : (s.updQp n f).qp n = f (s.qp n) := by
  obtain ⟨q, hq⟩ := get_qps_of_qpNamed h
  exact State.updQp_qp_self _ _ _ (by rw [hq]; rfl)

theorem exec_qpCreate_of {n : Nat} (h : cmdAdmitted s mb cmdQpCreate c a) (hn : ctxNamed s c (argN a 0) = true)
    (hst : (s.ctx (argN a 0)).st = .active) (h1 : argN a 1 ≤ 1) (hs : qpSlot s = some n) (hq : quotaFull s c.sl 1 = false) :
    exec (.queueQpCreate mb) s = .next (answered mb [rw n]
      (touchQp n { s with qps := Tab.put s.qps n { mode := if argN a 1 = 0 then .ert else .roce, ctx := argN a 0 } })) := by
  refine runCmd_answers h rfl ?_
  simp only [cmdQpCreate, hn, hst, bne_self_eq_false, if_neg (Nat.not_lt.2 h1), hs, hq, Bool.not_true, Bool.false_eq_true, if_false]

theorem exec_qpInit_of (h : cmdAdmitted s mb cmdQpInit c a) (hn : qpNamed s c (argN a 0) = true) (hst : (s.qp (argN a 0)).st = .reset)
    (hb : qpInitBad s (argN a 0) a = none) :
    exec (.queueQpInit mb) s = .next (answered mb [] (touchQp (argN a 0) (s.updQp (argN a 0) (qpInited a)))) := by
  refine runCmd_answers h rfl ?_
  simp only [cmdQpInit, hn, hst, hb, bne_self_eq_false, Bool.not_true, Bool.false_eq_true, if_false, okRes]
  rfl

theorem exec_qpConnect_of {k : Nat} (h : cmdAdmitted s mb cmdQpConnect c a) (hn : qpNamed s c (argN a 0) = true)
    (hst : (s.qp (argN a 0)).st = .init) (hm : (s.qp (argN a 0)).mode = .ert) (hb : qpConnectBad s (s.qp (argN a 0)) a = none)
    (hk : needleFor s = some k) :
    exec (.queueQpConnect mb) s = .next (answered mb [rw k]
      (setAssigned k (touchQp (argN a 0) (s.updQp (argN a 0) (fun q => q.connected s k a))))) := by
  refine runCmd_answers h rfl ?_
  simp only [cmdQpConnect, hn, hst, hm, hb, hk, bne_self_eq_false, Bool.not_true, Bool.false_eq_true, if_false, beq_self_eq_true,
    Bool.true_or, if_true]

theorem exec_qpHold_of (h : cmdAdmitted s mb cmdQpHold c a) (hn : qpNamed s c (argN a 0) = true) (hst : (s.qp (argN a 0)).st = .active) :
    exec (.queueQpHold mb) s =
      .next (answered mb [] (touchQp (argN a 0) (s.updQp (argN a 0) (fun q => { q with st := .held, cmdHeld := true })))) := by
  refine runCmd_answers h rfl ?_
  simp only [cmdQpHold, hn, hst, bne_self_eq_false, Bool.not_true, Bool.false_eq_true, if_false, okRes]

theorem exec_qpResume_of_ert (h : cmdAdmitted s mb cmdQpResume c a) (hn : qpNamed s c (argN a 0) = true)
    (hst : (s.qp (argN a 0)).st = .held) (hh : (s.qp (argN a 0)).cmdHeld = true) (hm : (s.qp (argN a 0)).mode = .ert) :
    exec (.queueQpResume mb) s = .next (answered mb [] (pumpWork (pumpQp 1024 (argN a 0)
      (touchQp (argN a 0) (s.updQp (argN a 0) (fun q => { q with st := .active, cmdHeld := false })))))) := by
  have hroce : (QpMode.ert == QpMode.roce) = false := rfl
  refine runCmd_answers h rfl ?_
  simp only [cmdQpResume, hn, hst, hh, hm, hroce, bne_self_eq_false, Bool.not_true, Bool.or_self, Bool.false_eq_true, if_false, okRes]

theorem exec_qpDestroy_of (h : cmdAdmitted s mb cmdQpDestroy c a) (hn : qpNamed s c (argN a 0) = true)
    (hst : (s.qp (argN a 0)).st ≠ .draining) (h1 : argN a 1 ≤ 1) :
    exec (.queueQpDestroy mb) s = .next (answered mb [] (touchQp (argN a 0) (qpDrain (argN a 0) (argN a 1 == 1) s))) := by
  refine runCmd_answers h rfl ?_
  simp only [cmdQpDestroy, hn, beq_eq_false_iff_ne.2 hst, if_neg (Nat.not_lt.2 h1), Bool.not_true, Bool.false_eq_true, if_false, okRes]

theorem exec_qpReset_of {k : Nat} (h : cmdAdmitted s mb cmdQpReset c a) (hn : qpNamed s c (argN a 0) = true)
    (hst : (s.qp (argN a 0)).st = .error) (hi : qpIdle s (argN a 0) = true) (hk : (s.qp (argN a 0)).needle = some k) :
    exec (.queueQpReset mb) s =
      .next (answered mb [] (setAssigned k (touchQp (argN a 0) (s.updQp (argN a 0) Qp.cleared)))) := by
  refine runCmd_answers h rfl ?_
  simp only [cmdQpReset, hn, hst, hi, hk, bne_self_eq_false, Bool.not_true, Bool.false_eq_true, if_false, okRes]

theorem exec_qpQuery_of_ert (h : cmdAdmitted s mb cmdQpQuery c a) (hn : qpNamed s c (argN a 0) = true)
    (hm : (s.qp (argN a 0)).mode = .ert) : exec (.queueQpQuery mb) s =
      .next (answered mb [rw (qpStateCode (s.qp (argN a 0)).st), 0, rw ((s.qp (argN a 0)).needle.getD 0), rw (s.qp (argN a 0)).errCause,
        rw (s.qp (argN a 0)).sndUna.toNat, rw (s.qp (argN a 0)).base.toNat] s) := by
  have hroce : (QpMode.ert == QpMode.roce) = false := rfl
  refine runCmd_answers h rfl ?_
  simp only [cmdQpQuery, hn, hm, hroce, Bool.not_true, Bool.false_eq_true, if_false]
  rfl

/-! ### Datagrams -/

/-- The bytes on the wire of a datagram of `cm_send`. -/
def cmSendBytes (s : State) (a : List Word) : Nat :=
  14 + (if (roceVlan s (lpPort (argN a 0)) 7).isSome then 4 else 0) + (if (addrOf (arg a 1) (arg a 2)).toNat % 2 ^ 96 = 0 then 20 else 40) +
    8 + 12 + 8 + argN a 3 + 4 + 4

theorem exec_cmSend_of (h : cmdAdmitted s mb cmdCmSend c a) (h0 : argN a 0 < 96) (h3 : 0 < argN a 3) (h3' : argN a 3 ≤ 256) :
    exec (.queueCmSend mb) s =
      .next (answered mb [] (egressPut (argN a 0) { kind := .roce, tc := 7, bytes := cmSendBytes s a
                                                    frame := .cm (netHdr s (argN a 0)
                                                        (decide ((addrOf (arg a 1) (arg a 2)).toNat % 2 ^ 96 = 0))
                                                        (addrOf (arg a 1) (arg a 2)) 7 0 4791 (roceVlan s (lpPort (argN a 0)) 7))
                                                      (((List.range 32).flatMap (fun i => leBytes 8 (argN a (4 + i)))).take (argN a 3)) } s)) := by
  have hlen : (decide (argN a 3 = 0) || decide (256 < argN a 3)) = false := by simp; omega
  refine runCmd_answers h rfl ?_
  simp only [cmdCmSend, cmSendBytes, if_neg (Nat.not_le.2 h0), hlen, Bool.false_eq_true, if_false, okRes]

theorem exec_cmRecv_of {d : Datagram} (h : cmdAdmitted s mb cmdCmRecv c a) (h0 : argN a 0 < 96)
    (hd : (Tab.getD s.cm (c.slice.getD 512) []).find? (fun d => d.lport == argN a 0) = some d) : exec (.queueCmRecv mb) s =
      .next (answered mb (rw d.data.length :: addrWords d.src ++ wordsOf 32 d.data)
        { s with cm := Tab.put s.cm (c.slice.getD 512) ((Tab.getD s.cm (c.slice.getD 512) []).erase d) }) := by
  refine runCmd_answers h rfl ?_
  simp only [cmdCmRecv, if_neg (Nat.not_le.2 h0), hd]

end

/-- Settles O48: each command's body, read with the request admitted and the guards of its clause met. -/
theorem qpCommands : Obligations.QpCommands := by
  intro s mb c a
  refine ⟨fun _ h hn hst h1 hs hq => exec_qpCreate_of h hn hst h1 hs hq, ?_,
    fun _ h hn hst hm hb hk => exec_qpConnect_of h hn hst hm hb hk, fun h hn hst => exec_qpHold_of h hn hst,
    fun h hn hst hh hm => exec_qpResume_of_ert h hn hst hh hm, fun h hn hst h1 => exec_qpDestroy_of h hn hst h1,
    fun _ h hn hst hi hk => exec_qpReset_of h hn hst hi hk, fun h hn hm => exec_qpQuery_of_ert h hn hm,
    fun h h0 h3 h3' => ⟨cmSendBytes s a, exec_cmSend_of h h0 h3 h3'⟩, fun _ h h0 hd => exec_cmRecv_of h h0 hd⟩
  intro h hn hst hb
  refine ⟨s.updQp (argN a 0) (qpInited a), exec_qpInit_of h hn hst hb, ?_⟩
  rw [qp_updQp_of_qpNamed hn]
  exact ⟨rfl, rfl, rfl, rfl, rfl, rfl, rfl⟩

end Sys2Proof.Machine
end

section
/-! Memory-object, window and marker commands (13; 02). -/

namespace Sys2Proof.Machine

section
variable {s t : State} {mb : Mbox} {c : Caller} {a : List Word}

/-- A drain argument of 0 names no marker: the command goes on without one (R29). -/
theorem withDrain_of_zero {st i : Nat} {w v : Word} {own : BitVec 32} {go : Option (MarkRef × Word) → State → State} (hw : w = 0) :
    withDrain c st i w v own s go = okRes (go none s) := by
  rw [withDrain, hw, cmdMark_zero]

/-! ### Memory objects and windows -/

theorem exec_memRegister_of {i : Nat} {p : Panel} {h' : BitVec 32} (h : cmdAdmitted s mb cmdMemRegister c a)
    (hn : ctxNamed s c (argN a 0) = true) (hst : (s.ctx (argN a 0)).st = .active) (h1 : argN a 1 % 64 = 0) (h2 : argN a 2 % 64 = 0)
    (h2' : argN a 2 ≠ 0) (hp : rangePanel (s.ctx (argN a 0)) (argN a 1) (argN a 2) = some (i, p)) (h3 : argN a 3 < 64)
    (hr : BitVec.ofNat 6 (argN a 3) &&& ~~~p.rights = 0) (h4 : argN a 4 = 0) (hq : quotaFull s c.sl 4 = false)
    (hm : moNew (fun o => { o with
      ctx := argN a 0, panel := i, base := argN a 1, len := argN a 2, rights := BitVec.ofNat 6 (argN a 3), coherent := false }) s = some (h', t)) :
    exec (.memRegister mb) s = .next (answered mb [rw h'.toNat] t) := by
  have hlen : (decide (argN a 2 % 64 ≠ 0) || decide (argN a 2 = 0)) = false := by simp [h2, h2']
  have hcoh : (argN a 4 == 1) = false := by rw [h4]; rfl
  have hsmall : (decide (1 < argN a 4) || false) = false := by rw [h4]; rfl
  refine runCmd_answers h rfl ?_
  simp only [cmdMemRegister, hn, hst, hlen, hp, hcoh, hsmall, hq, hm, moAnswer, hw, if_neg (not_not.2 h1), if_neg (Nat.not_le.2 h3),
    if_neg (not_not.2 hr), bne_self_eq_false, Bool.not_true, Bool.false_and, Bool.false_eq_true, if_false]

theorem exec_memFree_of (h : cmdAdmitted s mb cmdMemFree c a) (hn : moNamed s c (dLo (arg a 0)) = true)
    (hr : liveRing s (dLo (arg a 0)) = none) (h1 : arg a 1 = 0) (hi : (s.mo (moIndex (dLo (arg a 0)))).inv = false) :
    exec (.memFree mb) s =
      .next (answered mb [] (touchMo (moIndex (dLo (arg a 0))) (retireMo (moIndex (dLo (arg a 0))) none s))) := by
  refine runCmd_answers h rfl ?_
  simp only [cmdMemFree, hi, hn, hr, withDrain_of_zero h1, okRes, Bool.and_false, Bool.false_and, Bool.not_true, Bool.false_eq_true, if_false]

theorem exec_memQuery_of (h : cmdAdmitted s mb cmdMemQuery c a) (h0 : moGen (dLo (arg a 0)) ≠ 0)
    (hg : (s.moOf (dLo (arg a 0))).gen = moGen (dLo (arg a 0))) (hst : (s.moOf (dLo (arg a 0))).st ≠ .free)
    (ho : c.owns (s.ctx (s.moOf (dLo (arg a 0))).ctx).slice = true) :
    exec (.memQuery mb) s = .next (answered mb [rw (objCode (s.moOf (dLo (arg a 0))).st), rw (s.moOf (dLo (arg a 0))).ctx,
      rw (s.moOf (dLo (arg a 0))).base, rw (s.moOf (dLo (arg a 0))).len, rw (s.moOf (dLo (arg a 0))).rights.toNat,
      rw (s.moOf (dLo (arg a 0))).uses] s) := by
  refine runCmd_answers h rfl ?_
  simp only [cmdMemQuery, h0, hg, ne_eq, not_true_eq_false, decide_false, beq_eq_false_iff_ne.2 hst, ho, Bool.not_true, Bool.or_self,
    Bool.false_eq_true, if_false]

theorem exec_winRegister_of {i : Nat} (h : cmdAdmitted s mb cmdWinRegister c a) (hn : moNamed s c (dLo (arg a 0)) = true)
    (h1 : argN a 1 % 64 = 0) (h2 : argN a 2 % 64 = 0) (h2' : argN a 2 ≠ 0) (hle : argN a 1 + argN a 2 ≤ (s.moOf (dLo (arg a 0))).len)
    (h3 : argN a 3 &&& 0x5C = argN a 3) (hr : winRightsOf (argN a 3) &&& ~~~(winGrant (s.moOf (dLo (arg a 0)))) = 0)
    (h4 : argN a 4 < 131072) (hq : quotaFull s c.sl 5 = false) (hs : winSlot s = some (i, t)) :
    exec (.winRegister mb) s =
      .next (answered mb [rw (winHandle i (nextGen (t.win i).gen 16383)).toNat] (touchWin i (t.updWin i (fun _ =>
        { gen := nextGen (t.win i).gen 16383, st := .valid, mo := dLo (arg a 0), off := argN a 1, len := argN a 2
          rights := winRightsOf (argN a 3), allowedQp := argN a 4 })))) := by
  have hlen : (decide (argN a 2 % 64 ≠ 0) || decide (argN a 2 = 0) || decide ((s.moOf (dLo (arg a 0))).len < argN a 1 + argN a 2)) = false := by
    simp [h2, h2', hle]
  refine runCmd_answers h rfl ?_
  simp only [cmdWinRegister, hn, hlen, hq, hs, hw, if_neg (not_not.2 h1), if_neg (not_not.2 h3), if_neg (not_not.2 hr), if_neg (Nat.not_le.2 h4),
    Bool.not_true, Bool.false_eq_true, if_false]

theorem exec_winRevoke_of (h : cmdAdmitted s mb cmdWinRevoke c a) (h0 : winGen (dLo (arg a 0)) ≠ 0)
    (hg : (s.win (winIndex (dLo (arg a 0)))).gen = winGen (dLo (arg a 0))) (hst : (s.win (winIndex (dLo (arg a 0)))).st = .valid)
    (ho : c.owns (s.ctx (winCtx s (s.win (winIndex (dLo (arg a 0)))))).slice = true) (h1 : arg a 1 = 0) :
    exec (.winRevoke mb) s =
      .next (answered mb [] (touchWin (winIndex (dLo (arg a 0))) (retireWin (winIndex (dLo (arg a 0))) none s))) := by
  refine runCmd_answers h rfl ?_
  simp only [cmdWinRevoke, h0, hg, hst, ho, withDrain_of_zero h1, okRes, ne_eq, not_true_eq_false, decide_false, bne_self_eq_false,
    Bool.not_true, Bool.or_self, Bool.false_eq_true, if_false]

/-! ### Markers -/

theorem exec_markerReset_of {r : MarkRef} (hi : (s.moOf (dLo (arg a 0))).imported = none) (hr : cmdMark c (arg a 0) s = (.ok r, t))
    (h : cmdAdmitted s mb cmdMarkerReset c a) (hv : (arg a 1).getLsbD 63 = false)
    (hw : t.ops.any (fun e => e.2.waitsOn t r.key) = false) :
    exec (.markerReset mb) s = .next (answered mb [] (storeMarker r (resetRecord (markerAt t r.key) (arg a 1)) t)) := by
  refine runCmd_answers h rfl ?_
  simp only [cmdMarkerReset, hv, hi, hr, hw, okRes, Option.isSome_none, Bool.and_false, Bool.false_eq_true, if_false]

/-- The value of the cookie that a slice is given for a marker, the next free word of `s` (R56). -/
def exportCookie (s : State) : Word := BitVec.ofNat 64 (Config.random (drawFree s).1).toNat

/-- The cookie is counted, kept for the slice it names, and listed with the marker's object. -/
def exportKept (s : State) (h : BitVec 32) (r : MarkRef) (n : Nat) : State :=
  (count 528 3 { (drawFree s).2 with
    cookies := { value := exportCookie s, mark := r, slice := n, gen := (s.slice n).gen } :: s.cookies }).updMo (moIndex h)
    (fun o => { o with exports := (r, none) :: o.exports })

theorem exportKept_cookies (h : BitVec 32) (r : MarkRef) (n : Nat) :
    (exportKept s h r n).cookies = { value := exportCookie s, mark := r, slice := n, gen := (s.slice n).gen } :: s.cookies := rfl

theorem exec_markerExport_of {r : MarkRef} (hi : (s.moOf (dLo (arg a 0))).imported = none) (hr : cmdMark c (arg a 0) s = (.ok r, t))
    (h : cmdAdmitted s mb cmdMarkerExport c a) (h1 : argN a 1 < 512) (hst : (t.slice (argN a 1)).st = .active)
    (ho : c.slice ≠ some (argN a 1)) (hl : t.cookies.length < 4096) :
    exec (.markerExport mb) s =
      .next (answered mb [exportCookie t] (raiseFlag r 5 (exportKept t (dLo (arg a 0)) r (argN a 1)))) := by
  refine runCmd_answers h rfl ?_
  simp only [cmdMarkerExport, hi, hr, hst, decide_eq_false (Nat.not_le.2 h1), beq_eq_false_iff_ne.2 ho, if_neg (Nat.not_le.2 hl),
    bne_self_eq_false, Option.isSome_none, Bool.and_false, Bool.or_self, Bool.false_eq_true, if_false]
  rfl

theorem exec_markerImport_of {k : Cookie} {h' : BitVec 32} (h : cmdAdmitted s mb cmdMarkerImport c a) (hk : cookieFor s c (arg a 0) = some k)
    (hn : ownCtx s c (argN a 1) = true) (hst : (s.ctx (argN a 1)).st = .active) (hq : quotaFull s c.sl 4 = false)
    (hm : moNew (fun o => { o with ctx := argN a 1, len := 16, rights := 0x20, imported := some k.mark }) s = some (h', t)) :
    exec (.markerImport mb) s = .next (answered mb [rw h'.toNat] ({ t with cookies := t.cookies.erase k }.updMo (moIndex k.mark.mo)
      (fun o => { o with exports := (k.mark, some h') :: o.exports.erase (k.mark, none) }))) := by
  refine runCmd_answers h rfl ?_
  simp only [cmdMarkerImport, hk, hn, hst, hq, hm, hw, bne_self_eq_false, Bool.not_true, Bool.false_eq_true, if_false]

theorem exec_markerBind_of {r : MarkRef} (h : cmdAdmitted s mb cmdMarkerBind c a) (h2 : argN a 2 ≤ 1) (hn : bindNamed s c a = none)
    (hr : cmdMark c (arg a 0) s = (.ok r, t)) (hnew : (t.ctx (argN a 1)).bindings.contains { qp := bindQp a, mark := r } = false)
    (hl : (t.ctx (argN a 1)).bindings.length < 4096) :
    exec (.markerBind mb) s = .next (answered mb [] (raiseFlag r 4 (touchCtx (argN a 1) (t.updCtx (argN a 1) (fun x =>
      { x with bindings := x.bindings ++ [{ qp := bindQp a, mark := r }] }))))) := by
  refine runCmd_answers h rfl ?_
  simp only [cmdMarkerBind, if_neg (Nat.not_lt.2 h2), hn, hr, hnew, if_neg (Nat.not_le.2 hl), okRes, Bool.false_eq_true, if_false]

theorem exec_markerUnbind_of {b : Binding} (h : cmdAdmitted s mb cmdMarkerUnbind c a) (h2 : argN a 2 ≤ 1)
    (hn : ownCtx s c (argN a 1) = true)
    (hb : (s.ctx (argN a 1)).bindings.find?
      (fun b => b.qp == bindQp a && b.mark.mo == dLo (arg a 0) && b.mark.off == fld (arg a 0) 63 32 * 16) = some b) :
    exec (.markerUnbind mb) s = .next (answered mb [] (unbound [b.mark] (touchCtx (argN a 1)
      (s.updCtx (argN a 1) (fun x => { x with bindings := x.bindings.erase b }))))) := by
  refine runCmd_answers h rfl ?_
  simp only [cmdMarkerUnbind, if_neg (Nat.not_lt.2 h2), hn, hb, okRes, Bool.not_true, Bool.false_eq_true, if_false]

end

/-- Settles O49: each command's body, read with the request admitted and the guards of its clause met. -/
theorem objectCommands : Obligations.ObjectCommands := by
  intro s mb c a h
  exact ⟨fun _ _ _ _ ha hn hst h1 h2 h2' hp h3 hr h4 hq hm => exec_memRegister_of ha hn hst h1 h2 h2' hp h3 hr h4 hq hm,
    fun ha hn hr h1 hi => exec_memFree_of ha hn hr h1 hi,
    fun ha h0 hg hst ho => exec_memQuery_of ha h0 hg hst ho,
    fun _ _ ha hn h1 h2 h2' hle h3 hr h4 hq hs => exec_winRegister_of ha hn h1 h2 h2' hle h3 hr h4 hq hs,
    fun ha h0 hg hst ho h1 => exec_winRevoke_of ha h0 hg hst ho h1,
    fun r t hi hr => ⟨fun ha hv hw => exec_markerReset_of hi hr ha hv hw, fun ha h1 hst ho hl =>
      ⟨exportCookie t, exportKept t h r (argN a 1), exec_markerExport_of hi hr ha h1 hst ho hl, exportKept_cookies h r (argN a 1)⟩⟩,
    fun _ _ _ ha hk hn hst hq hm => exec_markerImport_of ha hk hn hst hq hm,
    fun _ _ ha h2 hn hr hnew hl => exec_markerBind_of ha h2 hn hr hnew hl,
    fun _ ha h2 hn hb => exec_markerUnbind_of ha h2 hn hb⟩

end Sys2Proof.Machine
end

section
/-! Group, skein, governor, fault, measurement and debug commands, and sealed loads (13; 09; 14; 16). -/

namespace Sys2Proof.Machine

section
variable {s : State} {mb : Mbox} {c : Caller} {a : List Word}

/-! ### Groups and skeins -/

theorem exec_groupCreate_of {ws : List Word} (h : cmdAdmitted s mb (cmdGroupCreate (some ws)) c a) (hb : groupBad s c a = none)
    (hl : ((ws.take (argN a 2)).map memberOf).length = argN a 2) (hd : membersDistinct ((ws.take (argN a 2)).map memberOf) = true)
    (hr : (((ws.take (argN a 2)).map memberOf).filterMap id).any (fun q => (Tab.get s.qps q).isSome && (s.qp q).mode == .roce) = false)
    (he : (((ws.take (argN a 2)).map memberOf).filterMap id).any (fun q => !ertLive s c.sl q) = false)
    (hx : argN a 1 = 1 ∨ exactFull s (argN a 7) = false) (hq : quotaFull s c.sl 7 = false) :
    exec (.groupCreate mb (some ws)) s = .next (answered mb []
      ((unheard ((setGroup (argN a 0) (fun _ => groupOf c a ((ws.take (argN a 2)).map memberOf)) s).group (argN a 0))).foldl
        (fun s r => sendHello (argN a 0) r true s) (setGroup (argN a 0) (fun _ => groupOf c a ((ws.take (argN a 2)).map memberOf)) s))) := by
  have hfull : (!(argN a 1 == 1) && exactFull s (argN a 7)) = false := by
    obtain h1 | h1 := hx
    · simp [h1]
    · simp [h1]
  refine runCmd_answers h rfl ?_
  simp only [cmdGroupCreate, hb, hl, hd, hr, he, hfull, hq, okRes, ne_eq, not_true_eq_false, decide_false, Bool.not_true, Bool.or_self,
    Bool.false_eq_true, if_false]

theorem exec_groupDestroy_of (h : cmdAdmitted s mb cmdGroupDestroy c a) (hn : groupNamed s c (argN a 0) = true)
    (hst : (s.group (argN a 0)).st ≠ .draining) :
    exec (.groupDestroy mb) s = .next (answered mb [] (groupDestroy (argN a 0) s)) := by
  refine runCmd_answers h rfl ?_
  simp only [cmdGroupDestroy, hn, beq_eq_false_iff_ne.2 hst, okRes, Bool.not_true, Bool.false_eq_true, if_false]

theorem exec_groupQuery_of (h : cmdAdmitted s mb cmdGroupQuery c a) (hn : groupNamed s c (argN a 0) = true) :
    exec (.groupQuery mb) s = .next (answered mb [rw (groupCode (s.group (argN a 0)).st), rw (b2n (s.group (argN a 0)).switch),
      rw (s.group (argN a 0)).n, rw (s.group (argN a 0)).rank, rw (s.group (argN a 0)).nextSeq.toNat, rw (s.group (argN a 0)).reason,
      rw (s.group (argN a 0)).lostRank] s) := by
  refine runCmd_answers h rfl ?_
  simp only [cmdGroupQuery, hn, Bool.not_true, Bool.false_eq_true, if_false]

theorem exec_skeinQuery_of {o : Op} (h : cmdAdmitted s mb cmdSkeinQuery c a) (hn : sqNamed s c (argN a 0) = true)
    (ho : skeinAt s (argN a 0) (argN a 1) = some o) :
    exec (.skeinQuery mb) s = .next (answered mb [rw (layersIn o (fun l => l != .idle && l != .triggered)),
      rw (layersIn o (· == .landed)), rw (layersIn o (· == .failed)), rw (layersIn o (· == .idle))] s) := by
  refine runCmd_answers h rfl ?_
  simp only [cmdSkeinQuery, hn, ho, if_true]

/-! ### The governor -/

/-- The manager sees what the governor holds, not rounded (R462, R448). -/
theorem exec_govQuery_of (h : cmdAdmitted s mb cmdGovQuery c a) (hc : c.slice = none) :
    exec (.govQuery mb) s = .next (answered mb ([rw (s.gov.envelope / 1000),
      rw (s.gov.ownMw + ((List.range 4).map (fun p => Tab.getD s.gov.dieMw p 0)).foldl (· + ·) 0)] ++
      (List.range 4).map (fun p => rw (Tab.getD s.gov.dieMw p 0)) ++ [rw s.gov.ownMw]) s) := by
  refine runCmd_answers h rfl ?_
  simp only [cmdGovQuery, coarseMw, hc, Option.isSome_none, Bool.false_eq_true, if_false]

theorem exec_govSetEnvelope_of (h : cmdAdmitted s mb cmdGovSetEnvelope c a) (h0 : 100 ≤ argN a 0) (h0' : argN a 0 ≤ 1600) :
    exec (.govSetEnvelope mb) s = .next (answered mb []
      { s with gov := { s.gov with next := some (1000 * argN a 0), caps := (List.range 4).map (fun p => (p, 1000 * argN a (1 + p))) } }) := by
  have hin : (decide (argN a 0 < 100) || decide (1600 < argN a 0)) = false := by simp; omega
  refine runCmd_answers h rfl ?_
  simp only [cmdGovSetEnvelope, hin, okRes, Bool.false_eq_true, if_false]

/-! ### Faults -/

theorem exec_faultQuery_of (h : cmdAdmitted s mb cmdFaultQuery c a) (h0 : argN a 0 < 60) :
    exec (.faultQuery mb) s =
      .next (answered mb [rw (unitCode (sstate s (argN a 0))), rw (fcSrc s (argN a 0)).fences, rw (fcSrc s (argN a 0)).cls] s) := by
  refine runCmd_answers h rfl ?_
  simp only [cmdFaultQuery, if_neg (Nat.not_le.2 h0)]

theorem exec_faultRestore_of (h : cmdAdmitted s mb cmdFaultRestore c a) (h0 : argN a 0 < 60) (hf : fencedUnits s (argN a 0) ≠ []) :
    exec (.faultRestore mb) s = .next (answered mb [] ((fencedUnits s (argN a 0)).foldl (fun t u => setUnit (argN a 0) u .testing t)
      (updSrc (argN a 0) (fun c => { c with fences := 0 }) s))) := by
  refine runCmd_answers h rfl ?_
  simp only [cmdFaultRestore, if_neg (Nat.not_le.2 h0), List.isEmpty_eq_false_iff.2 hf, okRes, Bool.false_eq_true, if_false]

/-- The event of fault.inject comes after its answer (R398). -/
theorem exec_faultInject_of {two : Bool} (h : cmdAdmitted s mb (cmdFaultInject two) c a) (h0 : argN a 0 < 60)
    (hc : codeClass s (argN a 0) (argN a 2) (argN a 3) = some (argN a 1)) (hu : unitNamed (argN a 0) (argN a 3) = true) :
    exec (.faultInject mb two) s =
      .next (onEvent (some two) { (ownEv (argN a 0) (argN a 1) (argN a 2) (argN a 3) none (answered mb [] s)).1 with injected := true }
        (ownEv (argN a 0) (argN a 1) (argN a 2) (argN a 3) none (answered mb [] s)).2) := by
  refine runCmd_ok h ?_
  simp only [cmdFaultInject, if_neg (Nat.not_le.2 h0), hc, hu, okRes, Option.isNone_some, bne_self_eq_false, Bool.not_true,
    Bool.false_eq_true, if_false]

/-! ### Measurement and debug -/

theorem exec_secMeasure_of (h : cmdAdmitted s mb cmdSecMeasure c a) :
    exec (.secMeasure mb) s = .next (answered mb (rw s.rumel.toNat :: wordsOf 6 (Tab.getD s.fnd.meas 3 (zeros 48))) s) :=
  runCmd_answers h rfl rfl

/-- The manager reads every counter as it stands (R412, R448). -/
theorem exec_dbgCounters_of (h : cmdAdmitted s mb cmdDbgCounters c a) (hc : c.slice = none) (h0 : argN a 0 < 640) (h1 : argN a 1 < 8192)
    (h2 : 0 < argN a 2) (h2' : argN a 2 ≤ 500) (hle : argN a 1 + argN a 2 ≤ 8192) :
    exec (.dbgCounters mb) s =
      .next (answered mb ((List.range (argN a 2)).map (fun i => rw (counterOf s (argN a 0) (argN a 1 + i)))) s) := by
  have hset : (decide (640 ≤ argN a 0) || !true) = false := by simp; omega
  have hk : (decide (argN a 2 = 0) || decide (500 < argN a 2) || decide (8192 < argN a 1 + argN a 2)) = false := by simp; omega
  refine runCmd_answers h rfl ?_
  simp only [cmdDbgCounters, counterSeen, hc, hset, hk, if_neg (Nat.not_le.2 h1), Bool.false_eq_true, if_false]

theorem exec_dbgTrace_of (h : cmdAdmitted s mb cmdDbgTrace c a) (h0 : argN a 0 ≤ 1) :
    exec (.dbgTrace mb) s = .next (answered mb []
      (ceReport 59 0x1E 0 none (s.updFc (fun c => { c with recording := argN a 0 == 1, filter := arg a 1 })))) := by
  refine runCmd_answers h rfl ?_
  simp only [cmdDbgTrace, if_neg (Nat.not_lt.2 h0), okRes]

/-- dbg.state answers the next 64 free words. -/
theorem exec_dbgState_of (h : cmdAdmitted s mb cmdDbgState c a) (h0 : argN a 0 ≤ 5) (hf : dbgFound s (argN a 0) (argN a 1) = true) :
    exec (.dbgState mb) s = .next (answered mb ((List.range 64).map (fun i => Config.freeWord (s.freeCtr + i)))
      { s with freeCtr := s.freeCtr + 64 }) := by
  refine runCmd_answers h rfl ?_
  simp only [cmdDbgState, if_neg (Nat.not_lt.2 h0), hf, Bool.not_true, Bool.false_eq_true, if_false]

/-! ### Sealed loads (R439-R441) -/

/-- The destination's checks refuse with PROTECTION only. -/
theorem loadDest_err {head entry : List Byte} {sig : Option MarkRef} {st d : Nat} {t : State}
    (h : loadDest c a head entry sig s = (.err st d, t)) : st = msProtection := by
  have hrefuse : ∀ {r : Nat} {u : State}, refuseLoad r u = (.err st d, t) → st = msProtection := by
    intro r u hu
    simp only [refuseLoad, Prod.mk.injEq, CmdRes.err.injEq] at hu
    exact hu.1.1.symm
  unfold loadDest at h
  dsimp only at h
  split at h
  · exact hrefuse h
  · split at h
    · cases h
    · exact hrefuse h
    · split at h
      · exact hrefuse h
      split at h
      · exact hrefuse h
      split at h
      · exact hrefuse h
      split at h
      · exact hrefuse h
      · cases h

/-- A load without a marker, of a good bundle that can be read, comes to its device entry, its key and its destination. -/
theorem secBundleLoad_body {b : List Byte} (hs : moValid s (dLo (arg a 0)) = true)
    (hso : c.owns (s.ctx (s.moOf (dLo (arg a 0))).ctx).slice = true) (hd : moValid s (dLo (arg a 3)) = true)
    (hdo : c.owns (s.ctx (s.moOf (dLo (arg a 3))).ctx).slice = true) (h5 : arg a 5 = 0) (hk : decryptOk s 0 = true)
    (hr : (s.moOf (dLo (arg a 0))).rights.getLsbD 0 = true)
    (hi : inside (argN a 1) (argN a 2) (s.moOf (dLo (arg a 0))).base (s.moOf (dLo (arg a 0))).len = true)
    (hb : badBundle b (argN a 2) = false) :
    (cmdSecBundleLoad (some b)).body c a s = match ownEntry b with
      | none => refuseLoad 2 s
      | some e => if (bundleKey b e).isNone then refuseLoad 3 s else loadDest c a b e none s := by
  simp only [cmdSecBundleLoad, hs, hso, hd, hdo, h5, cmdMark_zero, hk, hr, hi, hb, Bool.and_self, Bool.not_true, Bool.false_and,
    Bool.or_self, Bool.false_eq_true, if_false] <;> rfl

/-- A load that is refused answers PROTECTION with its reason. -/
theorem runCmd_of_refuseLoad {k : Cmd} {r : Nat} (h : cmdAdmitted s mb k c a) (hb : k.body c a s = refuseLoad r s) :
    runCmd mb k s = .next (mbFinish (mbNum mb) msProtection r [] (forgetSeen (.command (mbNum mb)) s)) :=
  runCmd_err h (by decide) hb

/-- What a load comes to at its destination is its answer: the bytes it will take, a wait for a walk, or a refusal. -/
theorem runCmd_of_loadDest {k : Cmd} (h : cmdAdmitted s mb k c a) (ha : k.after = fun _ s => s) {head entry : List Byte}
    {sig : Option MarkRef} (hb : k.body c a s = loadDest c a head entry sig s) :
    runCmd mb k s = .next (match loadDest c a head entry sig s with
      | (.ok rs, t) => answered mb rs t
      | (.wait, t) => t
      | (.err st d, _) => mbFinish (mbNum mb) st d [] (forgetSeen (.command (mbNum mb)) s)) := by
  generalize hres : loadDest c a head entry sig s = res at hb ⊢
  obtain ⟨res, t⟩ := res
  cases res with
  | ok rs => exact runCmd_answers h ha hb
  | wait => exact runCmd_wait h hb
  | err st d => exact runCmd_err h (by rw [loadDest_err hres]; decide) hb

end

/-- Settles O50: each command's body, read with the request admitted and the guards of its clause met; a sealed load follows its
device entry, its key and its destination. -/
theorem groupFaultAndDebugCommands : Obligations.GroupFaultAndDebugCommands := by
  intro s mb c a
  refine ⟨fun _ h hb hl hd hr he hx hq => exec_groupCreate_of h hb hl hd hr he hx hq, fun h hn hst => exec_groupDestroy_of h hn hst,
    fun h hn => exec_groupQuery_of h hn, fun _ h hn ho => exec_skeinQuery_of h hn ho, fun h hc => exec_govQuery_of h hc,
    fun h h0 h0' => exec_govSetEnvelope_of h h0 h0', fun h h0 => exec_faultQuery_of h h0, fun h h0 hf => exec_faultRestore_of h h0 hf,
    fun _ h h0 hc hu => exec_faultInject_of h h0 hc hu, exec_secMeasure_of,
    fun h hc h0 h1 h2 h2' hle => exec_dbgCounters_of h hc h0 h1 h2 h2' hle, fun h h0 => exec_dbgTrace_of h h0,
    fun h h0 hf => ⟨_, by simp, exec_dbgState_of h h0 hf⟩, ?_⟩
  intro b h sm hs hso hd hdo h5 hk hr hi hb
  have hbody := secBundleLoad_body hs hso hd hdo h5 hk hr hi hb
  cases he : ownEntry b with
  | none => exact runCmd_of_refuseLoad h (by rw [hbody, he])
  | some e =>
    rw [he] at hbody
    cases hkey : (bundleKey b e).isNone with
    | true =>
      dsimp only
      rw [if_pos hkey]
      exact runCmd_of_refuseLoad h (by rw [hbody]; exact if_pos hkey)
    | false =>
      dsimp only
      rw [if_neg (by simp [hkey])]
      exact runCmd_of_loadDest h rfl (by rw [hbody]; exact if_neg (by simp [hkey]))

end Sys2Proof.Machine
end

section
/-! Foundation's commands: the end of a sealed load, SPDM, debug unlock, and Foundation's own checks (16). -/

namespace Sys2Proof.Machine

theorem exec_bundleLoadDone (load : Nat) (segs : Option (List (List Byte × BitVec 128))) (written : Bool) (s : State) :
    exec (.bundleLoadDone load segs written) s = execBundleLoadDone load segs written s := rfl

section
variable {s : State}

/-! ### The end of a sealed load (R440, R443) -/

/-- A load that opens joins its header to measurement block 8 (R436). -/
def loadMeasured (l : Load) (s : State) : State :=
  updFnd (fun f => { f with meas := Tab.put f.meas 8 (bundleChain (Tab.getD f.meas 8 (zeros 48)) l) }) s

/-- A running load that was not doomed ends well where its segments open and its last write is answered, and fails otherwise. -/
theorem exec_bundleLoadDone_of_running {load : Nat} {l : Load} (segs : Option (List (List Byte × BitVec 128))) (written : Bool)
    (hst : s.fc.dstate = .normal) (hl : Tab.get s.fnd.loads load = some l) (hr : l.running.isSome = true) (hd : l.doomed = false) :
    exec (.bundleLoadDone load segs written) s = .next (if loadGood l segs && written then
      loadGone load l (match l.done with | some (r, v) => (applySignal r v (loadMeasured l s)).2 | none => loadMeasured l s)
      else loadFail load s) := by
  have hrun : (l.running.isNone || l.doomed) = false := by
    rw [Option.isNone_eq_false_iff.2 hr, hd]; rfl
  simp only [exec_bundleLoadDone, execBundleLoadDone, whenRunning_of_normal hst, hl, hrun, Bool.false_eq_true, if_false, done]
  cases hg : loadGood l segs <;> cases written <;> rfl

/-! ### SPDM requests (R435, R436)

Each request of a ready Foundation is answered where its transport has negotiated what it needs, and draws ERROR where not. -/

theorem spdmNeeds_of_ready {t : Mctp} {ok : Bool} {f : State → State} (hr : s.fnd.ready = true) :
    spdmNeeds t ok f s = .next (if ok then f s else spdmError t s) := by
  simp only [spdmNeeds, hr, Bool.not_true, Bool.false_eq_true, if_false, done]

theorem exec_getVersion_of_ready (t : Mctp) (hr : s.fnd.ready = true) :
    exec (.getVersion t) s = .next (spdmReply t 0x84 [0x12, 0x13] (spdmSet t .version s)) :=
  spdmNeeds_of_ready (ok := true) (f := fun s => spdmReply t 0x84 [0x12, 0x13] (spdmSet t .version s)) hr

theorem exec_getCapabilities_of_ready (t : Mctp) (hr : s.fnd.ready = true) : exec (.getCapabilities t) s =
    .next (if spdmAt s t == .version then spdmReply t 0xE1 [] (spdmSet t .capabilities s) else spdmError t s) :=
  spdmNeeds_of_ready (f := fun s => spdmReply t 0xE1 [] (spdmSet t .capabilities s)) hr

theorem exec_negotiateAlgorithms_of_ready (t : Mctp) (ok : Bool) (hr : s.fnd.ready = true) : exec (.negotiateAlgorithms t ok) s =
    .next (if spdmAt s t == .capabilities && ok then spdmReply t 0xE3 [] (spdmSet t .negotiated s) else spdmError t s) :=
  spdmNeeds_of_ready (f := fun s => spdmReply t 0xE3 [] (spdmSet t .negotiated s)) hr

theorem exec_getDigests_of_ready (t : Mctp) (hr : s.fnd.ready = true) : exec (.getDigests t) s =
    .next (if spdmAt s t == .negotiated then spdmReply t 0x81 (digestBytes (Config.sha384 Config.certChain)) s else spdmError t s) :=
  spdmNeeds_of_ready hr

theorem exec_getCertificate_of_ready (t : Mctp) (slot off len : Nat) (hr : s.fnd.ready = true) : exec (.getCertificate t slot off len) s =
    .next (if spdmAt s t == .negotiated && slot == 0 && decide (off < Config.certChain.length) then
      spdmReply t 0x82 ((Config.certChain.drop off).take len) s else spdmError t s) :=
  spdmNeeds_of_ready hr

/-- What CHALLENGE signs: the digest of the chain, and the nonce. -/
def challengeBody (nonce : BitVec 256) : List Byte := digestBytes (Config.sha384 Config.certChain) ++ leBytes 32 nonce.toNat

theorem exec_challenge_of_ready (t : Mctp) (slot : Nat) (nonce : BitVec 256) (hr : s.fnd.ready = true) : exec (.challenge t slot nonce) s =
    .next (if spdmAt s t == .negotiated && slot == 0 then
      spdmReply t 0x83 (challengeBody nonce ++ Config.identitySign (challengeBody nonce)) s else spdmError t s) :=
  spdmNeeds_of_ready hr

/-- A measurement block from 1 to 8 is reported, and signed with the nonce where the request asks for it. -/
theorem exec_getMeasurements_of_negotiated {t : Mctp} {k : Nat} (signed : Bool) (nonce : BitVec 256) (hr : s.fnd.ready = true)
    (ht : spdmAt s t = .negotiated) (h1 : 1 ≤ k) (h8 : k ≤ 8) : exec (.getMeasurements t k signed nonce) s =
      .next (spdmReply t 0xE0 (measBlock s k ++ if signed then Config.identitySign (measBlock s k ++ leBytes 32 nonce.toNat) else []) s) := by
  have hbody : (if k = 0 then [8] else if k = 0xFF then ((List.range 8).map (fun k => measBlock s (k + 1))).flatten else measBlock s k) =
      measBlock s k := by
    rw [if_neg (by omega), if_neg (by omega)]
  have hidx : (decide (k ≤ 8) || k == 0xFF) = true := by simp [h8]
  have hexec : exec (.getMeasurements t k signed nonce) s = execGetMeasurements t k signed nonce s := rfl
  rw [hexec, execGetMeasurements, spdmNeeds_of_ready hr, ht, hidx, hbody]
  rfl

/-! ### Debug unlock (R445) -/

theorem exec_dbgNonce_of_ready (t : Mctp) (hr : s.fnd.ready = true) : exec (.dbgNonce t) s =
    .next (emit (.mctp t 0x100 (leBytes 32 (Config.random s.freeCtr).toNat))
      { s with freeCtr := s.freeCtr + 1, fnd := { s.fnd with nonce := some (Config.random s.freeCtr) } }) := by
  have hexec : exec (.dbgNonce t) s = execDbgNonce t s := rfl
  rw [hexec, execDbgNonce, if_neg (by rw [hr]; decide)]
  rfl

/-- Whether an unlock passes: LEVEL, the fuses' debug key, and its signature over the nonce. -/
def unlockOk (s : State) (n : BitVec 256) (level : BitVec 8) (pub sig : List Byte) : Bool :=
  (level == 1 || level == 2) && s.sec.debugHash != 0 && Config.sha384 pub == s.sec.debugHash &&
    Config.ecdsaOk pub (leBytes 16 Config.deviceFpr.toNat ++ leBytes 32 n.toNat ++ [level]) sig

theorem unlockOk_iff (n : BitVec 256) (level : BitVec 8) (pub sig : List Byte) : unlockOk s n level pub sig = true ↔
    (level = 1 ∨ level = 2) ∧ s.sec.debugHash ≠ 0 ∧ Config.sha384 pub = s.sec.debugHash ∧
      Config.ecdsaOk pub (leBytes 16 Config.deviceFpr.toNat ++ leBytes 32 n.toNat ++ [level]) sig = true := by
  simp only [unlockOk, Bool.and_eq_true, Bool.or_eq_true, beq_iff_eq, bne_iff_ne, ne_eq, and_assoc]

/-- An unlock in time spends the nonce, and raises the level where it passes. -/
theorem exec_dbgUnlock_of_nonce {n : BitVec 256} (t : Mctp) (level : BitVec 8) (pub sig : List Byte) (hr : s.fnd.ready = true)
    (hn : s.fnd.nonce = some n) : exec (.dbgUnlock t level pub sig false) s =
      .next (if unlockOk s n level pub sig then emit (.mctp t 0x101 [1]) (debugRaise level.toNat (updFnd (fun f => { f with nonce := none }) s))
        else emit (.mctp t 0x101 [0]) (updFnd (fun f => { f with nonce := none }) s)) := by
  have hexec : exec (.dbgUnlock t level pub sig false) s = execDbgUnlock t level pub sig false s := rfl
  simp only [hexec, execDbgUnlock, hr, hn, Bool.not_true, Bool.not_false, Bool.true_and, Bool.false_eq_true, if_false, done]
  change Host.Outcome.next (emit (.mctp t 0x101 [BitVec.ofNat 8 (b2n (unlockOk s n level pub sig))])
    (if unlockOk s n level pub sig = true then _ else _)) = _
  cases unlockOk s n level pub sig <;> rfl

/-- An unlock that comes too late only spends the nonce. -/
theorem exec_dbgUnlock_of_expired (t : Mctp) (level : BitVec 8) (pub sig : List Byte) (hr : s.fnd.ready = true) :
    exec (.dbgUnlock t level pub sig true) s = .next (emit (.mctp t 0x101 [0]) (updFnd (fun f => { f with nonce := none }) s)) := by
  have hexec : exec (.dbgUnlock t level pub sig true) s = execDbgUnlock t level pub sig true s := rfl
  simp only [hexec, execDbgUnlock, hr, Bool.not_true, Bool.false_and, Bool.false_eq_true, if_false, done]
  cases s.fnd.nonce <;> rfl

/-! ### Fuses and restarts (R427, R434) -/

theorem not_ready_or_halted_eq_false (hr : s.fnd.ready = true) (hh : s.fc.dstate ≠ .halted) :
    (!s.fnd.ready || s.fc.dstate == .halted) = false := by
  rw [hr, beq_eq_false_iff_ne.2 hh]; rfl

theorem exec_fuseRecheck_good (hr : s.fnd.ready = true) : exec (.fuseRecheck true) s = .next s := by
  have hexec : exec (.fuseRecheck true) s = execFuseRecheck true s := rfl
  simp only [hexec, execFuseRecheck, hr, Bool.not_true, Bool.false_or, Bool.true_or, if_true, done]

theorem exec_fuseRecheck_bad (hr : s.fnd.ready = true) (hh : s.fc.dstate ≠ .halted) : exec (.fuseRecheck false) s =
    .next (ftReport none (ownEv 56 3 0x1B 0 none s).1 (ownEv 56 3 0x1B 0 none s).2) := by
  have hexec : exec (.fuseRecheck false) s = execFuseRecheck false s := rfl
  simp only [hexec, execFuseRecheck, Bool.or_false, not_ready_or_halted_eq_false hr hh, Bool.false_eq_true, if_false, done]

theorem exec_foundationRestart_of_ready (hr : s.fnd.ready = true) (hh : s.fc.dstate ≠ .halted) : exec .foundationRestart s =
    .next (ucReport 51 0x12 0 none { s with fnd := { s.fnd with spdm := [], nonce := none } }) := by
  have hexec : exec .foundationRestart s = execFoundationRestart s := rfl
  simp only [hexec, execFoundationRestart, not_ready_or_halted_eq_false hr hh, Bool.false_eq_true, if_false, done, updFnd]

end

/-- Settles O51: the end of a load, each SPDM request by what its transport has negotiated, the two ends of an unlock, and
Foundation's checks. -/
theorem foundationCommands : Obligations.FoundationCommands := by
  intro s
  refine ⟨fun load l segs written hst hl hr hd => ⟨fun hdone => ?_, fun r v hdone => ?_⟩, fun t hr => ?_,
    fun hr hh => ⟨exec_fuseRecheck_good hr, exec_fuseRecheck_bad hr hh, exec_foundationRestart_of_ready hr hh⟩⟩
  · rw [exec_bundleLoadDone_of_running segs written hst hl hr hd, hdone]; rfl
  · rw [exec_bundleLoadDone_of_running segs written hst hl hr hd, hdone]; rfl
  · refine ⟨exec_getVersion_of_ready t hr, fun ht => ?_, fun ht => ⟨?_, ?_⟩, fun ht => ⟨?_, fun off len => ?_, fun nonce => ?_,
      fun k nonce h1 h8 => ⟨?_, exec_getMeasurements_of_negotiated true nonce hr ht h1 h8⟩⟩, fun ht => ?_, exec_dbgNonce_of_ready t hr,
      fun n level pub sig hn => ?_, fun level pub sig => exec_dbgUnlock_of_expired t level pub sig hr⟩
    · rw [exec_getCapabilities_of_ready t hr, ht]; rfl
    · rw [exec_negotiateAlgorithms_of_ready t true hr, ht]; rfl
    · rw [exec_negotiateAlgorithms_of_ready t false hr, ht]; rfl
    · rw [exec_getDigests_of_ready t hr, ht]; rfl
    · rw [exec_getCertificate_of_ready t 0 off len hr, ht]; simp
    · rw [exec_challenge_of_ready t 0 nonce hr, ht]; rfl
    · rw [exec_getMeasurements_of_negotiated false nonce hr ht h1 h8, if_neg Bool.false_ne_true, List.append_nil]
    · rw [exec_getDigests_of_ready t hr, if_neg (by simpa using ht)]
    · rw [exec_dbgUnlock_of_nonce t level pub sig hr hn]
      simp only [unlockOk_iff]

end Sys2Proof.Machine
end

section
/-! Cast-on and the routes of an image (17 R450-R460). -/

namespace Sys2Proof.Machine

section
variable {s : State}

/-! ### Supply, clocks and Foundation (R17, R429, R450) -/

theorem exec_railsInTolerance_of_next (ball : Bool) (hp : s.castOn.powered = true) (hr : s.castOn.rails < 5) :
    exec (.railsInTolerance (s.castOn.rails + 1) ball) s =
      .next { s with castOn := { s.castOn with rails := s.castOn.rails + 1 }
                     fleet := if s.castOn.rails = 0 then s.castOnFuse.getLsbD 0 || ball else s.fleet } := by
  have hexec : exec (.railsInTolerance (s.castOn.rails + 1) ball) s = execRailsInTolerance (s.castOn.rails + 1) ball s := rfl
  have hguard : (!s.castOn.powered || decide (s.castOn.rails + 1 ≠ s.castOn.rails + 1) || decide (5 < s.castOn.rails + 1)) = false := by
    simp [hp]; omega
  simp only [hexec, execRailsInTolerance, hguard, Bool.false_eq_true, if_false, done, updCo, Nat.add_eq_right]
  split <;> rfl

theorem exec_refclkMeasured_of_rails (spread : Bool) (hr : s.castOn.rails = 5) (hm : s.castOn.measured = false) :
    exec (.refclkMeasured spread) s = .next (if spread then
        ucReport 53 0x15 0 none (allPortsDown { s with castOn := { s.castOn with measured := true, ssc := true } })
      else { s with castOn := { s.castOn with measured := true, ssc := false } }) := by
  have hexec : exec (.refclkMeasured spread) s = execRefclkMeasured spread s := rfl
  have hguard : (decide (s.castOn.rails ≠ 5) || s.castOn.measured) = false := by simp [hr, hm]
  cases spread
  · simp only [hexec, execRefclkMeasured, hguard, Bool.false_eq_true, if_false, done, updCo]
  · simp only [hexec, execRefclkMeasured, hguard, Bool.false_eq_true, if_false, if_true, done, updCo]

/-- The measurements of a Foundation that has just tested itself (R436). -/
def firstMeasurements (s : State) : Tab (List Byte) :=
  [(1, digestBytes Config.romDigest), (2, digestBytes (Config.sha384 (fuseImage s))), (6, [BitVec.ofNat 8 (b2n s.fleet), 0xB0]),
    (7, [0]), (8, zeros 48)]

/-- Foundation's self test, on rails in tolerance: a fuse check that fails, else a ROM that fails, else a random source that fails,
else Foundation is ready. -/
theorem exec_foundationReady_of_rails (fuses rom rng : Bool) (hr : s.castOn.rails = 5) (hn : s.fnd.ready = false)
    (hh : s.fc.dstate ≠ .halted) : exec (.foundationReady fuses rom rng) s = .next (
      if !fuses then ftReport none (ownEv 56 3 0x1B 0 none s).1 (ownEv 56 3 0x1B 0 none s).2
      else if !rom then ftReport none (ownEv 51 3 0x13 0 none s).1 (ownEv 51 3 0x13 0 none s).2
      else if !rng then s
      else bootSync { s with fnd := { s.fnd with ready := true, meas := firstMeasurements s } }) := by
  have hexec : exec (.foundationReady fuses rom rng) s = execFoundationReady fuses rom rng s := rfl
  have hguard : (decide (s.castOn.rails ≠ 5) || s.fnd.ready || s.fc.dstate == .halted) = false := by simp [hr, hn, hh]
  rw [hexec, execFoundationReady]
  simp only [hguard, Bool.false_eq_true, if_false, done]
  rfl

/-! ### Verification and the Hooks (R432, R455) -/

theorem exec_imageVerified_of_verifying (fuseOk : Bool) (hv : s.castOn.st = .verifying) (hh : s.fc.dstate ≠ .halted) :
    exec (.imageVerified fuseOk) s = .next (
      let b := stageRead s.castOn.staging 0 s.castOn.goLen
      let r := imageReason s.sec s.castOn.goLen b
      let u := rejectImage 5 s
      if r ≠ 0 then rejectImage r s
      else if leAt b 6 1 % 2 = 0 ∨ imageSvn b ≤ s.sec.minSvn then acceptImage b s
      else if fuseOk then acceptImage b (emit (.fuse (imageSvn b)) { s with sec := { s.sec with minSvn := imageSvn b } })
      else ftReport none (ownEv 56 3 0x1B 0 none u).1 (ownEv 56 3 0x1B 0 none u).2) := by
  have hexec : exec (.imageVerified fuseOk) s = execImageVerified fuseOk s := rfl
  have hguard : (s.castOn.st != .verifying || s.fc.dstate == .halted) = false := by simp [hv, hh]
  simp only [hexec, execImageVerified, hguard, Bool.false_eq_true, if_false, done]
  congr 1
  generalize stageRead s.castOn.staging 0 s.castOn.goLen = b
  cases imageReason s.sec s.castOn.goLen b with
  | succ r => rfl
  | zero =>
    have hraise : (leAt b 6 1 % 2 = 0 ∨ imageSvn b ≤ s.sec.minSvn) ↔ ¬ (decide (leAt b 6 1 % 2 = 1) && decide (s.sec.minSvn < imageSvn b)) = true := by
      simp only [Bool.and_eq_true, decide_eq_true_eq]
      omega
    simp only [hraise, ne_eq, not_true_eq_false, if_false, ite_not]

theorem exec_hooksStarted_of_accepted (gib : Nat) (ha : s.castOn.st = .accepted) (hh : s.fc.dstate ≠ .halted) (hu : s.hooksUp = false) :
    exec (.hooksStarted gib) s = .next ((presentLinks s).foldl (fun s l => s.updLink l (fun k => { k with bar2Log2 := bar2Cover gib }))
      { s with rumel := 0x0302, hbmGib := gib, hooksUp := true, castOn := { s.castOn with staging := [] } }) := by
  have hexec : exec (.hooksStarted gib) s = execHooksStarted gib s := rfl
  have hguard : (s.castOn.st != .accepted || s.hooksUp || s.fc.dstate == .halted) = false := by simp [ha, hu, hh]
  simp only [hexec, execHooksStarted, hguard, Bool.false_eq_true, if_false, done, updCo]
  rfl

theorem exec_castOnReady_of_accepted (route : Word) (stash w : Nat) (ha : s.castOn.st = .accepted) (hh : s.fc.dstate ≠ .halted)
    (hu : s.hooksUp = true) : exec (.castOnReady route stash w []) s =
      .next { s with dlRoute := route, gov := { s.gov with envelope := w * 1000 }, sc := { s.sc with stash := some stash }
                     castOn := { s.castOn with st := .ready } } := by
  have hexec : exec (.castOnReady route stash w []) s = execCastOnReady route stash w [] s := rfl
  have hguard : (s.castOn.st != .accepted || !s.hooksUp || s.fc.dstate == .halted) = false := by simp [ha, hu, hh]
  rw [hexec, execCastOnReady, if_neg (by rw [hguard]; decide)]
  simp only [updSc, List.foldl_nil, beq_eq_false_iff_ne.2 hh, Bool.false_eq_true, if_false, done, updCo]

end

/-- Settles O52: what each step of cast-on does in its place. -/
theorem castOnStepsInOrder : Obligations.CastOnStepsInOrder := by
  intro s
  refine ⟨rfl, rfl, fun ball hp hr => exec_railsInTolerance_of_next ball hp hr,
    fun hr hm => ⟨exec_refclkMeasured_of_rails false hr hm, exec_refclkMeasured_of_rails true hr hm⟩,
    fun hr hn hh => ⟨fun rom rng => exec_foundationReady_of_rails false rom rng hr hn hh,
      fun rng => exec_foundationReady_of_rails true false rng hr hn hh, exec_foundationReady_of_rails true true true hr hn hh⟩,
    fun fuseOk hv hh => exec_imageVerified_of_verifying fuseOk hv hh,
    fun ha hh => ⟨fun gib hu => exec_hooksStarted_of_accepted gib ha hh hu,
      fun route stash w hu => exec_castOnReady_of_accepted route stash w ha hh hu⟩⟩

section
variable {s : State}

/-! ### The routes of an image (R457-R460) -/

theorem routeOpen_of_running {r : Route} (hh : s.fc.dstate ≠ .halted) (ho : imageWait s = true ∨ claimedBy s r = true) :
    routeOpen s r = true := by
  simpa [routeOpen, hh] using ho

theorem routeOpen_eq_false {r : Route} (hw : imageWait s = false) (hc : claimedBy s r = false) : routeOpen s r = false := by
  simp [routeOpen, hw, hc]

theorem claimedBy_of_claimed {r : Route} (hc : s.castOn.st = .claimed) : claimedBy s r = (s.castOn.route == r) := by
  simp [claimedBy, hc]

theorem goVerify_of_holder {r : Route} {n : Nat} (hc : s.castOn.st = .claimed) (hr : s.castOn.route = r) :
    goVerify r n s = { s with castOn := { s.castOn with st := .verifying, goLen := n } } := by
  simp only [goVerify, hc, hr, beq_self_eq_true, Bool.and_self, if_true, updCo]

theorem goVerify_of_other {r : Route} {n : Nat} (hr : s.castOn.route ≠ r) : goVerify r n s = s := by
  simp only [goVerify, beq_eq_false_iff_ne.2 hr, Bool.and_false, Bool.false_eq_true, if_false]

/-! BAR 4 (R458). -/

theorem exec_bar4ImageWrite_of_open {off : Nat} {bs : List Byte} (hf : s.castOnFuse.getLsbD 13 = false)
    (hle : off + bs.length ≤ 0x03000000) (ho : routeOpen s .bar4 = true) :
    exec (.bar4ImageWrite off bs) s = .next (deliverBytes .bar4 off bs s) := by
  have hexec : exec (.bar4ImageWrite off bs) s = execBar4ImageWrite off bs s := rfl
  have hguard : (s.castOnFuse.getLsbD 13 || !routeOpen s .bar4 || decide (stageSize < off + bs.length)) = false := by
    rw [hf, ho, stageSize, decide_eq_false (Nat.not_lt.2 hle)]; rfl
  simp only [hexec, execBar4ImageWrite, hguard, Bool.false_eq_true, if_false, done]

theorem exec_bar4ImageWrite_of_closed (off : Nat) (bs : List Byte) (ho : routeOpen s .bar4 = false) :
    exec (.bar4ImageWrite off bs) s = .next (count 525 (256 * mgrLink s + 4) s) := by
  have hexec : exec (.bar4ImageWrite off bs) s = execBar4ImageWrite off bs s := rfl
  simp only [hexec, execBar4ImageWrite, ho, Bool.not_false, Bool.or_true, Bool.true_or, if_true, done, bar4Drop]

theorem exec_go_of_bar4 {n : Nat} (hc : s.castOn.st = .claimed) (hr : s.castOn.route = .bar4) (hn : n < 2 ^ 26) :
    exec (.go n) s = .next { s with castOn := { s.castOn with st := .verifying, goLen := n, len := n } } := by
  have hexec : exec (.go n) s = execGo n s := rfl
  have hgo := goVerify_of_holder (s := updCo (fun c => { c with len := n }) s) (n := n) hc hr
  rw [hexec, execGo, Nat.mod_eq_of_lt hn, hgo]
  rfl

theorem exec_go_of_other {n : Nat} (hr : s.castOn.route ≠ .bar4) (hn : n < 2 ^ 26) :
    exec (.go n) s = .next { s with castOn := { s.castOn with len := n } } := by
  have hexec : exec (.go n) s = execGo n s := rfl
  have hgo := goVerify_of_other (s := updCo (fun c => { c with len := n }) s) (n := n) hr
  rw [hexec, execGo, Nat.mod_eq_of_lt hn, hgo]
  rfl

theorem exec_abort_of_holder (hc : claimedBy s .bar4 = true) : exec .abort s = .next (endClaim .waiting s) := by
  have hexec : exec .abort s = execAbort s := rfl
  simp only [hexec, execAbort, hc, if_true, done]

theorem exec_claimTimeout_of_claimed (hc : s.castOn.st = .claimed) : exec .claimTimeout s = .next (endClaim .waiting s) := by
  have hexec : exec .claimTimeout s = execClaimTimeout s := rfl
  simp only [hexec, execClaimTimeout, hc, beq_self_eq_true, if_true, done]

/-! I3C (R459): a route that is busy answers completion 1. -/

theorem imgBusy_of_open (hf : s.castOnFuse.getLsbD 14 = false) (ho : routeOpen s .i3c = true) : imgBusy s = false := by
  rw [imgBusy, hf, ho]; rfl

theorem imgBusy_of_closed (ho : routeOpen s .i3c = false) : imgBusy s = true := by
  simp [imgBusy, ho]

theorem exec_imgWrite_of_busy (off : Nat) (bs : List Byte) (hb : imgBusy s = true) :
    exec (.imgWrite off bs) s = .next (emit (.mctp .i3c 0x10 [1]) s) := by
  have hexec : exec (.imgWrite off bs) s = execImgWrite off bs s := rfl
  simp only [hexec, execImgWrite, hb, if_true, done]
  rfl

theorem exec_imgWrite_of_range {off : Nat} {bs : List Byte} (hb : imgBusy s = false) (hlt : 0x03000000 < off + bs.length) :
    exec (.imgWrite off bs) s = .next (emit (.mctp .i3c 0x10 [2]) s) := by
  have hexec : exec (.imgWrite off bs) s = execImgWrite off bs s := rfl
  have hrange : (decide (stageSize < off + bs.length) || bs.isEmpty || decide (240 < bs.length)) = true := by simp [stageSize, hlt]
  simp only [hexec, execImgWrite, hb, hrange, Bool.false_eq_true, if_false, if_true, done]
  rfl

theorem exec_imgWrite_of_taken {off : Nat} {bs : List Byte} (hb : imgBusy s = false) (hle : off + bs.length ≤ 0x03000000)
    (h0 : 0 < bs.length) (h240 : bs.length ≤ 240) :
    exec (.imgWrite off bs) s = .next (emit (.mctp .i3c 0x10 [0]) (deliverBytes .i3c off bs s)) := by
  have hexec : exec (.imgWrite off bs) s = execImgWrite off bs s := rfl
  have hrange : (decide (stageSize < off + bs.length) || bs.isEmpty || decide (240 < bs.length)) = false := by
    have hne : bs ≠ [] := List.length_pos_iff.1 h0
    have hin : ¬ stageSize < off + bs.length := Nat.not_lt.2 hle
    simp [hin, hne, h240]
  simp only [hexec, execImgWrite, hb, hrange, Bool.false_eq_true, if_false, done]
  rfl

theorem exec_imgGo_of_busy (n : Nat) (hb : imgBusy s = true) : exec (.imgGo n) s = .next (emit (.mctp .i3c 0x11 [1]) s) := by
  have hexec : exec (.imgGo n) s = execImgGo n s := rfl
  simp only [hexec, execImgGo, hb, if_true, done]
  rfl

theorem exec_imgGo_of_holder {n : Nat} (hb : imgBusy s = false) (hc : s.castOn.st = .claimed) (hr : s.castOn.route = .i3c) :
    exec (.imgGo n) s = .next (emit (.mctp .i3c 0x11 [0]) { s with castOn := { s.castOn with st := .verifying, goLen := n } }) := by
  have hexec : exec (.imgGo n) s = execImgGo n s := rfl
  simp only [hexec, execImgGo, hb, goVerify_of_holder hc hr, Bool.false_eq_true, if_false, done]
  rfl

theorem exec_imgAbort_of_busy (hb : imgBusy s = true) : exec .imgAbort s = .next (emit (.mctp .i3c 0x13 [1]) s) := by
  have hexec : exec .imgAbort s = execImgAbort s := rfl
  simp only [hexec, execImgAbort, hb, if_true, done]
  rfl

theorem exec_imgAbort_of_holder (hb : imgBusy s = false) (hc : claimedBy s .i3c = true) :
    exec .imgAbort s = .next (emit (.mctp .i3c 0x13 [0]) (endClaim .waiting s)) := by
  have hexec : exec .imgAbort s = execImgAbort s := rfl
  simp only [hexec, execImgAbort, hb, hc, Bool.false_eq_true, if_false, if_true, done]
  rfl

/-! Native boot (R460). -/

theorem exec_bootReqTimer_of_up (hu : bootUp s = true) (hv : s.castOn.st ≠ .verifying) :
    exec .bootReqTimer s = .next (sendBoot 1 0 s.castOn.held s) := by
  have hexec : exec .bootReqTimer s = execBootReqTimer s := rfl
  have hguard : (bootUp s && s.castOn.st != .verifying) = true := by simp [hu, hv]
  simp only [hexec, execBootReqTimer, hguard, if_true, done]

/-- Block data of a size that its route takes, while the image is not being verified. -/
def bootTakes (s : State) (bs : List Byte) : Prop :=
  (!bootUp s || !routeOpen s .native || s.castOn.st == .verifying || bs.isEmpty || decide (2048 < bs.length)) = false

theorem bootTakes_of {bs : List Byte} (hu : bootUp s = true) (ho : routeOpen s .native = true) (hv : s.castOn.st ≠ .verifying)
    (h0 : 0 < bs.length) (h2048 : bs.length ≤ 2048) : bootTakes s bs := by
  have hne : bs ≠ [] := List.length_pos_iff.1 h0
  simp [bootTakes, hu, ho, hv, hne, h2048]

/-- A TOTAL other than the one the first block fixed is malformed. -/
theorem exec_bootData_of_other_total {off total k : Nat} {bs : List Byte} (ht : bootTakes s bs) (hk : s.castOn.total = some k)
    (hne : k ≠ total) : exec (.bootData off total bs) s = .next (countUnnamed s) := by
  have hexec : exec (.bootData off total bs) s = execBootData off total bs s := rfl
  have hbad : (decide (k ≠ total) || decide (stageSize < total) || decide (total < off + bs.length)) = true := by simp [hne]
  unfold bootTakes at ht
  simp only [hexec, execBootData, ht, hk, Option.getD_some, hbad, Bool.false_eq_true, if_false, if_true, done]

section
variable {off total : Nat} {bs : List Byte} (ht : bootTakes s bs) (hs : s.castOn.total = none ∨ s.castOn.total = some total)
  (hle : total ≤ 0x03000000) (hfit : off + bs.length ≤ total)
include ht hs hle hfit

/-- A block of the image that is in its bounds joins what is held, draws a request over a gap, or is held already. -/
theorem exec_bootData_of_taken : exec (.bootData off total bs) s = .next (
    if off = s.castOn.held then
      let u := updCo (fun c => { c with total := some total, held := off + bs.length }) (deliverBytes .native off bs s)
      if off + bs.length = total then goVerify .native total u else u
    else if s.castOn.held < off then sendBoot 1 0 s.castOn.held s
    else s) := by
  have hexec : exec (.bootData off total bs) s = execBootData off total bs s := rfl
  have htot : s.castOn.total.getD total = total := by
    obtain h | h := hs <;> rw [h] <;> rfl
  have hgood : (decide (total ≠ total) || decide (stageSize < total) || decide (total < off + bs.length)) = false := by
    have hin : ¬ stageSize < total := Nat.not_lt.2 hle
    simp [hin, hfit]
  unfold bootTakes at ht
  rw [hexec, execBootData]
  simp only [ht, htot, hgood, Bool.false_eq_true, if_false, done]
  rfl

theorem exec_bootData_of_next (ho : off = s.castOn.held) : exec (.bootData off total bs) s = .next (
    let t := deliverBytes .native off bs s
    let u := { t with castOn := { t.castOn with total := some total, held := off + bs.length } }
    if off + bs.length = total then goVerify .native total u else u) := by
  rw [exec_bootData_of_taken ht hs hle hfit, if_pos ho]
  rfl

theorem exec_bootData_of_gap (hg : s.castOn.held < off) : exec (.bootData off total bs) s = .next (sendBoot 1 0 s.castOn.held s) := by
  rw [exec_bootData_of_taken ht hs hle hfit, if_neg (by omega), if_pos hg]

end
end

/-- Settles O53: what each route does while it is open to it, and what it answers while it is not. -/
theorem imageRoutes : Obligations.ImageRoutes := by
  intro s hh
  refine ⟨fun off bs hf hle ho => exec_bar4ImageWrite_of_open hf hle (routeOpen_of_running hh ho),
    fun off bs hw hc => exec_bar4ImageWrite_of_closed off bs (routeOpen_eq_false hw hc),
    fun off bs hf hle h0 h240 ho => exec_imgWrite_of_taken (imgBusy_of_open hf (routeOpen_of_running hh ho)) hle h0 h240,
    fun off bs n hw hc => ?_, fun off bs hf hw hlt => exec_imgWrite_of_range (imgBusy_of_open hf (routeOpen_of_running hh (.inl hw))) hlt,
    rfl, fun n hc => ⟨exec_go_of_bar4 hc, exec_go_of_other, fun hr hf => ?_, exec_claimTimeout_of_claimed hc⟩, exec_abort_of_holder,
    fun hc hf => exec_imgAbort_of_holder (imgBusy_of_open hf (routeOpen_of_running hh (.inr hc))) hc, exec_bootReqTimer_of_up,
    fun off total bs hu ho hv h0 h2048 hle hfit => ?_⟩
  · have hb := imgBusy_of_closed (routeOpen_eq_false hw hc)
    exact ⟨exec_imgWrite_of_busy off bs hb, exec_imgGo_of_busy n hb, exec_imgAbort_of_busy hb⟩
  · have hclaim : claimedBy s .i3c = true := by rw [claimedBy_of_claimed hc, hr]; rfl
    exact exec_imgGo_of_holder (imgBusy_of_open hf (routeOpen_of_running hh (.inr hclaim))) hc hr
  · have ht := bootTakes_of hu (routeOpen_of_running hh ho) hv h0 h2048
    refine ⟨fun hs hoff => ⟨fun hlt => ?_, fun heq => ?_⟩, fun hs hg => exec_bootData_of_gap ht hs hle hfit hg,
      fun k hk hne => exec_bootData_of_other_total ht hk hne⟩
    · rw [exec_bootData_of_next ht hs hle hfit hoff, if_neg hlt.ne]
    · rw [exec_bootData_of_next ht hs hle hfit hoff, if_pos heq]

end Sys2Proof.Machine
end
